-- ==== Sys2Proof/Word.lean ====
section
/-!
DEFINITION. The words of the module: bytes, 32-bit registers, 64-bit queue and instruction words, and the one
operation on them that every chapter uses (zero extension to a natural number is `BitVec.toNat`).
Source: spec/00_scope.md (Registers and memory; R6), spec/07_queues.md (R187).
-/
namespace Sys2Proof

/-- A byte of memory. -/
abbrev Byte := BitVec 8
/-- A control-window register (R6). -/
abbrev Reg := BitVec 32
/-- The 64 data bits of a queue word, and a Xazo-G instruction word. -/
abbrev Word := BitVec 64

end Sys2Proof
end

