-- ==== Sys2Proof/Syntax.lean ====
section
/-!
DEFINITION. The commands of the block.
-/
namespace Sys2Proof

/-- R223: the pools of the scheduler. -/
inductive PoolId where
  | tc | gth | dma | str | flw | ftr | wrp | pyr | cdc | seq
  deriving DecidableEq, Repr

/-- R98: FN of a sequencer `ALU`. -/
inductive AluFn where
  | add | sub | and | or | xor | shl | shr | sra | min | max | minu | maxu
  deriving DecidableEq, Repr

/-- R99: COND of a sequencer `BR`. -/
inductive BrCond where
  | eq | ne | lt | ge | ltu | geu | hol | nhol | end_ | nend | sq | nsq
  deriving DecidableEq, Repr

/-- R116: CMP of a `WAITF`. -/
inductive FlagCmp where
  | geu | eq | mask
  deriving DecidableEq, Repr

/-- R118: KIND of a `BARRIER`. -/
inductive BarKind where
  | vis | done | all
  deriving DecidableEq, Repr

/-- A second operand: a register, or an immediate of the width the instruction gives it (I of R97). -/
inductive RegImm (w : Nat) where
  | reg (r : Fin 32)
  | imm (v : BitVec w)
  deriving DecidableEq, Repr

/-- R95: the slot a sequencer instruction selects: CS or PS. -/
inductive SSel where
  | cs | ps
  deriving DecidableEq, Repr

/-- R97, R103: where `DATE` takes its record count from: ga, or a slot-relative flag. -/
inductive RecSrc where
  | reg (r : Fin 32)
  | flag (f : Fin 256)
  deriving DecidableEq, Repr

/-- R281: the header of a packet: as received, corrected, or beyond correction. -/
inductive Hdr where
  | ok | corrected | bad
  deriving DecidableEq, Repr

/-- Where a recovery command comes from: a command box over PCIe, of the non-secure or of the secure world (R605, R607), or the
console input DBG_RXD (R668). -/
inductive Via where
  | box (secure : Bool)
  | console
  deriving DecidableEq, Repr

/-- R299: how a transaction on a sensor-control master ends. -/
inductive ScmEnd where
  | done | nack | stretch
  deriving DecidableEq, Repr

/-- R622: what a segment's monitor meets on the wire: noise, jabber of another node, a collision, a late collision, or the
module's own transmission cut. -/
inductive LineEvent where
  | noise | jabber | collision | late | own
  deriving DecidableEq, Repr

/-- R637: what resets the link: PCIE_PERST_N, a hot reset, or a link-down. -/
inductive LinkReset where
  | perst | hot | down
  deriving DecidableEq, Repr

/-- R588: what a sensor sample reads: a temperature (MGC_TEMP), a rail's voltage (MGC_RAILV) or its current (MGC_RAILI). -/
inductive SensorKind where
  | temp | volt | curr
  deriving DecidableEq, Repr

/-- A register of a function's configuration space (R636, R637): the identification words, the command register, the
power-management and MSI-X control registers, or another by its offset. -/
inductive CfgReg where
  | id | cls | sub | command | power | msix
  | other (offset : Nat)
  deriving DecidableEq, Repr

/-- The commands: one constructor for each row of the opcode table, in the table's order. -/
inductive Instr where
  /-- REGISTER_WRITE (R7): an access to the control window or a function's page; `v` is the value of a write, and none for a read. -/
  | registerWrite (secure page : Bool) (off width : Nat) (v : Option (BitVec 64))
  /-- GRAPH_LOAD (R74). -/
  | graphLoad (secure : Bool) (tag : BitVec 16) (addr : BitVec 64) (len seq : Reg)
  /-- GRAPH_START (R76). -/
  | graphStart (secure : Bool) (tag : BitVec 16) (seq : Reg) (time : BitVec 64)
  /-- GRAPH_START_TAKES_EFFECT (R93). -/
  | graphStartTakesEffect (n : Fin 20) (c : Fin 2)
  /-- GRAPH_STOP (R76). -/
  | graphStop (secure : Bool) (tag : BitVec 16) (seq : Reg) (time : BitVec 64)
  /-- GRAPH_STOP_TAKES_EFFECT (R76). -/
  | graphStopTakesEffect (n : Fin 20) (c : Fin 2)
  /-- GRAPH_DRAINED (R77). -/
  | graphDrained (n : Fin 20) (c : Fin 2)
  /-- GRAPH_REPLACE (R78). -/
  | graphReplace (secure : Bool) (tag : BitVec 16) (addr : BitVec 64) (len seq : Reg) (time : BitVec 64)
  /-- GRAPH_REPLACE_TAKEOVER (R78). -/
  | graphReplaceTakeover (n : Fin 20) (c : Fin 2)
  /-- REPLACE_OLD_GRAPH_UNLOAD (R78). -/
  | replaceOldGraphUnload (n : Fin 20)
  /-- GRAPH_UNLOAD (R147). -/
  | graphUnload (secure : Bool) (tag : BitVec 16) (seq : Reg)
  /-- ADMIT_TRIAL (R145). -/
  | admitTrial (secure : Bool) (tag : BitVec 16) (addr : BitVec 64) (len seq : Reg)
  /-- ALMANAC_READ (R145). -/
  | almanacRead (secure : Bool) (tag : BitVec 16) (cls : Reg) (addr : BitVec 64)
  /-- COOLING_SET (R148). -/
  | coolingSet (secure : Bool) (tag : BitVec 16) (cls : Reg)
  /-- TABLE_REGISTER (R473). -/
  | tableRegister (secure : Bool) (tag : BitVec 16) (args : List Reg)
  /-- DOZE (R574). -/
  | doze (secure : Bool) (tag : Option (BitVec 16))
  /-- DOZE_IDLE_EXPIRY (R569). -/
  | dozeIdleExpiry
  /-- VIGIL (R571). -/
  | vigil (secure : Bool) (tag : Option (BitVec 16)) (force : Bool)
  /-- SOLSTICE (R571). -/
  | solstice (secure : Bool) (tag : Option (BitVec 16)) (force : Bool)
  /-- ENTRY_DRAIN_COMPLETE (R571). -/
  | entryDrainComplete
  /-- HOSTWAIT_EXPIRY (R571). -/
  | hostwaitExpiry
  /-- ENTRY_SEGMENTS_CLOSED (R571). -/
  | entrySegmentsClosed (answered : Bool)
  /-- PARK_COMPLETE (R571). -/
  | parkComplete
  /-- WAKE_SOURCE (R575). -/
  | wakeSource (b : Fin 9)
  /-- EXIT_TO_RUN (R573). -/
  | exitToRun
  /-- OFF (R678). -/
  | off (secure : Bool) (tag : Option (BitVec 16))
  /-- MODULE_RESET (R581). -/
  | moduleReset (via : Via) (tag : Option (BitVec 16))
  /-- CLUSTER_RESET (R582). -/
  | clusterReset (secure : Bool) (tag : Option (BitVec 16)) (cluster : BitVec 8)
  /-- UNIT_RESET (R582). -/
  | unitReset (secure : Bool) (tag : Option (BitVec 16)) (unit_ : BitVec 8)
  /-- SENSOR_READ (R607). -/
  | sensorRead (via : Via) (tag : BitVec 16)
  /-- UNIT_STATE (R607). -/
  | unitState (secure : Bool) (tag : BitVec 16) (first count : Reg)
  /-- UNIT_FENCE (R593). -/
  | unitFence (secure : Bool) (tag : BitVec 16) (unit_ : Reg)
  /-- UNIT_RELEASE (R595). -/
  | unitRelease (secure : Bool) (tag : BitVec 16) (unit_ : Reg)
  /-- UNIT_POWER (R594). -/
  | unitPower (secure : Bool) (tag : BitVec 16) (unit_ up : Reg)
  /-- SERVICE_READ (R607). -/
  | serviceRead (via : Via) (tag : BitVec 16)
  /-- SERVICE_CLEAR (R597). -/
  | serviceClear (secure : Bool) (tag : BitVec 16) (addr : BitVec 64)
  /-- DIARY_READ (R607). -/
  | diaryRead (via : Via) (tag : BitVec 16) (first count : Reg) (addr : BitVec 64)
  /-- DIARY_SEAL (R601). -/
  | diarySeal (secure : Bool) (tag : BitVec 16)
  /-- DIARY_KEY (R601). -/
  | diaryKey (via : Via) (tag : BitVec 16) (addr : BitVec 64)
  /-- DIARY_NOTE (R607). -/
  | diaryNote (secure : Bool) (tag : BitVec 16) (words : List Reg)
  /-- DIARY_ENTRY_WRITTEN (R602). -/
  | diaryEntryWritten
  /-- UPDATE_BEGIN (R610). -/
  | updateBegin (via : Via) (tag : BitVec 16) (size : Reg)
  /-- UPDATE_WRITE (R610). -/
  | updateWrite (via : Via) (tag : BitVec 16) (addr : BitVec 64) (len off : Reg)
  /-- UPDATE_COMMIT (R610). -/
  | updateCommit (via : Via) (tag : BitVec 16) (window : Reg)
  /-- UPDATE_CONFIRM (R612). -/
  | updateConfirm (secure : Bool) (tag : BitVec 16)
  /-- UPDATE_ABORT (R610). -/
  | updateAbort (via : Via) (tag : BitVec 16)
  /-- TRIAL_WINDOW_EXPIRY (R611). -/
  | trialWindowExpiry
  /-- PROVISION (R562). -/
  | provision (secure : Bool) (tag : BitVec 16) (addr : BitVec 64)
  /-- PROVREC_WRITE (R563). -/
  | provrecWrite (secure : Bool) (tag : BitVec 16) (addr : BitVec 64)
  /-- VERSION (R656). -/
  | version (via : Via) (tag : BitVec 16) (protocol hwgen : Reg)
  /-- SMBUS_BLOCK_WRITE (R608). -/
  | smbusBlockWrite (addr : Fin 128) (pecOk : Bool) (op tag : BitVec 16) (args : List Reg)
  /-- NOP (R97). -/
  | nop (n : Fin 20) (c : Fin 2)
  /-- HALT (R101). -/
  | halt (n : Fin 20) (c : Fin 2) (code : Fin 65536)
  /-- ALU (R98). -/
  | alu (n : Fin 20) (c : Fin 2) (fn : AluFn) (gd ga : Fin 32) (b : RegImm 32)
  /-- BR (R99). -/
  | br (n : Fin 20) (c : Fin 2) (k : SSel) (cond : BrCond) (ga : Fin 32) (b : RegImm 16) (target : Fin 2048)
  /-- JR (R100). -/
  | jr (n : Fin 20) (c : Fin 2) (ga : Fin 32)
  /-- EPOCH (R102). -/
  | epoch (n : Fin 20) (c : Fin 2) (gd gf : Fin 32)
  /-- EPOCH_RELEASE (R160). -/
  | epochRelease (n : Fin 20) (c : Fin 2)
  /-- DATE (R103). -/
  | date (n : Fin 20) (c : Fin 2) (k : SSel) (src : RecSrc) (ruleset : Fin 65536)
  /-- DATE_COMMIT (R176). -/
  | dateCommit (n : Fin 20)
  /-- DEADLINE_EXPIRY (R105). -/
  | deadlineExpiry (n : Fin 20) (idx : Fin 4)
  /-- SQUASH (R106). -/
  | squash (n : Fin 20) (c : Fin 2) (k : SSel) (ga : Fin 32) (reason : Fin 65536)
  /-- SCRUB_COMPLETE (R164). -/
  | scrubComplete (g : Fin 256)
  /-- WIN (R112). -/
  | win (n : Fin 20) (c : Fin 2) (stage : Fin 256) (wmin wmax : Fin 65536)
  /-- KICK (R107). -/
  | kick (n : Fin 20) (c : Fin 2) (k : SSel) (tgt : Fin 1024) (cflag : Fin 256) (set : Bool) (pbidx : Fin 1048576)
  /-- KICK_ACCEPT (R224). -/
  | kickAccept (e : Fin 10752)
  /-- KICK_REJECT_STALE_EPOCH (R110). -/
  | kickRejectStaleEpoch (e : Fin 10752)
  /-- PSET (R111). -/
  | pset (n : Fin 20) (c : Fin 2) (k : SSel) (ga : Fin 32) (woff : Fin 16777216)
  /-- WAITF (R116). -/
  | waitf (n : Fin 20) (c : Fin 2) (k : SSel) (cmp : FlagCmp) (b : RegImm 32) (f : Fin 256)
  /-- WAITF_RELEASE (R116). -/
  | waitfRelease (n : Fin 20) (c : Fin 2)
  /-- SETF (R117). -/
  | setf (n : Fin 20) (c : Fin 2) (k : SSel) (rd : Option (Fin 32)) (b : RegImm 32) (f : Fin 256)
  /-- ADDF (R117). -/
  | addf (n : Fin 20) (c : Fin 2) (k : SSel) (rd : Option (Fin 32)) (b : RegImm 32) (f : Fin 256)
  /-- BARRIER (R118). -/
  | barrier (n : Fin 20) (c : Fin 2) (k : SSel) (kind : BarKind)
  /-- BARRIER_RELEASE (R118). -/
  | barrierRelease (n : Fin 20) (c : Fin 2)
  /-- ENQ (R119). -/
  | enq (n : Fin 20) (c : Fin 2) (k : SSel) (last : Bool) (ga : Fin 32) (qid : Fin 65536)
  /-- DEQ (R121). -/
  | deq (n : Fin 20) (c : Fin 2) (blk : Bool) (gd : Fin 32) (qid : Fin 65536)
  /-- DEQ_RELEASE (R121). -/
  | deqRelease (n : Fin 20) (c : Fin 2)
  /-- TARM (R122). -/
  | tarm (n : Fin 20) (c : Fin 2) (tmr : Fin 4) (per : Bool) (interval : Fin 16777216)
  /-- TWAIT (R122). -/
  | twait (n : Fin 20) (c : Fin 2) (tmr : Fin 4)
  /-- TIMER_EXPIRY (R122). -/
  | timerExpiry (n : Fin 20) (c : Fin 2) (tmr : Fin 4)
  /-- TRD (R123). -/
  | trd (n : Fin 20) (c : Fin 2) (k : SSel) (gd : Fin 32) (sel : Fin 8)
  /-- LANTERN (R124). -/
  | lantern (n : Fin 20) (c : Fin 2) (tgt : Fin 1024) (cflag lid : Fin 256)
  /-- WINDOW_EXPIRY (R113). -/
  | windowExpiry (e : Fin 10752)
  /-- STAGE_COMPLETION (R107). -/
  | stageCompletion (e : Fin 10752)
  /-- DATING_GATE_RESUME (R173). -/
  | datingGateResume (e : Fin 10752)
  /-- SEQ_ACTIVATION (R248). -/
  | seqActivation (n : Fin 20)
  /-- TASK_DISPATCH (R230). -/
  | taskDispatch (p : PoolId)
  /-- PREEMPTION (R236). -/
  | preemption (p : PoolId)
  /-- DISPATCH_REJECT_STALE_EPOCH (R235). -/
  | dispatchRejectStaleEpoch (e : Fin 10752)
  /-- SERVED_TASK_READY (R239). -/
  | servedTaskReady (e : Fin 10752)
  /-- FLOW_RELEASE (R243). -/
  | flowRelease (f : Fin 1024)
  /-- FLOW_ENQUEUE_HOLD_RELEASE (R244). -/
  | flowEnqueueHoldRelease (e : Fin 10752)
  /-- STARVE_LIMIT (R250). -/
  | starveLimit (e : Fin 10752)
  /-- LEAP_MARKER_PLACE (R202). -/
  | leapMarkerPlace (qid : Fin 4096)
  /-- CELL_GRANT (R199). -/
  | cellGrant (qid : Fin 4096)
  /-- WAIT_BREAK (R212). -/
  | waitBreak
  /-- POOL_COUNT_CHECK (R215). -/
  | poolCountCheck
  /-- FLUSH (R205). -/
  | flush (secure : Bool) (qid : Fin 65536)
  /-- FLUSH_COMPLETE (R205). -/
  | flushComplete (qid : Fin 4096)
  /-- RESET (R214). -/
  | reset (secure : Bool) (qid : Fin 65536)
  /-- REBUILD (R219). -/
  | rebuild (secure : Bool)
  /-- POOL_TEST_END (R216). -/
  | poolTestEnd
  /-- POOL_BUILD_END (R218). -/
  | poolBuildEnd
  /-- REBUILD_SWEEP_END (R219). -/
  | rebuildSweepEnd
  /-- DMA_BURST_START (R257). -/
  | dmaBurstStart (k : Fin 8)
  /-- DESCRIPTOR_FETCH (R261). -/
  | descriptorFetch (idx : Fin 64)
  /-- DESCRIPTOR_COMPLETE (R268). -/
  | descriptorComplete (idx : Fin 64)
  /-- NEXT_READ_RETURN (R270). -/
  | nextReadReturn (idx : Fin 64)
  /-- DMA_CH_DOORBELL (R270). -/
  | dmaChDoorbell (secure : Bool) (idx : Fin 64)
  /-- CLEAR (R274). -/
  | clear (secure : Bool) (idx : Fin 64)
  /-- FINISH (R272). -/
  | finish (secure : Bool) (idx : Fin 64)
  /-- DMA_ERROR (R274). -/
  | dmaError (idx : Fin 64)
  /-- DMA_TIMEOUT (R275). -/
  | dmaTimeout (idx : Fin 64)
  /-- FRAME_START (R284). -/
  | frameStart (port : Fin 4) (vc : Fin 16) (h : Hdr)
  /-- FRAME_END (R285). -/
  | frameEnd (port : Fin 4) (vc : Fin 16) (h : Hdr)
  /-- IMAGE_LINE (R287). -/
  | imageLine (port : Fin 4) (vc : Fin 16) (dt : Fin 64) (h : Hdr) (crcOk overflow : Bool) (l : List Byte)
  /-- EMBEDDED_LINE (R306). -/
  | embeddedLine (port : Fin 4) (vc : Fin 16) (dt : Fin 64) (h : Hdr) (crcOk : Bool) (l : List Byte)
  /-- FRAME_TIMEOUT (R285). -/
  | frameTimeout (n : Fin 16)
  /-- PIPELINE_FRAME_DONE (R288). -/
  | pipelineFrameDone (n : Fin 16)
  /-- PAIR_WINDOW_EXPIRY (R311). -/
  | pairWindowExpiry (n : Fin 16)
  /-- ISP_SET_COMMIT (R302). -/
  | ispSetCommit (secure : Bool) (n : Fin 16)
  /-- SENSOR_WRITE_COMPLETE (R304). -/
  | sensorWriteComplete (n : Fin 16) (acked : Nat)
  /-- SCM_WRITE (R300). -/
  | scmWrite (secure : Bool) (m : Fin 4) (addr : Fin 128) (r : Fin 65536) (k : Fin 5) (e : ScmEnd)
  /-- SCM_READ (R300). -/
  | scmRead (secure : Bool) (m : Fin 4) (addr : Fin 128) (r : Fin 65536) (k : Fin 5) (e : ScmEnd) (v : Reg)
  /-- ENTDAA (R299). -/
  | entdaa (secure : Bool) (m : Fin 4) (e : ScmEnd)
  /-- FSYNC_PULSE (R301). -/
  | fsyncPulse (k : Fin 4)
  /-- FSYNC_START_WRITE (R301). -/
  | fsyncStartWrite (secure : Bool) (k : Fin 4) (hi : Reg)
  /-- FSYNC_PERIOD_WRITE (R301). -/
  | fsyncPeriodWrite (secure : Bool) (k : Fin 4) (v : Reg)
  /-- VIGIL_THUMBNAIL_JUDGE (R577). -/
  | vigilThumbnailJudge (n : Fin 16)
  /-- STEREO_STAGE (R320). -/
  | stereoStage (idx : Fin 4)
  /-- FLOW_STAGE (R344). -/
  | flowStage (idx : Fin 4)
  /-- FEATURE_DETECT_STAGE (R355). -/
  | featureDetectStage (idx : Fin 4)
  /-- FEATURE_MATCH_STAGE (R365). -/
  | featureMatchStage (idx : Fin 4)
  /-- PATTERN_WRITE (R361). -/
  | patternWrite (secure : Bool) (idx : Fin 4) (k : Fin 256) (v : Reg)
  /-- WARP_STAGE (R382). -/
  | warpStage (idx : Fin 8)
  /-- INVERSE_GENERATION (R385). -/
  | inverseGeneration (idx : Fin 8)
  /-- REDUCE (R390). -/
  | reduce (idx : Fin 8)
  /-- LAPLACE (R391). -/
  | laplace (idx : Fin 8)
  /-- COLLAPSE (R391). -/
  | collapse (idx : Fin 8)
  /-- EXPAND (R391). -/
  | expand (idx : Fin 8)
  /-- ENGINE_ERROR (R338). -/
  | engineError (u : Fin 256)
  /-- ENGINE_MEMORY_TIMEOUT (R338). -/
  | engineMemoryTimeout (u : Fin 256) (a : Nat)
  /-- TC_NOP (R446). -/
  | tcNop (c : Fin 64) (x : Bool)
  /-- TC_END (R463). -/
  | tcEnd (c : Fin 64)
  /-- TC_BR (R448). -/
  | tcBr (c : Fin 64) (x : Bool)
  /-- SALU (R447). -/
  | salu (c : Fin 64) (x : Bool)
  /-- AALU (R447). -/
  | aalu (c : Fin 64) (x : Bool)
  /-- MOVA (R447). -/
  | mova (c : Fin 64) (x : Bool)
  /-- TDSET (R449). -/
  | tdset (c : Fin 64) (x : Bool)
  /-- TDOFF (R449). -/
  | tdoff (c : Fin 64) (x : Bool)
  /-- PLD (R450). -/
  | pld (c : Fin 64) (x : Bool)
  /-- SLD (R450). -/
  | sld (c : Fin 64)
  /-- LD (R451). -/
  | ld (c : Fin 64)
  /-- ST (R451). -/
  | st (c : Fin 64)
  /-- LDQ (R452). -/
  | ldq (c : Fin 64)
  /-- STQ (R453). -/
  | stq (c : Fin 64)
  /-- GISS (R454). -/
  | giss (c : Fin 64)
  /-- PROC (R455). -/
  | proc (c : Fin 64)
  /-- MAC (R456). -/
  | mac (c : Fin 64)
  /-- WOUT (R458). -/
  | wout (c : Fin 64)
  /-- VOP (R459). -/
  | vop (c : Fin 64)
  /-- SFU (R460). -/
  | sfu (c : Fin 64)
  /-- FSET (R461). -/
  | fset (c : Fin 64)
  /-- FADD (R461). -/
  | fadd (c : Fin 64)
  /-- FWAIT (R461). -/
  | fwait (c : Fin 64)
  /-- TC_FWAIT_RELEASE (R461). -/
  | tcFwaitRelease (c : Fin 64)
  /-- TC_QUEUE_TOKEN_RELEASE (R407). -/
  | tcQueueTokenRelease (c : Fin 64) (x : Bool)
  /-- BAR (R462). -/
  | bar (c : Fin 64)
  /-- TC_DEADLOCK (R409). -/
  | tcDeadlock (c : Fin 64)
  /-- LOOKUP (R482). -/
  | lookup (e : Fin 10752)
  /-- BAG (R483). -/
  | bag (e : Fin 10752)
  /-- PROBE (R484). -/
  | probe (e : Fin 10752)
  /-- GATHER_REPLY (R485). -/
  | gatherReply (e : Fin 10752)
  /-- ENCODE_STAGE (R496). -/
  | encodeStage
  /-- SEGMENT_CLOSE_TIMEOUT (R498). -/
  | segmentCloseTimeout (n : Fin 16)
  /-- RECORD_WRITE (R505). -/
  | recordWrite
  /-- NVME_COMMAND_TIMEOUT (R649). -/
  | nvmeCommandTimeout (read : Bool)
  /-- NVME_COMMAND_COMPLETE (R649). -/
  | nvmeCommandComplete (read ok : Bool)
  /-- NVME_CONTROLLER_FATAL (R649). -/
  | nvmeControllerFatal
  /-- NVME_BRINGUP (R648). -/
  | nvmeBringup (ok : Bool) (width : Fin 16) (speed : Fin 8)
  /-- MOUNT (R507). -/
  | mount (secure : Bool)
  /-- FORMAT (R501). -/
  | format (secure : Bool) (addr : Nat)
  /-- PIN (R508). -/
  | pin (secure : Bool) (n q count : Nat)
  /-- UNPIN (R509). -/
  | unpin (secure : Bool) (n q count : Nat)
  /-- REPLAY_START (R510). -/
  | replayStart (secure : Bool) (n q : Nat)
  /-- REPLAY_STOP (R517). -/
  | replayStop (secure : Bool)
  /-- RING_CLEAR (R506). -/
  | ringClear (secure : Bool) (n : Nat)
  /-- REPLAY_READ (R510). -/
  | replayRead
  /-- DECODE_STAGE (R513). -/
  | decodeStage
  /-- FRAME_UNIT (R533). -/
  | frameUnit (n : Fin 20)
  /-- RECORD_UNIT (R534). -/
  | recordUnit (n : Fin 20)
  /-- SIGNATURE_UNIT (R540). -/
  | signatureUnit
  /-- MANAGEMENT_REQUEST (R596). -/
  | managementRequest
  /-- CHECKER_UNIT_TIMEOUT (R522). -/
  | checkerUnitTimeout
  /-- LOAD (R523). -/
  | load (secure : Bool) (t : Fin 256)
  /-- DROP (R523). -/
  | drop (secure : Bool) (t : Fin 256)
  /-- LANTERN_SET_WRITE (R545). -/
  | lanternSetWrite (secure : Bool) (l : Fin 128) (idx : Fin 16) (v : Reg)
  /-- LANTERN_CYCLE_END (R541). -/
  | lanternCycleEnd
  /-- LANTERN_STAGE_TIMEOUT (R539). -/
  | lanternStageTimeout (e : Fin 10752)
  /-- UNIT_WORLD_ASSIGN (R547). -/
  | unitWorldAssign (secure : Bool) (w : Fin 8) (v : Reg)
  /-- REGION_ENTRY_WRITE (R549). -/
  | regionEntryWrite (secure som : Bool) (r : Fin 256) (k : Fin 4) (v : Reg)
  /-- FWL_VLOG_POP (R556). -/
  | fwlVlogPop (secure : Bool) (v : Reg)
  /-- MOD_EN_ASSERT (R581). -/
  | modEnAssert
  /-- MOD_EN_DEASSERT (R678). -/
  | modEnDeassert
  /-- MOD_RST_N_ASSERT (R580). -/
  | modRstNAssert
  /-- SUPPLY_VALID (R673). -/
  | supplyValid
  /-- SUPPLY_BROWNOUT (R673). -/
  | supplyBrownout
  /-- POWER_ON_RESET (R581). -/
  | powerOnReset (straps : Fin 4)
  /-- HOST_WAKE_N_ASSERT (R575). -/
  | hostWakeNAssert
  /-- WAKETIME_REACHED (R575). -/
  | waketimeReached
  /-- CLOCK_CHANGE_COMPLETE (R567). -/
  | clockChangeComplete
  /-- SENSOR_SAMPLE (R588). -/
  | sensorSample (k : SensorKind) (idx : Fin 16) (v : BitVec 32)
  /-- RAILWARN (R589). -/
  | railwarn (r : Fin 10) (mv : Fin 65536)
  /-- RAILFAULT (R589). -/
  | railfault (r : Fin 10) (mv : Fin 65536)
  /-- SUPPLYLOW (R589). -/
  | supplylow
  /-- THERMWARN (R590). -/
  | thermwarn
  /-- THERMAL_STEP_DOWN (R590). -/
  | thermalStepDown
  /-- THERMAL_STEP_UP (R590). -/
  | thermalStepUp
  /-- SHED_RESTORE (R155). -/
  | shedRestore
  /-- THERMAL_TRIP (R590). -/
  | thermalTrip
  /-- MANAGEMENT_WATCHDOG_EXPIRY (R587). -/
  | managementWatchdogExpiry
  /-- AUDIT (R596). -/
  | audit
  /-- SEGMENT_FRAME_RECEIVE (R617). -/
  | segmentFrameReceive (g : Fin 2) (node : Fin 256) (fcsOk : Bool) (l : List Byte)
  /-- SEGMENT_TRANSMIT (R621). -/
  | segmentTransmit (g : Fin 2)
  /-- BEACON (R616). -/
  | beacon (g : Fin 2) (heard : Bool)
  /-- BEACON_LOSS (R616). -/
  | beaconLoss (g : Fin 2)
  /-- JABBER (R622). -/
  | jabber (g : Fin 2) (k : LineEvent)
  /-- SEGMENT_ISOLATE (R623). -/
  | segmentIsolate (g : Fin 2) (v : BitVec 16)
  /-- SEGMENT_LINE_TEST (R623). -/
  | segmentLineTest (g : Fin 2) (v : BitVec 16)
  /-- WAKE_BURST (R624). -/
  | wakeBurst (g : Fin 2)
  /-- INPUT_SAMPLE (R625). -/
  | inputSample (idx : Fin 8) (voff fwd rev : BitVec 16)
  /-- FLD_OUT_CMD (R629). -/
  | fldOutCmd (secure : Bool) (v : Reg)
  /-- OUTPUT_SHORT (R629). -/
  | outputShort (o : Fin 4) (current : Fin 65536)
  /-- OUTPUT_RETRY (R630). -/
  | outputRetry (o : Fin 4)
  /-- OUTPUT_OPEN (R629). -/
  | outputOpen (o : Fin 4) (current : Fin 65536)
  /-- OUTPUT_THERM (R629). -/
  | outputTherm (o : Fin 4) (hot : Bool) (current : Fin 65536)
  /-- VFLD_RESTORE (R631). -/
  | vfldRestore (mv : Fin 65536)
  /-- FUNCTION_LEVEL_RESET (R637). -/
  | functionLevelReset (f : Fin 2)
  /-- PCIE_PERST_N_ASSERT (R637). -/
  | pciePerstNAssert (k : LinkReset)
  /-- CONFIG_REQUEST (R677). -/
  | configRequest (f : Fin 2) (write : Bool) (r : CfgReg) (v : Reg)
  /-- MEMORY_WINDOW_ACCESS (R639). -/
  | memoryWindowAccess (f : Fin 2) (write : Bool) (o n : Nat) (l : List Byte)
  /-- RING_BIND (R643). -/
  | ringBind (f : Fin 2) (r : Fin 32) (v : Reg)
  /-- RING_UNBIND (R643). -/
  | ringUnbind (f : Fin 2) (r : Fin 32) (v : Reg)
  /-- RING_DB (R646). -/
  | ringDb (f : Fin 2) (r : Fin 32) (ci : Reg)
  /-- RING_DELIVERY (R645). -/
  | ringDelivery (f : Fin 2)
  /-- MSIX_VECTOR_UNMASK (R642). -/
  | msixVectorUnmask (f : Fin 2) (vec : Fin 2048)
  /-- ETH_FRAME_RECEIVE (R651). -/
  | ethFrameReceive (m : Fin 2) (fcsOk : Bool) (l : List Byte)
  /-- ETH_TRANSMIT (R652). -/
  | ethTransmit (m : Fin 2)
  /-- ETH_LINK_CHANGE (R652). -/
  | ethLinkChange (m : Fin 2) (rate : Fin 8)
  /-- PTP_SYNC (R654). -/
  | ptpSync (off : BitVec 64)
  /-- TIME_ADJ_WRITE (R653). -/
  | timeAdjWrite (secure : Bool) (v : Reg)
  /-- TIME_OFS_WRITE (R653). -/
  | timeOfsWrite (secure : Bool) (hi : Reg)
  /-- TIME_READ_LATCH (R661). -/
  | timeReadLatch (secure : Bool)
  /-- MDIO_WRITE (R650). -/
  | mdioWrite (secure c45 : Bool) (m : Fin 2) (port dev : Fin 32) (data : Fin 65536)
  /-- MDIO_READ (R650). -/
  | mdioRead (secure c45 : Bool) (m : Fin 2) (port dev : Fin 32) (v : BitVec 16)
  /-- MDIO_ADDRESS (R650). -/
  | mdioAddress (secure c45 : Bool) (m : Fin 2) (port dev : Fin 32) (addr : Fin 65536)
  /-- HTS_SNAP (R254). -/
  | htsSnap (secure : Bool)
  /-- FLD_SEG_CFG (R616). -/
  | fldSegCfg (secure : Bool) (g : Fin 2) (v : Reg)
  /-- IN_BAND_INTERRUPT (R299). -/
  | inBandInterrupt (m : Fin 4)
  /-- OPEN_LOAD_CLEARED (R630). -/
  | openLoadCleared (o : Fin 4) (current : Fin 65536)
  /-- PME_TURN_OFF (R658). -/
  | pmeTurnOff
  /-- PCIE_PERST_N_DEASSERT (R676). -/
  | pciePerstNDeassert
  /-- LINK_REACHES_L0 (R658). -/
  | linkReachesL0 (width : Fin 16) (speed : Fin 8)
  deriving DecidableEq, Repr

end Sys2Proof
end

