-- ==== Sys2Proof/Config.lean ====
section
/-!
DEFINITION. What an implementation fixes and the free values of the model: the order code, the places of memories
the specification leaves unstated, and every result the specification does not give. A free value is an `opaque`
constant without a body: nothing can be proved of it beyond what holds for every value.
-/
namespace Sys2Proof

/-- The order code (R2, R656): 1 HKM-7160-I128, 2 HKM-7160-I64. DESIGN CHOICE, log entry 4. -/
def Config.variant : Nat := 1

/-- Installed external memory in bytes (R2, R660): 128 GiB. -/
def Config.dramBytes : Nat := 0x20_0000_0000

/-- Shared on-chip memory in bytes: 96 MiB (spec/00, headline figures). -/
def Config.somBytes : Nat := 0x600_0000

/-- Module address of the first byte of SOM. DESIGN CHOICE, log entry 5: the specification gives no module address
map; external memory starts at module address 0. -/
def Config.somBase : Nat := 0x100_0000_0000

/-- First byte of the 2 GiB firmware reserve of R134, placed at the top of external memory. DESIGN CHOICE, log
entry 6. The two staging areas of R551 are its first 512 MiB. -/
def Config.fwReserve : Nat := Config.dramBytes - 0x8000_0000

/-- Non-secure staging area (R551), 256 MiB. DESIGN CHOICE, log entry 6. -/
def Config.stagingN : Nat := Config.fwReserve

/-- Secure staging area (R551), 256 MiB. DESIGN CHOICE, log entry 6. -/
def Config.stagingS : Nat := Config.fwReserve + 0x1000_0000

/-- The serial number, as ID_SERIAL (R660), word by word. Free value. -/
opaque Config.serial : Nat → Reg

/-- Die stepping, ID_STEP [7:0] (R660). Free value. -/
opaque Config.step : BitVec 8

/-- SHA-384 of a byte string (R67, R558, R600, R604). The specification names the function and does not define it. -/
opaque Config.sha384 : List Byte → BitVec 384

/-- Whether an ECDSA P-384 signature (96 bytes) verifies over a SHA-384 digest under a public key (97 bytes), R67,
R558, R563, R597. -/
opaque Config.ecdsaOk : (pub : List Byte) → (digest : BitVec 384) → (sig : List Byte) → Bool

/-- The signature (r then s) the module's attestation key makes over a digest (R601). Free value. -/
opaque Config.attest : BitVec 384 → BitVec 768

/-- The attestation public key and its Hudavos certificate, as DIARY_KEY writes them (R601, R607): their bytes, and how many
they are, at most 65,536 (log entry 50). Free values. -/
opaque Config.attestSize : Fin 65537
opaque Config.attestByte : (i : Nat) → Byte
def Config.attestKey : List Byte := (List.range Config.attestSize.val).map Config.attestByte

/-- SHA-384 of the Hudavos root keys, fuse ROOTH[0..2] (R560). Free value. -/
opaque Config.rooth : Nat → BitVec 384

/-- Milliseconds a coordinator stays in CSMA/CD after the n-th beacon conflict: 10 to 20, chosen at random (R616). -/
opaque Config.beaconBackoff : Nat → Fin 11

/-- The firmware version a shipped image carries (R558). Free value. -/
opaque Config.firmwareVersion : Nat

/-- The security version a shipped image carries (R558). Free value. -/
opaque Config.firmwareSvn : Fin 33

/-- The byte that the r-th read of host memory finds at an offset of the host window (R640). Free value. -/
opaque Config.hostByte : (r addr : Nat) → Byte

/-- What an intermediate of S5 becomes when it does not fit the 18 signed bits of R294. Free value. -/
opaque Config.ispWide : Int → Int

/-- The 8-bit luma by which the statistics histogram counts an S6 pixel (R298 gives no formula). Free value. -/
opaque Config.statLuma : (r g b : Nat) → Fin 256

/-- Bytes whose contents the specification leaves open, by the number of the use and the place in it: the scratch of
an engine after a stage (R325). Free value. -/
opaque Config.freeByte : (use i : Nat) → Byte

/-- The code a stereo engine reads for a pixel outside its image, which R321 and R328 reach and do not give: 16 bits, of which
an 8-bit image takes the low 8. Free value. -/
opaque Config.strOutside : (x y : Int) → BitVec 16

/-- How many rows a gather partition reads ahead where R487 lets it, or has in flight when it is preempted (R488), by use, before
its bounds apply. Free value. -/
opaque Config.gthAhead : (use : Nat) → Nat

/-- The code of a tap at column `c` and row `r` that a warp engine clamps or mirrors into an image whose row limit is 0
(R380 gives no pixel there). Free value. -/
opaque Config.wrpEmpty : (c r : Int) → Nat

/-- The result of a special function (R401: 3 EXP2, 4 LOG2, 5 TANH, 6 SIGMOID, 7 ERF) of an FP32 code. Free value. -/
opaque Config.sfu : (fn x : Nat) → Nat

/-- Which of the FP32 codes within 1 ulp of RCP (0), SQRT (1) or RSQRT (2) of an operand is the result (R401). Free
value. -/
opaque Config.sfuPick : (fn x : Nat) → Nat

/-- Byte `i` of the picture that the HEVC encoder codes at a use, and the size it comes to (R496 and R493 give its syntax,
not its choices). Free values. -/
opaque Config.codedByte : (use i : Nat) → Byte
opaque Config.codedSize : (use : Nat) → Nat

/-- Byte `i`, in the order of its lines, of the picture that decoding the last picture of a coded segment gives: H.265,
which R493 names, is not part of the specification. Free value. -/
opaque Config.decodedByte : (coded : List Byte) → (i : Nat) → Byte

/-- Logical blocks of the drive's namespace 1 (R501, R648). Free value. -/
opaque Config.nvmeBlocks : Nat

/-- KIND of the diary entries that R648 and R649 ask for and R603 does not list. Free value. -/
opaque Config.nvmeKind : BitVec 16

/-- The bytes that ALMANAC_READ writes (R145, R607 give their content, not their layout), from the almanac of a class in
refusal-code order and, for each loaded graph, its sequencer and its charges in the same order; at most 65,536 bytes (log
entry 50). Free values. -/
opaque Config.almanacSize : (almanac : List Nat) → (charges : List (Nat × List Nat × List (Nat × Nat))) → Fin 65537
opaque Config.almanacByte : (almanac : List Nat) → (charges : List (Nat × List Nat × List (Nat × Nat))) → (i : Nat) → Byte
def Config.almanacImage (almanac : List Nat) (charges : List (Nat × List Nat × List (Nat × Nat))) : List Byte :=
  (List.range (Config.almanacSize almanac charges).val).map (Config.almanacByte almanac charges)

/-- KIND of the diary entry that R623 asks for when a segment isolates and R603 does not list. Free value. -/
opaque Config.segmentKind : BitVec 16

/-- The load current in mA of a supervised output that has just been switched on, by use (R628, R629: only a measurement
gives it). Free value. -/
opaque Config.outCurrent : (use : Nat) → BitVec 16

/-- OLD and NEW of a field event of VFLD, which has no status register (R628): inside its band or outside. Free value. -/
opaque Config.vfldState : (outside : Bool) → Byte

/-- The crystal period that the management processor measures or corrects, in 2⁻¹⁶ ns, by use (R568). Free value. -/
opaque Config.crystalPeriod : (use : Nat) → Reg

/-- The value that the firmware's PTP client slews ADJ to, by use, before it is held within R653's range (R654 gives no
control law). Free value. -/
opaque Config.ptpAdj : (use : Nat) → Reg

/-- What a field of configuration space that R636 and R637 do not give reads as. Free value. -/
opaque Config.cfgOther : (offset : Nat) → Reg

/-- What an erased byte of the boot flash reads as. Free value. -/
opaque Config.erasedByte : Byte

/-- Whether the revoked bit of a graph-signing key is set, from its 97 bytes in the provisioning record (R563 does not place
the bit). Free value. -/
opaque Config.keyRevoked : List Byte → Bool

/-- Whether a provisioning record's signature verifies under the key whose hash is OWNH (R563 does not say where that key
stands). Free value. -/
opaque Config.ownerSigOk : (ownh digest : BitVec 384) → (sig : List Byte) → Bool

/-- The length of a clearance token, whether its signature verifies and names this module, and the causes it names (R597
gives no layout); a token is at most 65,536 bytes long (log entry 50). Free values. -/
opaque Config.tokenSize : Fin 65537
def Config.tokenLen : Nat := Config.tokenSize.val
opaque Config.tokenOk : (token : List Byte) → Bool
opaque Config.tokenCauses : (token : List Byte) → BitVec 8

/-- Response word `i` of SENSOR_READ, from the sixteen temperature, eleven voltage and eleven current registers: R607 names
38 values for 16 words. Free value. -/
opaque Config.sensorRsp : (readings : List Reg) → (i : Nat) → Reg

/-- Microseconds from a reset's cause to the end of step 7 of R581, by use (R581 bounds the steps; BOOTDONE of R603 records
them). Free value. -/
opaque Config.bootMicros : (use : Nat) → Nat

/-- A sample of a kept line that depends on a line not received, by frame time-stamp, stage, plane, line and column: R288 and R298
do not say what the statistics take there. Free value. -/
opaque Config.ispCut : (tstamp stage plane y x : Nat) → BitVec 16

/-- Whether a direct transaction on a sensor-control master sends a 16-bit register address (R299): ISP_SCM_CMD does not say. Free
value. -/
opaque Config.scmAddr16 : (master target reg : Nat) → Bool

/-- The boot progress codes that DBG_TXD sends in a boot (R668 does not name them), by use and whether the recovery loader stays. Free
value. -/
opaque Config.bootCodes : (use : Nat) → (recovery : Bool) → List Byte

/-- What a register that shows how far a unit's work has come reads as, by use, where one step of the model does that work whole
(DMA and gather accesses in flight, the line an engine is at, a camera port's line state). Free value. -/
opaque Config.progress : (use : Nat) → Reg

end Sys2Proof
end

