-- ==== Sys2Proof/Machine/Bits.lean ====
section
/-!
DEFINITION. Bit fields, sign extension, byte order, the keyed tables in which the model holds sparse state, and the
CRC-32C of R83. Source: spec/00_scope.md (Notation, Registers and memory), spec/03_frame_graphs.md (R83).
-/
namespace Sys2Proof.Machine

/-- Bits `[hi:lo]` of a natural number (spec/00: bit 0 least significant). -/
def bits (hi lo n : Nat) : Nat := n / 2 ^ lo % 2 ^ (hi + 1 - lo)

/-- Bit `i` of a natural number. -/
def bit (i n : Nat) : Bool := n / 2 ^ i % 2 == 1

/-- 1 for true, 0 for false. -/
def b2n (b : Bool) : Nat := if b then 1 else 0

/-- The quotient rounded up, `cdiv` of the specification. -/
def cdiv (a b : Nat) : Nat := (a + b - 1) / b

/-- The signed reading of the low `w` bits of `n`. -/
def sext (w n : Nat) : Int :=
  let m := n % 2 ^ w
  if m < 2 ^ (w - 1) then (m : Int) else (m : Int) - (2 ^ w : Nat)

/-- The `w`-bit two's complement pattern of an integer. -/
def wrap (w : Nat) (i : Int) : Nat := (i % (2 ^ w : Nat)).toNat

/-- An integer brought into `[lo, hi]`. -/
def clampI (lo hi i : Int) : Int := if i < lo then lo else if hi < i then hi else i

/-- A natural number held at `hi`, for counters and fields that saturate. -/
def satN (hi n : Nat) : Nat := if hi < n then hi else n

/-- The 32-bit register that holds `n` (a counter wraps here). -/
def reg (n : Nat) : Reg := BitVec.ofNat 32 n

/-- A register with bit `i` set. -/
def setBit (i : Nat) (r : Reg) : Reg := r ||| BitVec.ofNat 32 (2 ^ i)

/-- A register with bit `i` cleared. -/
def clearBit (i : Nat) (r : Reg) : Reg := r &&& ~~~ (BitVec.ofNat 32 (2 ^ i))

/-- `n` little-endian bytes of `v` (spec/00: multi-byte values are little-endian). -/
def leBytes : Nat → Nat → List Byte
  | 0, _ => []
  | n + 1, v => BitVec.ofNat 8 v :: leBytes n (v / 256)

/-- The value of little-endian bytes. -/
def leNat : List Byte → Nat
  | [] => 0
  | b :: t => b.toNat + 256 * leNat t

/-- The value of big-endian bytes. -/
def beNat (l : List Byte) : Nat := leNat l.reverse

/-- `n` zero bytes. -/
def zeros (n : Nat) : List Byte := List.replicate n 0

/-- The `n` bytes from offset `o`; bytes beyond the end read 0. -/
def slice (l : List Byte) (o n : Nat) : List Byte :=
  let t := (l.drop o).take n
  t ++ zeros (n - t.length)

/-- The little-endian field of `n` bytes at offset `o`. -/
def leAt (l : List Byte) (o n : Nat) : Nat := leNat (slice l o n)

/-- Bytes padded with zeros to a multiple of 8, cut into 64-bit little-endian words. -/
def toWords : Nat → List Byte → List Word
  | 0, _ => []
  | n + 1, l => BitVec.ofNat 64 (leNat (l.take 8)) :: toWords n (l.drop 8)

/-- The 64-bit words of a byte string, the last one padded with 0. -/
def bytesToWords (l : List Byte) : List Word := toWords (cdiv l.length 8) l

/-- The bytes of 64-bit words, low byte first. -/
def wordsToBytes (l : List Word) : List Byte := l.flatMap fun w => leBytes 8 w.toNat

/-- One byte of the reflected CRC-32C (polynomial 0x1EDC6F41, reflected 0x82F63B78), R83. -/
def crcShift : Nat → Nat → Nat
  | 0, c => c
  | n + 1, c => crcShift n (if c % 2 = 1 then (c / 2).xor 0x82F63B78 else c / 2)

/-- CRC-32C over a byte string, R83: initial value all ones, reflected, final complement. -/
def crc32c (l : List Byte) : Nat :=
  (l.foldl (fun c b => crcShift 8 (c.xor b.toNat)) 0xFFFFFFFF).xor 0xFFFFFFFF

/-- A byte string followed by its CRC-32C, four bytes little-endian. -/
def withCrc (l : List Byte) : List Byte := l ++ leBytes 4 (crc32c l)

/-- The value at key `k` of a keyed table; `d k` where the table lists none. -/
def kvGet {α : Type} (d : Nat → α) : List (Nat × α) → Nat → α
  | [], k => d k
  | (a, v) :: t, k => if a = k then v else kvGet d t k

/-- A keyed table with the value at key `k` set; the keys stay in rising order. -/
def kvPut {α : Type} : List (Nat × α) → Nat → α → List (Nat × α)
  | [], k, v => [(k, v)]
  | (a, w) :: t, k, v =>
    if a = k then (k, v) :: t
    else if k < a then (k, v) :: (a, w) :: t
    else (a, w) :: kvPut t k v

/-- A keyed table without key `k`. -/
def kvDel {α : Type} (l : List (Nat × α)) (k : Nat) : List (Nat × α) := l.filter fun p => p.1 != k

/-- The least number in `[lo, lo + n)` that satisfies `p`. -/
def findFrom (p : Nat → Bool) : Nat → Nat → Option Nat
  | 0, _ => none
  | n + 1, lo => if p lo then some lo else findFrom p n (lo + 1)

/-- Element `i` of a list, or `d`. -/
def nth {α : Type} (d : α) (l : List α) (i : Nat) : α := (l[i]?).getD d

/-- The largest of a list of integers, `d` for the empty list. -/
def maxI (d : Int) (l : List Int) : Int := l.foldl (fun a b => if a < b then b else a) d

/-- The largest of a list of naturals, 0 for the empty list. -/
def maxN (l : List Nat) : Nat := l.foldl max 0

/-- The sum of a list of naturals. -/
def sumN (l : List Nat) : Nat := l.foldl (· + ·) 0

/-- The sum of a list of integers. -/
def sumI (l : List Int) : Int := l.foldl (· + ·) 0

/-- An element put before the first one of a list that it comes before or equals. -/
def insertL {α : Type} (le : α → α → Bool) (a : α) : List α → List α
  | [] => [a]
  | b :: t => if le a b then a :: b :: t else b :: insertL le a t

/-- A list in the order of `le`, equal elements in the order they had. -/
def sortL {α : Type} (l : List α) (le : α → α → Bool) : List α := l.foldr (insertL le) []

/-- A field of an instruction word. -/
def wf (w : BitVec 128) (hi lo : Nat) : Nat := bits hi lo w.toNat

/-- OP of a word. -/
def wOp (w : BitVec 128) : Nat := wf w 127 120

end Sys2Proof.Machine
end

