-- ==== Sys2Proof/Machine/Regs.lean ====
section
/-!
DEFINITION. The control window (R15): the blocks, and in each block every register that software can write or that
does not reset to 0, with its access type field by field (R7), its reset value and the ranges outside which a write
is ignored. A register that this file does not list is read-only and resets to 0.
Source: spec/01 R15, and the register maps R131, R222, R254, R279, R316, R341, R372, R395, R431, R492, R518, R545,
R565, R586, R614, R634, R641, R660, R661.
-/
namespace Sys2Proof.Machine

/-- One row of a register map: `n` registers from `off` at steps of `stride`; the masks of its RW, RWL, W1C and W1S
fields; the reset value; and ranges `(hi, lo, min, max)` of fields outside which a write is ignored. -/
structure RegRow where
  off    : Nat
  n      : Nat := 1
  stride : Nat := 4
  rw     : Nat := 0
  rwl    : Nat := 0
  w1c    : Nat := 0
  w1s    : Nat := 0
  reset  : Nat := 0
  ranges : List (Nat × Nat × Nat × Nat) := []

/-- Which power domain answers for a block (R19, R569). -/
inductive Domain where
  | aon | compute | fld
  deriving DecidableEq, Repr

/-- Whose world a block or instance follows (R15, R17). -/
inductive WorldRule where
  | both | secure
  /-- bit of FWL_BLKW -/
  | blk (bit : Nat)
  /-- the unit that instance i is, from this UNIT on -/
  | unit (first : Nat)
  /-- DMA: the channel addressed -/
  | dma
  /-- QM: the queue addressed -/
  | queue
  /-- MGC: box 1 is secure, all else both -/
  | mgc
  deriving DecidableEq, Repr

/-- A block of the control window. -/
structure Block where
  base   : Nat
  size   : Nat
  stride : Nat
  world  : WorldRule
  dom    : Domain
  /-- offset of the lock register in the instance, 0 for none -/
  lock   : Nat := 0
  rows   : List RegRow

/-! ### Block bases (R15) -/

def idBase : Nat := 0x0000_0000
def hifBase : Nat := 0x0010_0000
def seqBase (n : Nat) : Nat := 0x0100_0000 + 0x1_0000 * n
def qmBase : Nat := 0x0200_0000
def htsBase : Nat := 0x0240_0000
def dmaBase (k : Nat) : Nat := 0x0280_0000 + 0x10_0000 * k
def ispBase (n : Nat) : Nat := 0x0300_0000 + 0x4_0000 * n
def strBase (i : Nat) : Nat := 0x0400_0000 + 0x4_0000 * i
def flwBase (i : Nat) : Nat := 0x0410_0000 + 0x4_0000 * i
def ftrBase (i : Nat) : Nat := 0x0420_0000 + 0x4_0000 * i
def wrpBase (i : Nat) : Nat := 0x0430_0000 + 0x2_0000 * i
def pyrBase (i : Nat) : Nat := 0x0440_0000 + 0x2_0000 * i
def tcBase (c : Nat) : Nat := 0x0800_0000 + 0x4_0000 * c
def gthBase (p : Nat) : Nat := 0x0A00_0000 + 0x10_0000 * p
def cdcBase : Nat := 0x0B00_0000
def chkBase : Nat := 0x0C00_0000
def fwlBase : Nat := 0x0D00_0000
def pwrBase : Nat := 0x0E00_0000
def mgcBase : Nat := 0x0E80_0000
def fldBase : Nat := 0x0F00_0000
/-- Segment s of the field block (R634). -/
def segBase (s : Nat) : Nat := fldBase + 0x200 + 0x200 * s
/-- MAC m of the host interface (R661). -/
def macBase (m : Nat) : Nat := hifBase + 0x1000 + 0x100 * m
/-- Command box b of the management block (R614). -/
def boxBase (b : Nat) : Nat := mgcBase + 0x1000 + 0x1000 * b
/-- The function page of function f (R641), kept above the control window in the register table. -/
def fnPage (f : Nat) : Nat := 0x1000_0000 * (f + 1)
/-- Ring r of function f (R641). -/
def ringBase (f r : Nat) : Nat := fnPage f + 0x2_0000 + 64 * r

/-! ### Register maps -/

/-- R661, with R650 and R653. -/
def hifRows : List RegRow := [
  { off := 0x0000, reset := 0x0100 },
  { off := 0x0008, w1s := 1 },
  { off := 0x0010, w1c := 0xFF },
  { off := 0x0014, rw := 0xFF },
  { off := 0x0208, rw := 0xFFFFFFFF },
  { off := 0x020C, rwl := 0x000DFF03, ranges := [(19, 18, 0, 1), (15, 8, 0, 127), (1, 0, 0, 2)] },
  { off := 0x0210, rw := 0xFFFFFFFF },
  { off := 0x0214, rw := 0xFFFFFFFF },
  { off := 0x0800, n := 152, rw := 0xC00007FF },
  { off := 0x1000, n := 2, stride := 0x100, rw := 0xF0000000, reset := 0x30000000 },
  { off := 0x1008, n := 2, stride := 0x100, rw := 0xFFFFFFFF },
  { off := 0x100C, n := 2, stride := 0x100, rw := 0xFFFF },
  { off := 0x1010, n := 2, stride := 0x100, rw := 0xFFFFFFFF },
  { off := 0x1020, n := 8, stride := 8, rw := 0xFFFFFFFF },
  { off := 0x1024, n := 8, stride := 8, rw := 0x8000FFFF },
  { off := 0x1120, n := 8, stride := 8, rw := 0xFFFFFFFF },
  { off := 0x1124, n := 8, stride := 8, rw := 0x8000FFFF } ]

/-- R131. -/
def seqRows : List RegRow := [
  { off := 0x0014, w1c := 0xF },
  { off := 0x0018, rw := 0xF } ]

/-- R222. QM_CMD acts and QM_DEGRADED clears by its own rule. -/
def qmRows : List RegRow := [
  { off := 0x0000, reset := 0x10000100 },
  { off := 0x0020, w1c := 0x7F },
  { off := 0x0024, rw := 0x7F },
  { off := 0x0040, w1c := 0xFFFFF } ]

/-- R254. -/
def htsRows : List RegRow := [
  { off := 0x0000, reset := 0x0100 },
  { off := 0x0010, w1c := 0xF },
  { off := 0x0014, rw := 0xF },
  { off := 0x0018, rw := 0xFFFFFF, reset := 100000 },
  { off := 0x8000, rw := 0x3FFF } ]

/-- R279: cluster registers and the eight channels at 0x1000 + c × 0x100. -/
def dmaRows : List RegRow := [
  { off := 0x0000, reset := 0x0100 },
  { off := 0x0004, rwl := 0xFFFF, reset := 100, ranges := [(15, 0, 1, 65535)] },
  { off := 0x0008, w1s := 1 },
  { off := 0x0014, rw := 0xFF },
  { off := 0x1024, n := 8, stride := 0x100, w1c := 0xF },
  { off := 0x1028, n := 8, stride := 0x100, rw := 0xF } ]

/-- R316: pipeline registers; ports, sensor-control masters and frame sync in their instances. -/
def ispRows : List RegRow := [
  { off := 0x0000, reset := 0x0100 },
  { off := 0x0010, rw := 0x830F3F3F, reset := 0x00002C12 },
  { off := 0x0014, rw := 0x7FFF3FFF, reset := 0x04380780 },
  { off := 0x0018, rw := 0x77 },
  { off := 0x001C, rw := 0xC00F3FFF, reset := 500 },
  { off := 0x0020, n := 2, stride := 8, rw := 0x3FFF3FFF },
  { off := 0x0024, n := 2, stride := 8, rw := 0x8000000F },
  { off := 0x0030, w1c := 0x3FF },
  { off := 0x0034, rw := 0x3FF },
  { off := 0x0040, rw := 0x03FF0301 },
  { off := 0x0044, rw := 0xFFFF0001 },
  { off := 0x0048, rw := 0x80FF00FF, reset := 8 },
  { off := 0x004C, rw := 0x80000007 },
  { off := 0x0050, rw := 0x3FFF3FFF },
  { off := 0x0054, rw := 0x3FFF3FFF },
  { off := 0x0200, n := 4, rw := 0xFFFFFFFF },
  { off := 0x0210, rw := 0x8FFF001F },
  { off := 0x0214, rw := 0xC000000F },
  { off := 0x0218, rw := 0xFFFF },
  { off := 0x0220, n := 4, rw := 0xFFFFFFFF },
  { off := 0x0230, rw := 0xFFFF },
  { off := 0x0300, n := 16, rw := 0xFFFFFFFF },
  { off := 0x0340, rw := 0xFFFF },
  { off := 0x0400, n := 4, rw := 0xFFFFFFFF },
  { off := 0x0800, n := 128, rw := 0x0FFF0FFF },
  { off := 0x0A00, rw := 0xFFF },
  { off := 0x2000, n := 32, stride := 8, rw := 0x3FFFF },
  { off := 0x2004, n := 32, stride := 8, rw := 0xFFFFFFFF },
  { off := 0x2100, rw := 0x013FFFFF },
  { off := 0x30000, rw := 0xC7FFF000, reset := 0x040E4000 },
  { off := 0x30004, rw := 0x1FFF },
  { off := 0x31000, rw := 0xC0000007 },
  { off := 0x31008, rw := 0xFFFFFFFF },
  { off := 0x32000, rw := 0xC000FFFF },
  { off := 0x32004, reset := 33333333 },
  { off := 0x32008, rw := 0xFFFFFFFF } ]

/-- R341: TIMEOUT, LOCK and the interrupt pair of a vision engine. -/
def engineRows (mask : Nat) : List RegRow := [
  { off := 0x0000, reset := 0x0100 },
  { off := 0x0004, rwl := 0xFFFF, reset := 100, ranges := [(15, 0, 1, 65535)] },
  { off := 0x0008, w1s := 1 },
  { off := 0x0020, w1c := mask },
  { off := 0x0024, rw := mask } ]

/-- R431. -/
def tcRows : List RegRow := [
  { off := 0x0000, reset := 0x0100 },
  { off := 0x0008, w1s := 1 },
  { off := 0x000C, rwl := 0x1F, reset := 14, ranges := [(4, 0, 10, 20)] },
  { off := 0x0020, w1c := 0x1F },
  { off := 0x0024, rw := 0x1F },
  { off := 0x0028, w1c := 0xF },
  { off := 0x0040, rwl := 0xFFFF00FF, reset := 0x003C0008, ranges := [(31, 16, 1, 65535), (7, 0, 2, 255)] } ]

/-- R518. -/
def cdcRows : List RegRow := [
  { off := 0x0000, reset := 0x0100 },
  { off := 0x0004, rwl := 0xFFFF, reset := 5000, ranges := [(15, 0, 1, 65535)] },
  { off := 0x0008, w1s := 1 },
  { off := 0x000C, rwl := 0xFFFF, reset := 100, ranges := [(15, 0, 1, 65535)] },
  { off := 0x0020, w1c := 0x3F },
  { off := 0x0024, rw := 0x3F },
  { off := 0x0048, n := 4, rw := 0xFFFFFFFF } ]

/-- R545; CHK_LSET is written by its own rule. -/
def chkRows : List RegRow := [
  { off := 0x0000, reset := 0x0100 },
  { off := 0x0008, w1s := 1 },
  { off := 0x0010, w1c := 0xFF },
  { off := 0x0014, rw := 0xFF },
  { off := 0x0028, rw := 0xFFFFFFFF },
  { off := 0x002C, rw := 0xFFFFFFFF },
  { off := 0x0080, n := 4, rwl := 0xFFFFFFFF } ]

/-- R565; FWL_UNITW and the region entries are written by their own rules. -/
def fwlRows : List RegRow := [
  { off := 0x0000, reset := 0x0100 },
  { off := 0x0008, w1s := 1 },
  { off := 0x0010, w1c := 0xF },
  { off := 0x0014, rw := 0xF },
  { off := 0x0098, reset := 0xB00 },
  { off := 0x00A0, rwl := 0xF } ]

/-- R586. Bits 0, 1, 7 and 8 of PWR_WAKE_EN read 1 and ignore writes. -/
def pwrRows : List RegRow := [
  { off := 0x0000, reset := 0x0100 },
  { off := 0x0008, w1s := 1 },
  { off := 0x0010, w1c := 0x1F },
  { off := 0x0014, rw := 0x1F },
  { off := 0x0030, rw := 0x7C, reset := 0x183 },
  { off := 0x0034, w1c := 0x1FF },
  { off := 0x0038, rw := 0xFFFFFFFF },
  { off := 0x003C, rw := 0xFFFFFFFF, reset := 0xFFFFFFFF },
  { off := 0x0040, rwl := 0xFFFF, reset := 1000 },
  { off := 0x0044, rw := 0xFFFFFF },
  { off := 0x004C, reset := 2000000000 },
  { off := 0x0060, rw := 0xFF0F07FF, reset := 0x18040102,
    ranges := [(31, 24, 1, 255), (19, 16, 0, 8), (7, 0, 1, 144)] },
  { off := 0x0064, rw := 0x01FF00FF, reset := 0x00280008, ranges := [(24, 16, 1, 400)] },
  { off := 0x0068, rw := 0xFFFF } ]
  ++ (List.range 16).flatMap (fun n => [
    ({ off := 0x0100 + 32 * n, n := 4, rw := 0xFFFFFFFF, reset := 0xFFFFFFFF } : RegRow),
    { off := 0x0110 + 32 * n, rw := 0xFFFF, reset := 0xFFFF } ])

/-- R614. -/
def mgcRows : List RegRow := [
  { off := 0x0000, reset := 0x0100 },
  { off := 0x0008, w1s := 1 },
  { off := 0x0010, w1c := 0xFF },
  { off := 0x0014, rw := 0xFF },
  { off := 0x002C, rwl := 0xFF, reset := 95, ranges := [(7, 0, 60, 95)] },
  { off := 0x1010, n := 16, rw := 0xFFFFFFFF },
  { off := 0x2010, n := 16, rw := 0xFFFFFFFF } ]

/-- R634; the thresholds, FLD_OUT_CMD and FLD_SEG_CFG have rules of their own beside these fields. -/
def fldRows : List RegRow := [
  { off := 0x0000, reset := 0x0100 },
  { off := 0x0008, w1s := 1 },
  { off := 0x0010, w1c := 0x1FF },
  { off := 0x0014, rw := 0x1FF },
  { off := 0x0018, rw := 0xFFFF0003, reset := 0x07D00000, ranges := [(31, 16, 500, 10000)] },
  { off := 0x0020, n := 8, rwl := 0xE00000FF, reset := 5, ranges := [(7, 0, 1, 255)] },
  { off := 0x0040, rwl := 0xFFFFFFFF, reset := 0x02BC00C8 },
  { off := 0x0044, rwl := 0x03FFFFFF, reset := 0x001407D0, ranges := [(25, 16, 5, 300)] },
  { off := 0x00A0, n := 4, rwl := 0xC0003FFF, reset := 1000, ranges := [(13, 0, 100, 10000)] },
  { off := 0x00B0, rw := 0xF },
  { off := 0x0200, n := 2, stride := 0x200, rw := 0xE0FFFFFF, reset := 0x00000820,
    ranges := [(23, 16, 0, 254), (15, 8, 2, 32), (7, 0, 1, 255)] },
  { off := 0x0204, n := 2, stride := 0x200, rw := 0xFFFF, reset := 0x80 },
  { off := 0x0208, n := 2, stride := 0x200, rw := 0xFFFFFFFF },
  { off := 0x020C, n := 2, stride := 0x200, rw := 0xFFFF },
  { off := 0x0280, n := 8, stride := 8, rw := 0xFFFFFFFF },
  { off := 0x0284, n := 8, stride := 8, rw := 0x8000FFFF },
  { off := 0x0300, n := 32, stride := 8, rwl := 0xFFFFFFFF },
  { off := 0x0304, n := 32, stride := 8, rwl := 0xC0FFFFFF },
  { off := 0x0480, n := 8, stride := 8, rw := 0xFFFFFFFF },
  { off := 0x0484, n := 8, stride := 8, rw := 0x8000FFFF },
  { off := 0x0500, n := 32, stride := 8, rwl := 0xFFFFFFFF },
  { off := 0x0504, n := 32, stride := 8, rwl := 0xC0FFFFFF } ]

/-- The blocks of R15, in its order. -/
def blocks : List Block := [
  { base := idBase, size := 0x10_0000, stride := 0x10_0000, world := .both, dom := .aon, rows := [] },
  { base := hifBase, size := 0x10_0000, stride := 0x10_0000, world := .blk 0, dom := .compute, lock := 8,
    rows := hifRows },
  { base := seqBase 0, size := 0x14_0000, stride := 0x1_0000, world := .unit 176, dom := .compute, rows := seqRows },
  { base := qmBase, size := 0x40_0000, stride := 0x40_0000, world := .queue, dom := .compute, rows := qmRows },
  { base := htsBase, size := 0x40_0000, stride := 0x40_0000, world := .blk 1, dom := .compute, rows := htsRows },
  { base := dmaBase 0, size := 0x80_0000, stride := 0x10_0000, world := .dma, dom := .compute, lock := 8,
    rows := dmaRows },
  { base := ispBase 0, size := 0x40_0000, stride := 0x4_0000, world := .unit 160, dom := .compute, rows := ispRows },
  { base := strBase 0, size := 0x10_0000, stride := 0x4_0000, world := .unit 132, dom := .compute, lock := 8,
    rows := engineRows 0xF },
  { base := flwBase 0, size := 0x10_0000, stride := 0x4_0000, world := .unit 136, dom := .compute, lock := 8,
    rows := engineRows 0xF },
  { base := ftrBase 0, size := 0x10_0000, stride := 0x4_0000, world := .unit 140, dom := .compute, lock := 8,
    rows := engineRows 0x1F },
  { base := wrpBase 0, size := 0x10_0000, stride := 0x2_0000, world := .unit 144, dom := .compute, lock := 8,
    rows := engineRows 0x1F },
  { base := pyrBase 0, size := 0x10_0000, stride := 0x2_0000, world := .unit 152, dom := .compute, lock := 8,
    rows := engineRows 0xF },
  { base := tcBase 0, size := 0x100_0000, stride := 0x4_0000, world := .unit 0, dom := .compute, lock := 8,
    rows := tcRows },
  { base := gthBase 0, size := 0x40_0000, stride := 0x10_0000, world := .unit 128, dom := .compute, lock := 8,
    rows := engineRows 0xF },
  { base := cdcBase, size := 0x10_0000, stride := 0x10_0000, world := .unit 196, dom := .compute, lock := 8,
    rows := cdcRows },
  { base := chkBase, size := 0x40_0000, stride := 0x40_0000, world := .secure, dom := .compute, lock := 8,
    rows := chkRows },
  { base := fwlBase, size := 0x10_0000, stride := 0x10_0000, world := .secure, dom := .compute, lock := 8,
    rows := fwlRows },
  { base := pwrBase, size := 0x10_0000, stride := 0x10_0000, world := .blk 2, dom := .aon, lock := 8,
    rows := pwrRows },
  { base := mgcBase, size := 0x10_0000, stride := 0x10_0000, world := .mgc, dom := .aon, lock := 8,
    rows := mgcRows },
  { base := fldBase, size := 0x10_0000, stride := 0x10_0000, world := .blk 3, dom := .fld, lock := 8,
    rows := fldRows } ]

/-- The block that holds a control-window offset (R16). -/
def blockOf (a : Nat) : Option Block := blocks.find? fun b => decide (b.base ≤ a ∧ a < b.base + b.size)

/-- The instance number of an offset in its block. -/
def instOf (b : Block) (a : Nat) : Nat := (a - b.base) / b.stride

/-- The offset inside the instance. -/
def localOf (b : Block) (a : Nat) : Nat := (a - b.base) % b.stride

/-- Whether a row covers a local offset. -/
def RegRow.covers (r : RegRow) (o : Nat) : Bool :=
  decide (r.off ≤ o) && (o - r.off) % r.stride == 0 && decide ((o - r.off) / r.stride < r.n)

/-- The row of a control-window offset. -/
def rowOf (a : Nat) : Option RegRow := (blockOf a).bind fun b => b.rows.find? fun r => r.covers (localOf b a)

/-- The reset value of a register of the function page (R641): an MSI-X table entry is masked (R637). -/
def fnPageReset (o : Nat) : Nat := if o < 0x8000 ∧ o % 16 = 12 then 1 else 0

/-- One draw of the procedure of R361: the next state and the number. -/
def patDraw (x : Nat) : Nat × Int :=
  let y := (x * 1103515245 + 12345) % 2 ^ 32
  (y, ((y / 65536 % 27 : Nat) : Int) - 13)

/-- R361: the pattern that the procedure yields, from its state, with at most `fuel` rounds: each pair as `(ax, ay, bx,
by)`. -/
def patGen : Nat → Nat → Nat → List (Int × Int × Int × Int)
  | 0, _, _ => []
  | _, 0, _ => []
  | fuel + 1, left + 1, x =>
    let a := patDraw x
    let b := patDraw a.1
    let c := patDraw b.1
    let d := patDraw c.1
    if a.2 * a.2 + b.2 * b.2 > 169 ∨ c.2 * c.2 + d.2 * d.2 > 169 ∨ (a.2 = c.2 ∧ b.2 = d.2) then
      patGen fuel (left + 1) d.1
    else (a.2, b.2, c.2, d.2) :: patGen fuel left d.1

/-- R361, R372: the reset value of FTR_PAT[i]. -/
def patReset (i : Nat) : Reg :=
  match (patGen 2048 (i + 1) 0x4B372C91)[i]? with
  | some (ax, ay, bx, by_) =>
    reg (wrap 8 bx * 2 ^ 24 + wrap 8 by_ * 2 ^ 16 + wrap 8 ax * 2 ^ 8 + wrap 8 ay)
  | none => 0

/-- The reset value of a register (R6: every register is 32 bits). -/
def regReset (a : Nat) : Reg :=
  if ftrBase 0 ≤ a ∧ a < ftrBase 4 ∧ 0x1000 ≤ a % 0x4_0000 ∧ a % 0x4_0000 < 0x1400 then
    patReset ((a % 0x4_0000 - 0x1000) / 4)
  else if a < 0x1000_0000 then reg (((rowOf a).map RegRow.reset).getD 0) else reg (fnPageReset (a % 0x1000_0000))

/-- The bits of the fields whose value in `v` lies outside their range: a write leaves each of them as it was (log entry 124). -/
def RegRow.outOfRange (r : RegRow) (v : Nat) : Reg :=
  (r.ranges.filter fun (hi, lo, mn, mx) => !decide (mn ≤ bits hi lo v ∧ bits hi lo v ≤ mx)).foldl
    (fun m f => m ||| reg (2 ^ (f.1 + 1) - 2 ^ f.2.1)) 0

/-- R7: the value a register takes when `v` is written to it, with the block locked or not. -/
def RegRow.write (r : RegRow) (locked : Bool) (old v : Reg) : Reg :=
  let m := reg (if locked then r.rw else r.rw ||| r.rwl) &&& ~~~(r.outOfRange v.toNat)
  (old &&& ~~~m &&& ~~~(v &&& reg r.w1c)) ||| (v &&& m) ||| (v &&& reg r.w1s)

/-! ### Interrupt sources (R642) -/

/-- A line's INT_STATUS and INT_EN addresses, for the lines whose condition is STATUS AND EN. -/
def irqSource (l : Nat) : Option (Nat × Nat) :=
  let pair (a : Nat) (d : Nat := 4) := some (a, a + d)
  if l < 20 then pair (seqBase l + 0x14)
  else if l = 20 then pair (qmBase + 0x20)
  else if l = 21 then pair (htsBase + 0x10)
  else if l < 30 then none
  else if l < 46 then pair (ispBase (l - 30) + 0x30)
  else if l < 50 then pair (strBase (l - 46) + 0x20)
  else if l < 54 then pair (flwBase (l - 50) + 0x20)
  else if l < 58 then pair (ftrBase (l - 54) + 0x20)
  else if l < 66 then pair (wrpBase (l - 58) + 0x20)
  else if l < 74 then pair (pyrBase (l - 66) + 0x20)
  else if l < 138 then pair (tcBase (l - 74) + 0x20)
  else if l < 142 then pair (gthBase (l - 138) + 0x20)
  else if l = 142 then pair (cdcBase + 0x20)
  else if l = 143 then pair (chkBase + 0x10)
  else if l = 144 then pair (fwlBase + 0x10)
  else if l = 145 then pair (pwrBase + 0x10)
  else if l = 146 then pair (mgcBase + 0x10)
  else if l = 147 then pair (fldBase + 0x10)
  else if l = 148 then pair (hifBase + 0x10)
  else none

/-- The line that an INT_STATUS, INT_EN, DMA_CH_INT or DMA_INT_EN register belongs to (R642). -/
def irqLineOf (a : Nat) : Option Nat :=
  (blockOf a).bind fun b =>
    let i := instOf b a
    let o := localOf b a
    let hit (l : Nat) (s : Nat) := if o = s ∨ o = s + 4 then some l else none
    if b.base = seqBase 0 then hit i 0x14
    else if b.base = qmBase then hit 20 0x20
    else if b.base = htsBase then hit 21 0x10
    else if b.base = dmaBase 0 then
      if o = 0x14 ∨ (0x1000 ≤ o ∧ (o % 0x100 = 0x24 ∨ o % 0x100 = 0x28)) then some (22 + i) else none
    else if b.base = ispBase 0 then hit (30 + i) 0x30
    else if b.base = strBase 0 then hit (46 + i) 0x20
    else if b.base = flwBase 0 then hit (50 + i) 0x20
    else if b.base = ftrBase 0 then hit (54 + i) 0x20
    else if b.base = wrpBase 0 then hit (58 + i) 0x20
    else if b.base = pyrBase 0 then hit (66 + i) 0x20
    else if b.base = tcBase 0 then hit (74 + i) 0x20
    else if b.base = gthBase 0 then hit (138 + i) 0x20
    else if b.base = cdcBase then hit 142 0x20
    else if b.base = chkBase then hit 143 0x10
    else if b.base = fwlBase then hit 144 0x10
    else if b.base = pwrBase then hit 145 0x10
    else if b.base = mgcBase then if o = 0x18 then some 146 else hit 146 0x10
    else if b.base = fldBase then hit 147 0x10
    else if b.base = hifBase then hit 148 0x10
    else none

/-- The unit of R548 that sources a line, for the worlds rule of R642: none where the block is always secure or
follows FWL_BLKW. -/
def irqWorld (l : Nat) : WorldRule :=
  if l < 20 then .unit (176 + l)
  else if l = 20 then .both
  else if l = 21 then .blk 1
  else if l < 30 then .unit (64 + 8 * (l - 22))
  else if l < 46 then .unit (160 + (l - 30))
  else if l < 50 then .unit (132 + (l - 46))
  else if l < 54 then .unit (136 + (l - 50))
  else if l < 58 then .unit (140 + (l - 54))
  else if l < 66 then .unit (144 + (l - 58))
  else if l < 74 then .unit (152 + (l - 66))
  else if l < 138 then .unit (l - 74)
  else if l < 142 then .unit (128 + (l - 138))
  else if l = 142 then .unit 196
  else if l = 143 ∨ l = 144 then .secure
  else if l = 145 then .blk 2
  else if l = 146 then .both
  else if l = 147 then .blk 3
  else .blk 0

end Sys2Proof.Machine
end

