-- ==== Sys2Proof/Machine/State.lean ====
section
/-!
DEFINITION. The state of the block: everything the specification gives the module, as plain data, and its state right
after a power-on reset. Registers of the control window are held in one table by address (`regs`); structures that are
more than a register stand beside it.
-/
namespace Sys2Proof.Machine

/-! ## Queues (spec/07_queues.md) -/

/-- R70, R222: the loss mode of a queue. -/
inductive QMode where
  | lossless | lossy | multicast
  deriving DecidableEq, Repr

/-- One queue word: 64 data bits with the GEN and WORLD fields of its side field (R187). END, LEAP and HOL are
properties of the packet that holds the word. -/
structure QWord where
  data  : Word := 0
  gen   : Nat := 0
  world : Bool := false
  deriving DecidableEq, Repr

/-- A complete packet (R188): its words, whether it is a leap marker (R201), the sequence number it took (R200) and,
cell by cell, whether the cell is one of the queue's ping-pong cells (R217). -/
structure Packet where
  num   : Nat := 0
  words : List QWord := []
  leap  : Bool := false
  seqNo : Option Nat := none
  cells : List Bool := []
  /-- a word of the packet has an uncorrectable error (R194) -/
  bad   : Bool := false
  /-- words of the packet with a single-bit error not yet corrected -/
  soft  : Nat := 0
  deriving DecidableEq, Repr

/-- The open packet at a queue's tail (R189). `reject` marks a packet of which every later word is discarded up to
END (R192, R197, R200, R205, R212, R214). -/
structure OpenPacket where
  producer : Nat := 0
  words    : List QWord := []
  seqNo    : Option Nat := none
  cells    : List Bool := []
  deriving DecidableEq, Repr

/-- A producer that waits for a cell or for the open packet of another producer to end (R189, R199). -/
structure QWaiter where
  producer : Nat := 0
  since    : Nat := 0
  word     : QWord := {}
  last     : Bool := false
  /-- the words of the packet after `word`, where a unit waits at a cell boundary of its packet -/
  rest     : List QWord := []
  deriving DecidableEq, Repr

/-- A marker the queue has built for one receiver alone: LKIND, FIRST and COUNT (R201, R208, R214). -/
structure OwnMarker where
  lkind : Nat := 0
  first : Nat := 0
  count : Nat := 0
  deriving DecidableEq, Repr

/-- One receiver of a queue: its read position, its notice target (R191) and its counters (R207, R222). After a flush it passes
from the packet it had begun to the first one kept, `skipTo` (R205). -/
structure Receiver where
  next   : Nat := 0
  off    : Nat := 0
  skipTo : Nat := 0
  kind   : Nat := 0
  target : Nat := 0
  /-- markers built for it alone and not yet delivered, in order -/
  markers : List OwnMarker := []
  deq    : Reg := 0
  deriving DecidableEq, Repr

/-- The per-queue health counters of R222. -/
structure QCounters where
  enq : Reg := 0
  drop : Reg := 0
  leap : Reg := 0
  flush : Reg := 0
  squash : Reg := 0
  detach : Reg := 0
  oversize : Reg := 0
  waitclk : Reg := 0
  deriving DecidableEq, Repr

/-- The configuration of a queue (R70, R196, R197, R222), written by the loader and by firmware only. -/
structure QConfig where
  valid    : Bool := false
  world    : Bool := false
  out      : Bool := false
  lockstep : Bool := false
  mode     : QMode := .lossless
  sys      : Bool := false
  depth    : Nat := 0
  reserve  : Nat := 0
  maxpkt   : Nat := 0
  lag      : Nat := 0
  ownerSeq : Nat := 0xFF
  ownerBE  : Bool := false
  ownerPrio : Nat := 0
  deriving DecidableEq, Repr

/-- One of the 4,096 queues. -/
structure Queue where
  cfg       : QConfig := {}
  recvs     : List Receiver := []
  packets   : List Packet := []
  nextNum   : Nat := 0
  openPkt   : Option OpenPacket := none
  /-- producers whose current packet is being discarded up to its END -/
  discard   : List Nat := []
  /-- the one producer of a lossy queue, once it has enqueued (R189) -/
  producer  : Option Nat := none
  seq       : Nat := 0
  /-- FIRST and COUNT of a pending DROP marker (R202) -/
  dropPend  : Option (Nat × Nat) := none
  waits     : List QWaiter := []
  /-- the two copies of a pointer differ, which the next use finds (R214) -/
  ptrBad    : Bool := false
  flushing  : Bool := false
  /-- the producer of the packet that was open when the flush began, until its END -/
  flushTail : Option Nat := none
  resetting : Bool := false
  /-- cells whose OWNER names the queue and which no packet holds since its reset (R214, R219) -/
  orphans   : Nat := 0
  /-- physical condition: cells of other owners whose OWNER tag names the queue (R219) -/
  tagOff    : Nat := 0
  hwm       : Nat := 0
  cnt       : QCounters := {}
  deriving DecidableEq, Repr

/-- R216: the state of the cell pool. -/
inductive PoolState where
  | test | build | run | rebuild
  deriving DecidableEq, Repr

/-- The cell pool (R186, R215 to R219). Which cell a packet lies in has no effect, so that the links, reference counts and OWNER
tags of R215 stand as counts: each queue's held cells and orphans, and what is free, on hold or lost. -/
structure Pool where
  st        : PoolState := .test
  cause     : Nat := 0
  retired   : Nat := 0
  /-- cells of graph queues and of system queues that were held or orphaned when REBUILD began: those released since are
  tagged HOLD (R217) -/
  held0     : Nat := 0
  held0Fw   : Nat := 0
  /-- module time of the wait detector's last action (R212) -/
  lastBreak : Option Nat := none
  /-- units whose packet, which had waited at a cell boundary, has been taken since (R199) -/
  taken     : List Nat := []
  /-- module times of the pointer mismatches of the last 3,600 s (R597 QRESETS) -/
  ptrTimes  : List Nat := []
  /-- physical conditions: queues whose ping-pong cells fail their test; a pointer memory fails it; cells of the admitted and
  of the firmware range that fail the march test (R218) -/
  badQueues : List Nat := []
  ptrMemBad : Bool := false
  weak      : Nat := 0
  weakFw    : Nat := 0
  /-- physical conditions: admitted cells that the free lists have lost (R215); the next free-list link read has an
  uncorrectable error; the OWNER of the next cell allocated is not FREE (R216) -/
  lost      : Nat := 0
  linkBad   : Bool := false
  ownerBad  : Bool := false
  deriving DecidableEq, Repr

/-! ## Eve generations (spec/06_eve_rule.md) -/

/-- R159: the state of an entry of the generation table. -/
inductive GenState where
  | free | live | dated | squashed
  deriving DecidableEq, Repr

/-- An entry of the generation table (R159 to R163, R177): its state, its place in the order of allocation, its
dependency set, the slot it was allocated for, and what squashed it. -/
structure Gen where
  st     : GenState := .free
  order  : Nat := 0
  deps   : List Nat := []
  seq    : Nat := 0
  ctx    : Nat := 0
  slot   : Nat := 0
  reason : Nat := 0
  detail : Nat := 0
  unit   : Nat := 0xFFFF
  deriving DecidableEq, Repr

/-- A flag update held because its generation is later than the word's owner (R165). -/
structure HeldUpdate where
  word   : Nat
  slot   : Nat
  frame  : Nat
  gen    : Nat
  add    : Bool
  value  : Reg
  deriving DecidableEq, Repr

/-- A flag word (R60) with its dated shadow (R165). `dead` marks a word whose owner was squashed and whose slot has
not been opened again. -/
structure FlagWord where
  gen    : Nat := 0
  slot   : Nat := 0
  frame  : Nat := 0
  value  : Reg := 0
  shadow : Reg := 0
  dead   : Bool := false
  deriving DecidableEq, Repr

/-! ## Worlds and firewalls (spec/19_worlds_and_firewalls.md) -/

/-- R549: one region entry; `flags` is word 2. -/
structure Region where
  first : Nat := 0
  last  : Nat := 0
  flags : Reg := 0
  word3 : Reg := 0
  deriving DecidableEq, Repr

/-- R555: one violation record. -/
structure Violation where
  init   : Nat
  reason : Nat
  acc    : Nat
  space  : Nat
  region : Nat
  addr   : Nat
  time   : Nat
  merged : Nat := 0
  deriving DecidableEq, Repr

/-- R563: the provisioning record in force. -/
structure ProvRecord where
  svn   : Nat := 0
  /-- graph-signing keys, slots 0–3, each with its revoked bit -/
  keys  : List (List Byte × Bool) := []
  unitw : List Reg := []
  blkw  : Reg := 0
  deriving DecidableEq, Repr

/-- R560, R561: the fuses a command can change, and the bits latched at a reset. -/
structure Fuses where
  ownh    : BitVec 384 := 0
  rootrev : Nat := 0
  fwsvn   : Nat := 0
  psvn    : Nat := 0
  prov    : Bool := false
  dbgdis  : Bool := false
  /-- FWL_FUSE PF1EN: PF1 enabled at this reset (R562, R565) -/
  pf1en   : Bool := false
  deriving DecidableEq, Repr

/-- The firewall's own state. -/
structure Fwl where
  dram    : List (Nat × Region) := []
  som     : List (Nat × Region) := []
  vlog    : List Violation := []
  /-- per INIT, the module time of its last violation record in the diary (R556) -/
  diaried : List (Nat × Nat) := []
  fuses   : Fuses := {}
  prov    : Option ProvRecord := none
  deriving DecidableEq, Repr

/-! ## Management (spec/21_management.md) -/

/-- R591: the management state of a unit. -/
inductive MState where
  | enabled | fenced | retired | poweredDown
  deriving DecidableEq, Repr

/-- R591, R592: a unit's management state, epoch and fence count; `held` is the epoch the unit itself holds, which
an audit compares (R596). -/
structure UnitRec where
  mstate : MState := .enabled
  epoch  : Nat := 1
  held   : Nat := 1
  fences : Nat := 0
  /-- physical conditions that an audit meets: the unit does not answer; its domain answers while powered down -/
  mute   : Bool := false
  awake  : Bool := false
  /-- its supply is off by UNIT_POWER or by a rail fault, not by a power state (R594, R589, R595) -/
  off    : Bool := false
  deriving DecidableEq, Repr

/-- R599: a diary entry before it is linked: sequence number, kind, severity, SECURE, module time and DATA. -/
structure DiaryItem where
  seq    : Nat
  kind   : Nat
  sev    : Nat
  secure : Bool
  time   : Nat
  data   : List Byte
  deriving DecidableEq, Repr

/-- An entry in managed flash: the item and its CHAIN (R600). -/
structure DiaryEntry where
  item  : DiaryItem
  chain : BitVec 96
  deriving DecidableEq, Repr

/-- The diary (R598 to R602). -/
structure Diary where
  /-- entries in managed flash, oldest first -/
  flash   : List DiaryEntry := []
  /-- entries waiting in the AON buffer, oldest first -/
  buffer  : List DiaryItem := []
  nextSeq : Nat := 0
  /-- entries not recorded and not yet named by a LOST entry -/
  lost    : Nat := 0
  /-- SEQ of the first entry after the previous seal -/
  sealFrom : Nat := 0
  /-- a seal waits for room (R613) -/
  sealWait : Bool := false
  /-- physical condition: SEQs of entries in flash whose chain or CRC no longer verifies -/
  damaged : List Nat := []
  deriving DecidableEq, Repr

/-- A mailbox command that runs in a box and is not yet complete (R605): its TAG and OP, its first argument and the module
time of its arrival. -/
structure BoxCmd where
  tag   : Nat
  op    : Nat
  arg   : Nat := 0
  since : Nat := 0
  deriving DecidableEq, Repr

/-- R609: a boot selector copy, whose validity stands for its CRC. -/
structure Selector where
  gen      : Nat := 0
  active   : Nat := 0
  trial    : Nat := 0
  tries    : Nat := 0
  fallback : Bool := false
  trialWin : Nat := 0
  valid    : Bool := true
  deriving DecidableEq, Repr

/-- R557, R610: an image slot of the boot flash: the bytes written since its last erase, by offset. -/
structure ImageSlot where
  bytes : List (Nat × Byte) := []
  /-- the slot holds the image the module was shipped with, whose bytes the model does not hold -/
  factory : Bool := false
  /-- UPDATE_BEGIN has erased the slot and the image is not yet committed -/
  open_ : Bool := false
  size  : Nat := 0
  deriving DecidableEq, Repr

/-- The firmware as it runs (R587, R609 to R612, R614 MGC_STATE). -/
structure Firmware where
  /-- 0 BOOT, 1 RUN, 2 RECOVERY -/
  fw       : Nat := 1
  slot     : Nat := 0
  trial    : Bool := false
  /-- module time at which watchdog 250 expires, while it is armed -/
  trialEnd : Option Nat := none
  /-- a service cause has been set since the trial boot (R612) -/
  svcSinceTrial : Bool := false
  version  : Nat := 0
  sel0     : Selector := {}
  sel1     : Selector := {}
  slotA    : ImageSlot := {}
  slotB    : ImageSlot := {}
  /-- physical condition: the next write or erase of boot or managed flash fails -/
  flashBad : Bool := false
  deriving DecidableEq, Repr

/-- Thermal and rail history that R589 and R590 judge by. -/
structure Health where
  /-- module time of the last 50 MHz step down -/
  lastDown  : Option Nat := none
  /-- module time at which Tmax ≤ 92 °C with the clock below F began, or of the last step up -/
  coolSince : Option Nat := none
  /-- module time since which the clock has been at F again (R155) -/
  atFSince  : Option Nat := none
  /-- module time of the last restoring step (R155) -/
  lastRestore : Option Nat := none
  /-- module time since which Tmax has been 115 °C or more at 300 MHz, and since which a thermistor has been 100 °C or more -/
  hotSince  : Option Nat := none
  boardHot  : Option Nat := none
  /-- the compute-die rails are off after a thermal trip (R590) -/
  tripped   : Bool := false
  /-- SEQ of each service cause's SERVICE entry (R607) -/
  svcSeq    : List (Nat × Nat) := []
  /-- rails whose fault has turned their domains off (R589) -/
  railsDown : List Nat := []
  /-- an unload, or a rise that leaves the clock below F, lets restoring go on without the 10 s of R155 -/
  freed     : Bool := false
  risen     : Bool := false
  deriving DecidableEq, Repr

/-! ## Power (spec/20_power_clocks_and_resets.md) -/

/-- R569, R586: the power state. -/
inductive PState where
  | run | doze | vigil | solstice | off
  deriving DecidableEq, Repr

/-- The power controller (R569 to R576, R580 to R583). -/
structure Power where
  st       : PState := .run
  /-- entry into VIGIL or SOLSTICE in progress: the target and the step of R571 -/
  entering : Option (PState × Nat) := none
  /-- exit to RUN in progress -/
  exiting  : Bool := false
  /-- contexts, at 2n + c, whose graphs were RUNNING at step 1 of R571 -/
  restart  : List Nat := []
  /-- a DOZE command waits for its conditions (R574) -/
  dozePend : Bool := false
  /-- a wake source arrived during step 6 and is held (R576) -/
  heldWake : Bool := false
  /-- OFF was entered by command, so MOD_EN must be deasserted first (R678) -/
  offByCmd : Bool := false
  /-- supply valid, as R673 judges VIN -/
  supply   : Bool := true
  /-- a brownout has ended the previous run (R583) -/
  brownout : Bool := false
  /-- reset sequence of R581 in progress: the last completed step (7: none in progress) -/
  bootStep : Nat := 7
  deriving DecidableEq, Repr

/-- The vigil detector of one pipeline (R577); its background lies in the keeping bank. -/
structure Vigil where
  ready : Bool := false
  hits  : Nat := 0
  hold  : Nat := 0
  /-- consecutive active thumbnails of each zone -/
  run   : List (Nat × Nat) := []
  deriving DecidableEq, Repr

/-- The tensor-core clock (R567): its MHz, the change in progress, and a change that waits for it. -/
structure Clock where
  cur     : Nat := 1000
  target  : Option Nat := none
  waiting : Option Nat := none
  /-- F of the class before a cooling-class change that has not moved the clock yet (R148) -/
  fromF   : Option Nat := none
  deriving DecidableEq, Repr

/-- Module time (R568, R653): nanoseconds, the fraction in units of 2⁻³² ns, the upper half latched by a read of
HIF_TIME_LO, and the ADJ that applies from the next reference cycle. -/
structure ModTime where
  ns    : Nat := 0
  frac  : Nat := 0
  latch : Reg := 0
  deriving DecidableEq, Repr

/-! ## Pins (spec/24_electrical_and_mechanical.md) -/

/-- The single-ended pins whose level the module drives or acts on, and the SMBus address that its straps gave at step 2 of
R581 (R665, R666). `true` is high. A pulse of MOD_RST_N or HOST_WAKE_N is an event of its own. -/
structure Pins where
  modEn     : Bool := true
  perstN    : Bool := true
  modPg     : Bool := true
  modWakeN  : Bool := true
  pcieWakeN : Bool := true
  nvPerstN  : Bool := false
  nvPwrEn   : Bool := false
  smbAddr   : Nat := 0x58
  deriving DecidableEq, Repr

/-! ## Field block (spec/22_field_side.md) -/

/-- A field event of R628 before it is placed on queue 3,972. -/
structure FieldEvent where
  src  : Nat
  old  : Nat
  new  : Nat
  meas : Nat
  time : Nat
  seq  : Nat
  deriving DecidableEq, Repr

/-- One 10BASE-T1S segment's own state (R616, R623). -/
structure Segment where
  /-- module times of the beacon conflicts of the last second -/
  conflicts : List Nat := []
  /-- module time until which a coordinator stays in CSMA/CD after a conflict -/
  backoff   : Nat := 0
  /-- a third conflict holds the segment in CSMA/CD until FLD_SEG_CFG is written -/
  held      : Bool := false
  deriving DecidableEq, Repr

/-- One supervised output's own state (R629, R630). -/
structure Output where
  /-- STATE of R629 -/
  st      : Nat := 0
  current : Nat := 0
  /-- module time at which the retry after a short falls due -/
  retryAt : Option Nat := none
  /-- the switch junction is above 130 °C since THERM -/
  hot     : Bool := false
  deriving DecidableEq, Repr

/-- The field block. -/
structure Field where
  segs   : List (Nat × Segment) := []
  outs   : List (Nat × Output) := []
  /-- events kept by the AON monitor while the queue manager is not running (R628) -/
  held   : List FieldEvent := []
  /-- VFLD is outside its band (R631) -/
  vfldBad : Bool := false
  deriving DecidableEq, Repr

/-! ## Host and network (spec/23_host_and_network.md) -/

/-- One PCIe function (R636, R637): its power state, Bus Master Enable and the MSI-X control bits. -/
structure PcieFn where
  dstate    : Nat := 0
  busMaster : Bool := false
  msixEn    : Bool := false
  msixMask  : Bool := false
  /-- the handshake has completed (FN_HS DONE, R656) -/
  done      : Bool := false
  /-- the ring its delivery engine served last (R645) -/
  lastRing  : Nat := 31
  deriving DecidableEq, Repr

/-- The PCIe endpoint's link (R658, R676): in reset, up at L0, in L2. -/
inductive Link where
  | reset | training | l0 | l2
  deriving DecidableEq, Repr

/-- The NVMe root port (R647 to R649). -/
structure Nvme where
  up      : Bool := false
  /-- a bring-up is in progress (R648) -/
  bring   : Bool := false
  /-- it follows a fatal status or a loss of the link (R649) -/
  fatal   : Bool := false
  deriving DecidableEq, Repr

/-- The firmware's PTP client (R654). -/
structure Ptp where
  /-- consecutive Sync intervals within ±1 µs -/
  good   : Nat := 0
  locked : Bool := false
  /-- OFS as it applies (R653) -/
  ofs    : Nat := 0
  deriving DecidableEq, Repr

/-- The host interface block. -/
structure Hif where
  pf0  : PcieFn := {}
  pf1  : PcieFn := {}
  link : Link := .l0
  nv   : Nvme := {}
  ptp  : Ptp := {}
  /-- PHY registers reached over MDIO, by MAC, port, device and register -/
  mdioAddr : List (Nat × Nat) := []
  deriving DecidableEq, Repr

/-- What leaves the module, oldest first: the model's own record of its outputs (log entry 3). -/
inductive Out where
  /-- an MSI-X message of a function on a vector (R642, R645) -/
  | msix (fn vec : Nat)
  /-- a write to host memory (R640, R644, R645) -/
  | hostWrite (fn addr : Nat) (bytes : List Byte)
  /-- a frame sent by an Ethernet MAC (R652) -/
  | ethTx (mac : Nat) (frame : List Byte)
  /-- a frame sent on a segment (R621) -/
  | segTx (seg : Nat) (frame : List Byte)
  /-- a BEACON (R616) -/
  | beacon (seg : Nat)
  /-- an MDIO transaction: OP, C45, MAC, port, device or register, data (R650, R661) -/
  | mdio (op : Nat) (c45 : Bool) (mac port dev data : Nat)
  /-- a frame-sync pulse: output, module time of its leading edge, width in µs, active high (R301) -/
  | fsync (k : Nat) (time : Nat) (width : Nat) (high : Bool)
  /-- a sensor-control transaction on a master, in I3C or I2C, with a register address of 16 or of 8 bits, and the data bytes in the
  order sent (R299, R300) -/
  | sensor (master : Nat) (i3c write : Bool) (target reg : Nat) (addr16 : Bool) (data : List Byte)
  /-- what DBG_TXD sends: the progress codes of a boot (R668) -/
  | console (codes : List Byte)
  /-- an NVMe write or read of blocks (R505, R507, R510, R648): write, first LBA, bytes -/
  | nvme (write : Bool) (lba : Nat) (bytes : List Byte)
  /-- an answer to a configuration request (R636, R677) -/
  | config (fn : Nat) (status : Nat) (value : Reg)
  /-- data returned to an inbound read (R639, R171) -/
  | readData (fn : Nat) (bytes : List Byte)
  deriving DecidableEq, Repr

/-! ## Replay (spec/17_record_and_replay.md) -/

/-- A recorded frame on its way to SEQ 16 and to the decoder (R510 to R515): its facts in the frame table and segment
header, the coded bytes of its segment up to its own end, and what its replay frame info reports. -/
structure RepFrame where
  ring   : Nat := 0
  seq    : Nat := 0
  index  : Nat := 0
  frame  : Nat := 0
  tstamp : Nat := 0
  epoch  : Nat := 0
  fstat  : Nat := 0
  main10 : Bool := false
  w      : Nat := 0
  h      : Nat := 0
  coded  : List Byte := []
  /-- the frame entry or the bitstream is damaged -/
  bad    : Bool := false
  leapSeg : Nat := 0
  recLeap : Nat := 0
  skipped : Nat := 0
  deliv  : Nat := 0
  deriving DecidableEq, Repr

/-! ## Graphs and slots (spec/03_frame_graphs.md) -/

/-- The state of a graph in a sequencer context; a context without a graph is EMPTY. -/
inductive GraphState where
  | ready | running | draining
  deriving DecidableEq, Repr

/-- A surface as placed (R68, R72): the declaration and the address of its slot-0 copy. -/
structure Surface where
  sid    : Nat := 0
  kind   : Nat := 0
  attr   : Nat := 0
  size   : Nat := 0
  width  : Nat := 0
  height : Nat := 0
  stride : Nat := 0
  fmt    : Nat := 0
  qual   : Nat := 0
  levels : Nat := 1
  addr   : Nat := 0
  deriving DecidableEq, Repr

/-- One line of a cost table (R136). -/
structure CostLine where
  stage  : Nat := 0
  type   : Nat := 0
  inst   : Nat := 0
  cores  : Nat := 1
  lflags : Nat := 0
  wcet   : List Nat := []
  rows   : Nat := 0
  dramb  : Nat := 0
  pix    : Nat := 0
  gthr   : Nat := 0
  deriving DecidableEq, Repr

/-- The facts of a graph's header (R63). -/
structure Header where
  gid      : Nat := 0
  grev     : Nat := 0
  gflags   : Nat := 0
  cclass   : Nat := 7
  prio     : Nat := 0
  eveslots : Nat := 1
  decim    : Nat := 1
  period   : Nat := 33333
  deadline : Nat := 33333
  maxrec   : Nat := 1
  nflag    : Nat := 1
  nstage   : Nat := 1
  deriving DecidableEq, Repr

/-- What the loader placed for a graph (R61, R74 step 7, R107, R185, R242, R550). -/
structure Placed where
  prog     : List Word := []
  flagBase : Nat := 0
  flagInit : List Nat := []
  params   : Nat := 0
  paramLen : Nat := 0
  surfaces : List Surface := []
  /-- graph-local QID and the queue assigned -/
  queues   : List (Nat × Nat) := []
  hostQ    : Option Nat := none
  /-- TCPROG target, entry address, bytes -/
  tcprogs  : List (Nat × Nat × Nat) := []
  weights  : List (Nat × Nat) := []
  /-- number of the `KICK` of an ORDERED served stage in the program, and its flow -/
  flows    : List (Nat × Nat) := []
  /-- entries taken in the DRAM and SOM region tables -/
  dramEnts : List Nat := []
  somEnts  : List Nat := []
  /-- receivers of system queues that the graph's programs name: queue and receiver (R686) -/
  sysRecv  : List (Nat × Nat) := []
  /-- DMA channels that its LONG blocks name (R265) -/
  longs    : List Nat := []
  deriving DecidableEq, Repr

/-- A graph loaded into a sequencer context. -/
structure Graph where
  st      : GraphState := .ready
  hdr     : Header := {}
  pl      : Placed := {}
  nrule   : Nat := 0
  /-- charges of R139 that placement fixes: SOM bytes, DRAM bytes, reserved queue cells -/
  som     : Nat := 0
  dram    : Nat := 0
  cells   : Nat := 0
  lines   : List CostLine := []
  /-- WIN instructions of the program: stage and WMAX (R140) -/
  wins    : List (Nat × Nat) := []
  /-- order of admission (R147) -/
  order   : Nat := 0
  /-- effective time of a GRAPH_START, GRAPH_STOP or GRAPH_REPLACE that is recorded and has not taken effect (R76) -/
  startAt : Option Nat := none
  stopAt  : Option Nat := none
  takeAt  : Option Nat := none
  /-- shed under thermal stress (R154) -/
  shed    : Bool := false
  deriving DecidableEq, Repr

/-- R52: the state of a frame slot. -/
inductive SlotState where
  | free | open_ | eve | dated
  deriving DecidableEq, Repr

/-- An eve word held for an outside-bound queue (R120). -/
structure HeldWord where
  queue : Nat
  word  : QWord
  last  : Bool
  deriving DecidableEq, Repr

/-- The checker's answer for one record: 0 pass, or the REASON, with the VERDICT code (R532, R534). -/
structure RecVerdict where
  reason  : Nat := 0
  verdict : Nat := 0
  deriving DecidableEq, Repr

/-- The dating of a slot (R103) from the posting of `DATE` to its commit. -/
structure Dating where
  ruleset : Nat := 0
  /-- NSRC: the count comes from a flag (then `src` is FLAG), else `src` is the count -/
  nsrc    : Bool := false
  src     : Nat := 0
  nrec    : Option Nat := none
  /-- comparison CRC of each record as read in step 3 -/
  crcs    : List Nat := []
  verdicts : List (Nat × RecVerdict) := []
  /-- the frame unit of the checker has run, with the REASON, DETAIL, UNIT and VERDICT that withhold the frame whole -/
  frame   : Option (Nat × Nat × Nat × Nat) := none
  framed  : Bool := false
  /-- the rule table as the frame unit found it (R523), and the operand of each DELTA rule, by history word (R530) -/
  table   : Option (List Byte) := none
  learn   : List (Nat × Nat) := []
  /-- LEAPS of the packet's header (R84, R527) -/
  leaps   : Reg := 0
  deriving DecidableEq, Repr

/-- One of the four frame slots of a sequencer. -/
structure Slot where
  st     : SlotState := .free
  ctx    : Nat := 0
  stream : Nat := 0
  frame  : Nat := 0
  tstamp : Nat := 0
  epoch  : Nat := 0
  fflags : Nat := 0
  gen    : Nat := 0
  /-- SQ: squashed since its last `EPOCH` (R95) -/
  sq     : Bool := false
  /-- the first window failure: REASON and DETAIL (R114) -/
  mark   : Option (Nat × Nat) := none
  /-- the frozen-frame detector flagged the frame (R535) -/
  frozen : Bool := false
  held   : List HeldWord := []
  dating : Option Dating := none
  /-- squash packet to come: REASON, DETAIL, UNIT (R106, R178) -/
  notice : Option (Nat × Nat × Nat) := none
  /-- the pipeline, partner or codec still refers to the slot's surfaces (R52) -/
  refs   : Nat := 0
  /-- module time from which DEADLINE counts: the time-stamp, or the activation of a replayed frame (R512) -/
  ref    : Nat := 0
  /-- REASON with which the frame is squashed in the clock of its `EPOCH`: DEADLINE (R105) or SHED (R154) -/
  doom   : Option Nat := none
  /-- the recorded frame a slot of SEQ 16 holds (R512) -/
  rep    : Option RepFrame := none
  /-- a partner frame has attached to the slot (R310) -/
  paired : Bool := false
  deriving DecidableEq, Repr

/-! ## Sequencers (spec/04_sequencer_instruction_set.md) -/

/-- R122: a timer: its interval, whether it re-arms, when it expires, and whether an expiry is uncleared. -/
structure Timer where
  interval : Nat := 0
  per      : Bool := false
  at_      : Nat := 0
  armed    : Bool := false
  expired  : Bool := false
  deriving DecidableEq, Repr

/-- Why a context waits (WAITON of R131), with what it needs to go on. -/
inductive Wait where
  | epoch (gd gf : Nat)
  | flag (slot flag cmp : Nat) (operand : Reg)
  | deq (gd qid recv : Nat)
  | timer (t : Nat)
  | barrier (slot kind : Nat)
  /-- a `KICK` that waits for a watchdog (R115) -/
  | watchdog (slot tgt cflag pbidx : Nat) (set : Bool) (lid : Option Nat)
  /-- an `ENQ` that waits for credit (R119) -/
  | credit (slot qid : Nat) (word : QWord) (last : Bool)
  /-- a `PSET` that waits for an earlier `KICK` (R111) -/
  | pset (slot woff : Nat) (value : Reg) (tag : Nat)
  deriving DecidableEq, Repr

/-- RSTATE of R131. -/
inductive RunState where
  | idle | run | wait | halted | faulted
  deriving DecidableEq, Repr

/-- One context of a sequencer (R91). -/
structure Ctx where
  pc     : Nat := 0
  /-- g1–g31 and their eve tags, by register number -/
  g      : List (Nat × (Reg × Nat)) := []
  hol    : Bool := false
  end_   : Bool := false
  timers : List (Nat × Timer) := []
  cs     : Option Nat := none
  latch  : Reg := 0
  /-- pending window: STAGE, WMIN, WMAX (R112) -/
  win    : Option (Nat × Nat × Nat) := none
  rst    : RunState := .idle
  wait   : Option Wait := none
  faultCode : Nat := 0
  faultPc   : Nat := 0
  haltCode  : Nat := 0
  /-- instructions of the program bank with an uncorrectable error (SEQ_PMEM, R128) -/
  pmemBad   : List Nat := []
  deriving DecidableEq, Repr

/-- A frame delivered to a utility sequencer (R248): its identity, or the lantern cycle or batch it stands for. -/
structure Activation where
  stream : Nat := 0
  frame  : Nat := 0
  tstamp : Nat := 0
  epoch  : Nat := 0
  fflags : Nat := 0
  ready  : Nat := 0
  /-- the recorded frame, on SEQ 16 -/
  rep    : Option RepFrame := none
  /-- the task entry that holds its descriptor (R223, R225) -/
  entry  : Option Nat := none
  deriving DecidableEq, Repr

/-- One of the twenty sequencers. -/
structure Seq where
  slots    : List (Nat × Slot) := []
  /-- the slot the next frame takes (R55), and the slot the next packet leaves from -/
  nextOpen : Nat := 0
  nextOut  : Nat := 0
  /-- the slot whose `EPOCH` comes next -/
  nextEve  : Nat := 0
  leaps    : Reg := 0
  decim    : Nat := 0
  frameCtr : Nat := 0
  setEpoch : Nat := 0
  /-- the context that takes new slots (SEQ_CTX NEW) -/
  newCtx   : Nat := 0
  /-- frame counter of the last packet dated, 0xFFFFFFFF for none (R603 STREAMS0) -/
  lastDated : Nat := 0xFFFFFFFF
  /-- frame counter and time-stamp of the last packet placed since the graph's GRAPH_START (R533) -/
  prev     : Option (Nat × Nat) := none
  acts     : List Activation := []
  deriving DecidableEq, Repr

/-! ## Tasks (spec/08_scheduler.md) -/

/-- Where a task stands. -/
inductive TaskState where
  /-- issued, waiting for a task entry (R226) -/
  | posted
  | ready
  /-- placed on units, not yet delivered (R236) -/
  | placed
  | running
  /-- stopped at the dating gate (R173) -/
  | gate
  /-- stopping for a preemption (R236) -/
  | stopping
  /-- completed, its release held by its flow (R243) -/
  | complete
  deriving DecidableEq, Repr

/-- A served stage's own counts (R239, R240). -/
structure Served where
  queue   : Nat := 0
  recv    : Nat := 0
  pcount  : Nat := 0
  created : Nat := 0
  done    : Nat := 0
  deriving DecidableEq, Repr

/-- What a DMA channel does next for its task: fetch the descriptor at `cur`, move its bytes, report it complete, or
take the answer to a read of its NEXT (R268). -/
inductive DmaPhase where
  | fetch | move | complete | next
  deriving DecidableEq, Repr

/-- RUN, PACE or PARK of R267, as the task has it; IDLE, GATE and HALT are seen elsewhere. -/
inductive DmaState where
  | run | pace | park
  deriving DecidableEq, Repr

/-- A DMA task's parameter block (R264) and its progress (R276). -/
structure DmaRun where
  first  : Nat := 0
  dlimit : Nat := 1
  pmode  : Nat := 0
  pstart : Bool := false
  long   : Bool := false
  pqid   : Nat := 0
  high   : Nat := 0
  low    : Nat := 0
  st     : DmaState := .run
  phase  : DmaPhase := .fetch
  /-- no burst has been started yet (PSTART of R266) -/
  fresh  : Bool := true
  cur    : Nat := 0
  desc   : List Byte := []
  line   : Nat := 0
  off    : Nat := 0
  /-- bytes of packet images moved on the memory side of a queue descriptor -/
  pos    : Nat := 0
  /-- of the image at hand: the bytes still to be written of a packet from a queue, or the bytes read so far of one for a queue -/
  buf    : List Byte := []
  dcount : Nat := 0
  /-- address of the descriptor at which DCOUNT last began (R271) -/
  dbegin : Nat := 0
  /-- FINISH waits for the read of NEXT that a doorbell asked for in PARK (R278) -/
  finish : Bool := false
  deriving DecidableEq, Repr

/-- What the engine of a stage has still to do after it has computed its results, in this order (R173, R339). -/
inductive EngOut where
  /-- bytes written to memory -/
  | write (addr : Nat) (bytes : List Byte)
  /-- bytes of its scratch read back (R325) -/
  | read (addr n : Nat)
  /-- a packet enqueued (R363) -/
  | packet (qid : Nat) (words : List Word)
  /-- a counter advanced -/
  | count (a n : Nat)
  /-- an interrupt cause raised -/
  | raise (a i : Nat)
  /-- an effect that waits until the data generation is dated (R169) -/
  | hold
  /-- what the unit does in its own state once it comes here -/
  | finish (k : Nat)
  /-- an error met here, with its code and address -/
  | fail (code addr : Nat)
  deriving DecidableEq, Repr

/-- An error a unit has met and not yet reported: its code, whether it arose in a fetch, and its address. -/
structure UnitErr where
  code  : Nat
  fetch : Bool := false
  addr  : Nat := 0
  deriving DecidableEq, Repr

/-- A task or stage: the descriptor of R225 with what the module holds beside it. -/
structure Task where
  st      : TaskState := .ready
  tkind   : Nat := 0
  prio    : Nat := 0
  tier    : Nat := 0
  cores   : Nat := 1
  src     : Nat := 0xFF
  ctx     : Nat := 0
  flow    : Option Nat := none
  fseq    : Nat := 0
  ttype   : Nat := 0
  inst    : Nat := 0
  uepoch  : Nat := 0
  threads : Nat := 0
  /-- window: STAGE, WMIN, WMAX; with its watchdog number once open -/
  win     : Option (Nat × Nat × Nat) := none
  wdog    : Option Nat := none
  entry   : Nat := 0
  pblk    : Nat := 0
  frame   : Nat := 0
  tstamp  : Nat := 0
  epoch   : Nat := 0
  stream  : Nat := 0
  slot    : Nat := 0
  gen     : Nat := 0
  cmode   : Bool := false
  cflag   : Nat := 0
  ready   : Nat := 0
  readySince : Nat := 0
  starved : Bool := false
  /-- its place among all tasks created, which names the task for good -/
  order   : Nat := 0
  /-- stage number of its window (R225), and the number of the `KICK` in its program (R242) -/
  stage   : Nat := 0
  kickPc  : Nat := 0
  first   : Option Nat := none
  /-- module time at which its present run on units began (R254) -/
  since   : Nat := 0
  /-- UNIT numbers the task occupies -/
  units   : List Nat := []
  dataGen : Nat := 0
  /-- the stage has been served by this many packets; none for a plain stage -/
  served  : Option Served := none
  /-- entry of the served stage this task belongs to -/
  parent  : Option Nat := none
  /-- the packet of a served task has been taken (R241) -/
  taken   : Bool := false
  /-- index of the task's packet within its stage (R436), and the packet, once it has left its queue (R241): its words
  and whether it is a leap marker -/
  index   : Nat := 0
  packet  : Option (List QWord × Bool) := none
  /-- a gather task's rows are written and its reply is still to be made (R485), with the words of its queue result -/
  reply   : Option (List Word) := none
  /-- its notice has been sent and its flag updated (R485) -/
  told    : Bool := false
  /-- lantern set of a chunk (R124) -/
  lid     : Option Nat := none
  /-- SAFETY or lantern work (SC of R548) -/
  sc      : Bool := false
  /-- the task resumed past the gate and runs as dated work (R175) -/
  remainder : Bool := false
  /-- preempted with a saved context (R424) -/
  saved   : Bool := false
  /-- the parameter block as read at acceptance (R107) -/
  block   : List Byte := []
  /-- the unit has done the stage's work and made its outputs visible -/
  worked  : Bool := false
  /-- what its engine has still to do, once it has computed the results -/
  outs    : Option (List EngOut) := none
  /-- module time at which it stopped at the dating gate -/
  gateAt  : Nat := 0
  err     : Option UnitErr := none
  dma     : Option DmaRun := none
  /-- the completion update may be made: the stage's own failure marks it late instead -/
  cancelled : Bool := false
  deriving DecidableEq, Repr

/-- An ordered flow (R242 to R247). -/
structure Flow where
  valid    : Bool := false
  seq      : Nat := 0xFF
  assign   : Nat := 0
  release  : Nat := 0
  /-- FSEQ values that have completed or been removed out of order -/
  done     : List Nat := []
  deriving DecidableEq, Repr

/-- The scheduler's own state beside the task table. -/
structure Sched where
  tasks   : List (Nat × Task) := []
  posted  : List Task := []
  flows   : List (Nat × Flow) := []
  order   : Nat := 0
  /-- unit epochs the scheduler holds -/
  epochs  : List (Nat × Nat) := []
  /-- unit epochs sequencer n holds, at key 256n + UNIT -/
  seqEpochs : List (Nat × Nat) := []
  /-- activations beyond a sequencer's four, with their sequencer (R248) -/
  acts    : List (Nat × Activation) := []
  deriving DecidableEq, Repr
/-! ## Image pipelines (spec/10_camera_input_and_isp.md) -/

/-- A frame of a pipeline, from its frame-start packet until its outputs are written (R284 to R289). -/
structure IspFrame where
  /-- R304: its place among the frames the source has delivered -/
  index  : Nat := 0
  /-- the pipeline accepted it: a graph on its stream was RUNNING (R77, R284) -/
  acc    : Bool := false
  frame  : Nat := 0
  tstamp : Nat := 0
  epoch  : Nat := 0
  /-- sequencer and slot whose surfaces the frame is written to -/
  slot   : Option (Nat × Nat) := none
  /-- raw codes of the lines kept -/
  lines  : List (List Nat) := []
  xlines : Nat := 0
  tcause : Nat := 0
  embedded : Nat := 0
  echo   : Option Nat := none
  expect : Nat := 0
  mismatch : Bool := false
  restart : Bool := false
  short  : Bool := false
  long   : Bool := false
  unpaired : Bool := false
  frozen : Bool := false
  thumb  : Bool := false
  /-- its outputs are ready, but the slot it holds has no primary frame yet (R310) -/
  written : Bool := false
  tend   : Nat := 0
  /-- module time of its last packet (R285) -/
  last   : Nat := 0
  sig    : List (Nat × Nat) := []
  /-- the other frame of its pair once that one is done: counter, lines, FSTAT [2:0], time-stamp (R289, R311) -/
  partner : Option (Nat × Nat × Nat × Nat) := none
  /-- the bank that is active for the frame, by offset (R298, R304) -/
  bank   : List (Nat × Reg) := []
  deriving DecidableEq, Repr

/-- Where a batch's sensor writes stand (R303, R304). -/
inductive BatchPhase where
  /-- waits for the end of the frame in progress -/
  | waiting
  /-- issued at a module time -/
  | issued (at_ : Nat)
  /-- all its writes are over, or it has none -/
  | written
  deriving DecidableEq, Repr

/-- A batch of settings (R302 to R307): its epoch, the staged bank, the sensor writes as register, bytes and data, its
ECHO, its own effect frame, and whether it ended under R307. -/
structure Batch where
  epoch  : Nat := 0
  tagged : Bool := true
  bank   : List (Nat × Reg) := []
  writes : List (Nat × Nat × Nat) := []
  echo   : Option Nat := none
  phase  : BatchPhase := .written
  effect : Option Nat := none
  failed : Bool := false
  /-- module time of its commit, and of the end of its last sensor write; whether that one came after a frame start (R304, R315) -/
  at_    : Nat := 0
  done   : Option Nat := none
  late   : Bool := false
  deriving DecidableEq, Repr

/-- One image pipeline. -/
structure Pipe where
  /-- frame starts the source has delivered -/
  starts   : Nat := 0
  cur      : Option IspFrame := none
  /-- frames that have ended and whose last output line is not yet written, oldest first -/
  ended    : List IspFrame := []
  batches  : List Batch := []
  /-- batches committed untagged whose sensor writes are not over -/
  direct   : List Batch := []
  /-- epoch of the newest batch applied (R305), effect frame of the last one, and its ECHO (R306) -/
  epoch    : Nat := 0
  effect   : Nat := 0
  echo     : Option Nat := none
  /-- a batch that ended under R307 is in effect -/
  setErr   : Bool := false
  /-- reference of S3, by line, and whether the next frame restarts it (R293) -/
  ref      : List (List Nat) := []
  restart  : Bool := true
  /-- signature of the previous complete frame and the repeat count (R313) -/
  prev     : Option (List (Nat × Nat)) := none
  repeats  : Nat := 0
  /-- configuration captured by GRAPH_LOAD (R297), and whether a captured register has since been written -/
  cap      : Option (List (Nat × Reg)) := none
  diff     : Bool := false
  /-- thumbnails taken, the buffer the next one goes to, the last one's time-stamp, and the one to judge (R314) -/
  thumbs   : Nat := 0
  buf      : Nat := 0
  lastThumb : Option Nat := none
  judge    : Option (Nat × Nat × Nat) := none
  /-- the primary's slot this partner's frame holds, with its time-stamp (R310) -/
  hold     : Option (Nat × Nat) := none
  /-- the last frame done in each slot: counter, lines, FSTAT [2:0], time-stamp (R289) -/
  fins     : List (Nat × Nat × Nat × Nat × Nat) := []
  deriving DecidableEq, Repr

/-- A direct transaction on a sensor-control master (R299, R300): when it was requested, its OP of ISP_SCM_CMD, its target,
register, bytes and data, how it ends, and what the sensor answers. -/
structure ScmOp where
  time : Nat := 0
  op   : Nat := 0
  addr : Nat := 0
  reg  : Nat := 0
  len  : Nat := 1
  data : Nat := 0
  fate : ScmEnd := .done
  ans  : Nat := 0
  deriving DecidableEq, Repr

/-- One frame-sync output (R301): the sequence of its instants, the PERIOD to take effect after the next pulse, and the
next pulse. -/
structure Fsync where
  /-- START, as it took effect last -/
  start  : Nat := 0
  anchor : Nat := 0
  period : Nat := 33333333
  next_  : Option Nat := none
  later  : Option Nat := none
  deriving DecidableEq, Repr

/-- R596: what an audit read of one unit: its number, the epoch it holds, its busy bit, whether it answered, and whether
its domain answers while it is powered down. -/
structure AuditVal where
  unit   : Nat
  epoch  : Nat
  busy   : Bool
  mute   : Bool := false
  awake  : Bool := false
  deriving DecidableEq, Repr

/-- R520: a unit of the checker that waits behind the slot submissions: the signature of a lantern set, with its cycle, or a
management request. -/
inductive ChkJob where
  | sig (set cycle : Nat)
  | audit (vals : List AuditVal)
  deriving DecidableEq, Repr

/-- R538 to R541: a lantern set's progress in the current cycle, and the time of its last PASS. -/
structure LanternSet where
  next  : Nat := 0
  done  : Nat := 0
  /-- PASS or FAIL has been set in the cycle -/
  judged : Bool := false
  lastPass : Nat := 0
  deriving DecidableEq, Repr

/-- The checker's own state (spec/18_checker_and_safety.md). -/
structure Chk where
  /-- STATE of CHK_STATE: 0 SELFTEST, 1 RUN, 2 FAILED -/
  st   : Nat := 1
  /-- the unit at hand has had its first lockstep mismatch (R522) -/
  rerun : Bool := false
  /-- R530: history words, at key 8n + h: value and frame counter -/
  hist : List (Nat × (Nat × Nat)) := []
  /-- rule tables that are VALID, by number: the image (R523, R524) -/
  rules : List (Nat × List Byte) := []
  jobs : List ChkJob := []
  /-- R520: submissions that wait, by sequencer and slot, each with the module time at which it was made -/
  subs : List ((Nat × Nat) × Nat) := []
  /-- the signature unit at hand: bytes covered and the CRC so far (R520, R540) -/
  sigPos : Nat := 0
  sigCrc : Nat := 0xFFFFFFFF
  sets : List (Nat × LanternSet) := []
  /-- a lantern cycle runs, and the module time at which it ends or the next begins (R537) -/
  cycle : Bool := false
  nextCycle : Option Nat := none
  /-- units that the management processor is to fence for a lantern FAIL (R540, R593) -/
  fences : List Nat := []
  /-- time spent in units, in ns (CHK_CNT_BUSYUS) -/
  busyNs : Nat := 0
  /-- physical conditions: comparator mismatches that the next unit meets, an uncorrectable error in history memory, and
  corrected errors in checker memories -/
  mismatch : Nat := 0
  histBad : Bool := false
  /-- the self-test at a reset does not pass (R522) -/
  selfBad : Bool := false
  soft : Nat := 0
  deriving DecidableEq, Repr


/-! ## Tensor cores (spec/14_tensor_cores.md, spec/15_tensor_instruction_set.md) -/

/-- A byte of tile memory that the running task has written: its value, the segment that holds it, 0 for a dirty byte,
and its home address (R405); `home` is none for a byte whose segment keeps the byte itself. -/
structure TileByte where
  b    : Byte
  seg  : Nat := 0
  home : Option Nat := none
  deriving DecidableEq, Repr

/-- One unit of a tensor core, fetch or execute: its copy of the registers (R434, R435), the number of its next
instruction, and its place in program order (R443): instructions passed, entries of its own it has issued and entries of
the other unit it has passed. -/
structure TcUnit where
  pc      : Nat := 0
  s       : List (Nat × Reg) := []
  a       : List (Nat × Word) := []
  td      : List (Nat × BitVec 128) := []
  passed  : Nat := 0
  issued  : Nat := 0
  other   : Nat := 0
  /-- the token for the instruction at `pc` has been popped (R407) -/
  granted : Bool := false
  /-- the instruction at `pc` waits: for a token, for a flag, for a shard or a reply, or to write dirty bytes -/
  waiting : Bool := false
  deriving DecidableEq, Repr

/-- R457: the class of an accumulator set. -/
inductive AccClass where
  | none | int | float
  deriving DecidableEq, Repr

/-- An accumulator set (R396, R399, R415): element 64i + j as an integer or as an FP32 code, the running residue, and
whether an element has saturated. Its shadow equals it between tiles (log entry 31). -/
structure Acc where
  cls : AccClass := .none
  e   : List (Nat × Int) := []
  res : Nat := 0
  sat : Bool := false
  deriving DecidableEq, Repr

/-- A shard on its way into a core (R412, R455): its bytes and the sending core's D. -/
structure Shard where
  bytes : List Byte
  gen   : Nat
  deriving DecidableEq, Repr

/-- R422, R434: what a task has on one core. -/
structure TCore where
  prog  : List (BitVec 128) := []
  /-- position in the run and its length -/
  pos   : Nat := 0
  n     : Nat := 1
  param : List Byte := []
  fetch : TcUnit := {}
  exec  : TcUnit := {}
  fq    : Nat := 0
  xq    : Nat := 0
  acc0  : Acc := {}
  acc1  : Acc := {}
  /-- tile memory the task has written, by address; other bytes are the free bytes of use `tmUse` (R404) -/
  tm    : List (Nat × TileByte) := []
  tmUse : Nat := 0
  /-- segments that still hold bytes, oldest first, and the number of the next one -/
  segs  : List Nat := []
  segNext : Nat := 1
  /-- procession step (R412), the shards waiting on the link, and whether the pass at hand has been sent -/
  step  : Nat := 0
  link  : List Shard := []
  sent  : Bool := false
  /-- the served receiver has been dequeued (R452) -/
  got   : Bool := false
  /-- data generation D (R464) -/
  d     : Nat := 0
  /-- source ranges of stores and passes that the execute unit has passed and the fetch unit has not run, oldest first,
  `true` for one whose effect leaves the core, or how many of them the fetch unit is ahead (R445, R461) -/
  srcs  : List (Bool × List (Nat × Nat)) := []
  ahead : Nat := 0
  /-- RING barriers reached, and whether the core waits at one (R462) -/
  bars  : Nat := 0
  atBar : Bool := false
  /-- the reply of the `GISS` at hand: asked for, and written, or refused (R454) -/
  asked : Bool := false
  reply : Option Bool := none
  /-- the execute unit waits because of the limit on dirty bytes (R406) -/
  dirtyWait : Bool := false
  ended : Bool := false
  deriving DecidableEq, Repr

/-- A saved context (R422, R424): its task entry, the task's place in dispatch order, and the core it was saved on. -/
structure TcSaved where
  entry : Nat
  order : Nat
  pos   : Nat
  ctx   : TCore
  deriving DecidableEq, Repr

/-- A tensor core. `tileBad`, `badWords`, `softWords`, `linkBad` and `ctxBad` are physical conditions that the step which
would meet them acts on: the next tile fails its check (1) or fails it twice (2); tile-memory words of 8 bytes with an
uncorrectable or a single-bit error; the next flit fails its CRC once (1) or twice (2); the next restore fails. -/
structure TcHw where
  core  : TCore := {}
  store : List TcSaved := []
  dram  : List TcSaved := []
  /-- R420: times of the core's retries and of its tile faults -/
  retries : List Nat := []
  faults  : List Nat := []
  /-- retries since the last RETRY entry, and its time (R603) -/
  retryNew  : Nat := 0
  retryTime : Option Nat := none
  tileBad   : Nat := 0
  badWords  : List Nat := []
  softWords : List Nat := []
  linkBad   : Nat := 0
  ctxBad    : Bool := false
  deriving DecidableEq, Repr

/-! ## Recording and replay (spec/17_record_and_replay.md) -/

/-- One picture of a segment: its frame-table entry (R502). -/
structure RecFrame where
  frame  : Nat
  tstamp : Nat
  epoch  : Nat
  fstat  : Nat
  ptype  : Nat
  offset : Nat
  size   : Nat
  deriving DecidableEq, Repr

/-- A segment in a spool slot (R502, R504). `spooled` is off for one whose pictures are dropped because the spool had no
free slot. -/
structure RecSeg where
  seq     : Nat := 0
  t0      : Nat := 0
  main10  : Bool := false
  w       : Nat := 0
  h       : Nat := 0
  graph   : Nat := 0
  short   : Bool := false
  spooled : Bool := true
  frames  : List RecFrame := []
  coded   : List Byte := []
  deriving DecidableEq, Repr

/-- An index entry (R503) of a slot of the ring. -/
structure IndexEnt where
  seq     : Nat := 0
  t0      : Nat := 0
  t1      : Nat := 0
  f0      : Nat := 0
  nframe  : Nat := 0
  leap    : Nat := 0
  bytes   : Nat := 0
  short   : Bool := false
  pinned  : Bool := false
  pinTime : Nat := 0
  written : Nat := 0
  deriving DecidableEq, Repr

/-- A ring of the record volume with the coding state of its stream (R497, R501 to R509). -/
structure Ring where
  /-- STATE of RING_STATE: 0 ABSENT, 1 ACTIVE, 2 FAULT -/
  st       : Nat := 0
  spoolN   : Nat := 2
  slotLba  : Nat := 16
  nslot    : Nat := 8
  indexLba : Nat := 0
  dataLba  : Nat := 0
  wp       : Nat := 0
  nextSeq  : Nat := 1
  /-- entries that are valid, by slot -/
  index    : List (Nat × IndexEnt) := []
  cur      : Option RecSeg := none
  /-- closed segments in the spool, oldest first -/
  spool    : List RecSeg := []
  /-- LEAP of the next entry written -/
  leap     : Nat := 0
  /-- lost writes in a row (R506) -/
  lostRow  : Nat := 0
  /-- frame counter of the last picture encoded, and whether the last encode was aborted or ended in an error -/
  last     : Option Nat := none
  broken   : Bool := false
  /-- segments to be pinned when they are written (R508) -/
  pinLater : List Nat := []
  deriving DecidableEq, Repr

/-- A pin request held until its generations are dated (R499). -/
structure PinReq where
  gens  : List Nat
  ring  : Nat
  seq   : Nat
  count : Nat
  deriving DecidableEq, Repr

/-- The record writer's command in progress (R505, R506): the ring, the segment, its slot, and whether it writes the
index; `retried` once it has been issued again. -/
structure WriteOp where
  ring    : Nat
  seg     : RecSeg
  slot    : Nat
  index   : Bool := false
  retried : Bool := false
  issued  : Nat := 0
  deriving DecidableEq, Repr

/-- The record reader's command in progress (R510). -/
structure ReadOp where
  ring    : Nat
  slot    : Nat
  seq     : Nat
  leap    : Nat
  retried : Bool := false
  issued  : Nat := 0
  deriving DecidableEq, Repr

/-- Replay (R510 to R515). -/
structure Replay where
  active  : Bool := false
  ring    : Nat := 0
  /-- slot of RM -/
  rm      : Option Nat := none
  /-- SEGSEQ of the last segment read or lost -/
  last    : Nat := 0
  read    : Option ReadOp := none
  /-- frames of the segment read and not yet delivered -/
  frames  : List RepFrame := []
  /-- the leap marker on the feed: FIRST and COUNT -/
  marker  : Option (Nat × Nat) := none
  skipped : Nat := 0
  /-- the decoder's reference picture: ring, SEGSEQ and index -/
  ref     : Option (Nat × Nat × Nat) := none
  deriving DecidableEq, Repr

/-- The codec block and the drive behind it. -/
structure Cdc where
  /-- VOL of CDC_STATE: 0 none, 1 mounted, 2 mount failed -/
  vol     : Nat := 0
  rings   : List (Nat × Ring) := []
  pins    : List PinReq := []
  write   : Option WriteOp := none
  replay  : Replay := {}
  /-- a MOUNT command waits for the bring-up (R649) -/
  mounting : Bool := false
  /-- blocks of the drive's namespace 1 that are not all 0, by LBA -/
  drive   : List (Nat × List Byte) := []
  /-- blocks of the drive whose contents are damaged -/
  bad     : List Nat := []
  deriving DecidableEq, Repr

/-! ## The whole machine -/

/-- Why a step can stop with a fault. The specification gives every command an effect in every state, so the one
constructor marks what no command of this model raises. -/
inductive Fault where
  /-- Raised by no meaning: kept so that the type is not empty. Safe. -/
  | none
  deriving DecidableEq, Repr

/-- Why a step can be refused. -/
inductive Refusal where
  /-- Raised by `exec` for a command that has no meaning yet. Safe: nothing can be proved of it. -/
  | notModelled (mnemonic : String)
  deriving DecidableEq, Repr

/-- The state of the block. -/
structure State where
  /-- commands that wait, first in first out -/
  pending : List Instr := []
  time    : ModTime := {}
  regs    : List (Nat × Reg) := []
  mem     : List Host.Cell := []
  /-- page tags (R167), by page of the module address -/
  tags    : List (Nat × Nat) := []
  /-- SOM pages placed as EVECAP, first and last (R549) -/
  somEve  : List (Nat × Nat) := []
  queues  : List (Nat × Queue) := []
  pool    : Pool := {}
  gens    : List (Nat × Gen) := []
  genOrder : Nat := 0
  flags   : List (Nat × FlagWord) := []
  held    : List HeldUpdate := []
  fwl     : Fwl := {}
  units   : List (Nat × UnitRec) := []
  diary   : Diary := {}
  firm    : Firmware := {}
  health  : Health := {}
  /-- commands that run in the mailbox boxes 0 and 1 and the SMBus box 2 (R605, R608) -/
  boxes   : List (Nat × BoxCmd) := []
  power   : Power := {}
  vigil   : List (Nat × Vigil) := []
  clock   : Clock := {}
  /-- declared cooling class (R132): 0 C45, 1 C60, 2 C75 -/
  cls     : Nat := 2
  pins    : Pins := {}
  fld     : Field := {}
  hif     : Hif := {}
  /-- graphs, at key 2n + c for context c of sequencer n; a key without entry is EMPTY -/
  graphs  : List (Nat × Graph) := []
  seqs    : List (Nat × Seq) := []
  /-- sequencer contexts, at key 2n + c -/
  ctxs    : List (Nat × Ctx) := []
  /-- what the program banks hold of programs unloaded since, by the key of their contexts (R131) -/
  banks   : List (Nat × List Word) := []
  sched   : Sched := {}
  /-- eve tags of parameter-block words that a `PSET` wrote (R111), by word address -/
  ptags   : List (Nat × Nat) := []
  /-- numeric status held for live generations (R47): generation, core, flags -/
  nstat   : List (Nat × Nat × Nat) := []
  /-- DMA channels in HALT (R267) -/
  dmaHalt : List Nat := []
  /-- DMA channels whose doorbell latch is set (R270) -/
  dmaLatch : List Nat := []
  /-- channel last served by a cluster's mover at a rank (R257), at key 256k + rank -/
  dmaLast : List (Nat × Nat) := []
  /-- 64-byte cells of memory, by address / 64, that hold an uncorrectable error -/
  memBad  : List Nat := []
  /-- reads of host memory made so far -/
  hostReads : Nat := 0
  /-- task entries that wait at their first enqueue (R244) -/
  flowWait : List Nat := []
  /-- admissions made so far, the source of `Graph.order` -/
  admits  : Nat := 0
  /-- the resident graph store in managed flash (R80): sequencer and container -/
  resident : List (Nat × List Byte) := []
  pipes   : List (Nat × Pipe) := []
  fsync   : List (Nat × Fsync) := []
  /-- in-band interrupts NACKed, by sensor-control master (R299) -/
  ibi     : List (Nat × Nat) := []
  /-- direct transactions that wait for each sensor-control master, oldest first (R300) -/
  scm     : List (Nat × List ScmOp) := []
  chk     : Chk := {}
  cdc     : Cdc := {}
  /-- tensor cores, by number -/
  tcs     : List (Nat × TcHw) := []
  /-- the table registry (R473): table number and descriptor -/
  tables  : List (Nat × List Byte) := []
  /-- PROBE pairs not yet counted in GTH_CNT_PAIRS, by partition -/
  gthPairs : List (Nat × Nat) := []
  /-- module time since which a partition has held tasks, by unit (GTH_CNT_BUSYUS) -/
  gthBusy : List (Nat × Nat) := []
  /-- rows read ahead for packets that wait (R487): unit, queue, packet and how many -/
  gthAhead : List (Nat × Nat × Nat × Nat) := []
  /-- the model's own count of uses of free values, which names each use -/
  uses    : Nat := 0
  /-- what has left the module -/
  out     : List Out := []
  deriving DecidableEq, Repr

/-! ## Reset (R581, R584) -/

/-- A system queue as firmware sets it up (R185, R617, R651). -/
def systemQueue (world out : Bool) (mode : QMode) (depth maxpkt : Nat) : Queue :=
  { cfg := { valid := true, world := world, out := out, mode := mode, sys := true, depth := depth, maxpkt := maxpkt },
    recvs := [{}] }

/-- The system queues that stand from step 6 of R581 on, in the worlds of the field block and of the host interface (R617,
R618, R621, R628, R651, R652, R654). A record-index queue is set up when its volume is mounted (R504). -/
def systemQueues (fld hif : Bool) : List (Nat × Queue) :=
  let rx := systemQueue fld false .lossy 512 24
  let strangers := systemQueue fld false .lossy 128 24
  let tx := systemQueue fld true .lossless 128 24
  let ethRx := systemQueue hif true .lossy 4096 145
  let ethTx := systemQueue hif true .lossless 1024 145
  let txStat := systemQueue hif true .lossy 64 1
  let ptp := systemQueue hif false .lossy 128 24
  [(3968, rx), (3969, rx), (3970, strangers), (3971, strangers), (3972, systemQueue fld false .lossy 64 1), (3973, tx), (3974, tx),
   (3976, ethRx), (3977, ethRx), (3978, ethTx), (3979, ethTx), (3980, txStat), (3981, txStat), (3982, ptp), (3983, ptp)]

/-- R551: the firmware entries of the DRAM table: the reserve without the staging areas, and the two staging areas. -/
def firmwareDram : List (Nat × Region) :=
  let page (a : Nat) := a / 4096
  [(0, { first := page (Config.stagingS + 0x1000_0000), last := page Config.dramBytes - 1, flags := 0xC6FE_0000 }),
   (1, { first := page Config.stagingN, last := page Config.stagingS - 1, flags := 0xC0FE_0000 }),
   (2, { first := page Config.stagingS, last := page (Config.stagingS + 0x1000_0000) - 1, flags := 0xE2FE_0000 })]

/-- R551: the firmware entry of the SOM table: the keeping bank. -/
def firmwareSom : List (Nat × Region) := [(0, { first := 0, last := 1023, flags := 0xC4FE_0000 })]

/-- R588: the sensor registers before the first sample after a power-on reset: NOSAMPLE. -/
def unsampled : List (Nat × Reg) :=
  let none_ (a n : Nat) : List (Nat × Reg) := (List.range n).map fun i => (mgcBase + a + 4 * i, 0x4000_0000)
  none_ 0x100 16 ++ none_ 0x140 11 ++ none_ 0x180 11

/-- The module right after a power-on reset, at the end of step 7 of R581 of a shipped module: no graph is loaded, the
endpoint trains its link and the root port brings up its drive (log entries 4 to 7, 49). -/
def State.reset : State :=
  { regs := (pwrBase + 0x48, 1) :: unsampled,
    queues := systemQueues false false,
    pool := { st := .run },
    fwl := { dram := firmwareDram, som := firmwareSom },
    firm := { version := Config.firmwareVersion, slotA := { factory := true } },
    pins := { nvPwrEn := true },
    hif := { link := .training, nv := { bring := true } } }

end Sys2Proof.Machine
end

