-- ==== Sys2Proof/Machine/Ops.lean ====
section
/-!
DEFINITION. The named operations every family works with: the register table, counters and interrupt lines (R7, R8,
R642); memory, its map and its firewalls (R548 to R556); the diary and the service declarations (R597 to R604); unit
worlds and epochs (R547, R591, R592); eve generations and page tags (R158 to R167).
-/
namespace Sys2Proof.Machine

/-! ### Registers -/

/-- The value of a register of the control window or of a function page. -/
def getR (s : State) (a : Nat) : Reg := kvGet regReset s.regs a

/-- A register set by the module. -/
def setR (s : State) (a : Nat) (v : Reg) : State := { s with regs := kvPut s.regs a v }

/-- The value of a register as a number. -/
def getN (s : State) (a : Nat) : Nat := (getR s a).toNat

/-- A health counter advanced by one; it wraps (R170). -/
def inc (s : State) (a : Nat) : State := setR s a (getR s a + 1)

/-- A health counter advanced by `n`. -/
def incBy (s : State) (a n : Nat) : State := setR s a (getR s a + reg n)

/-- Field `[hi:lo]` of a register. -/
def field (s : State) (a hi lo : Nat) : Nat := bits hi lo (getN s a)

/-- Bit `i` of a register. -/
def flag (s : State) (a i : Nat) : Bool := bit i (getN s a)

/-- Field `[hi:lo]` of a register replaced. -/
def setField (s : State) (a hi lo v : Nat) : State :=
  let m := reg ((2 ^ (hi + 1 - lo) - 1) * 2 ^ lo)
  setR s a ((getR s a &&& ~~~m) ||| (reg (v * 2 ^ lo) &&& m))

/-- Every register of `[lo, hi)` returned to its reset value. -/
def clearRegs (s : State) (lo hi : Nat) : State :=
  { s with regs := s.regs.filter fun p => decide (p.1 < lo ∨ hi ≤ p.1) }

/-- Module time in nanoseconds (R568). -/
def now (s : State) : Nat := s.time.ns

/-- Whether module time runs: in every state but OFF, from step 2 of a power-on reset on (R14, R568, R581). -/
def timeRuns (s : State) : Bool := s.power.st != .off && decide (2 ≤ s.power.bootStep)

/-- An output of the module recorded. -/
def emit (s : State) (o : Out) : State := { s with out := s.out ++ [o] }

/-! ### Worlds (R547, R548) -/

/-- WORLD of an initiator (R548): from FWL_UNITW, or from FWL_BLKW for the blocks it names; the checker, the
management processor and PF1 are always secure, PF0 never. -/
def unitWorld (s : State) (u : Nat) : Bool :=
  if u = 200 ∨ u = 201 ∨ u = 203 then true
  else if u = 202 then false
  else if u = 207 then flag s (fwlBase + 0xA0) 3
  else if u = 208 then flag s (fwlBase + 0xA0) 1
  else if u = 204 ∨ u = 205 ∨ u = 206 then flag s (fwlBase + 0xA0) 0
  else flag s (fwlBase + 0x80 + 4 * (u / 32)) (u % 32)

/-- World of a control-window block or instance (R15, R17); `a` is the offset addressed. -/
def worldOf (s : State) (b : Block) (a : Nat) : Bool :=
  match b.world with
  | .both => false
  | .secure => true
  | .blk i => flag s (fwlBase + 0xA0) i
  | .unit f => unitWorld s (f + instOf b a)
  | .dma =>
    let o := localOf b a
    if 0x1000 ≤ o then unitWorld s (64 + 8 * instOf b a + (o - 0x1000) / 0x100 % 8) else false
  | .queue =>
    let o := localOf b a
    if 0x10_0000 ≤ o then (kvGet (fun _ => ({} : Queue)) s.queues ((o - 0x10_0000) / 0x100)).cfg.world else false
  | .mgc => decide (0x2000 ≤ localOf b a ∧ localOf b a < 0x3000)

/-- The 10-bit initiator identifier of R548. -/
def initId (s : State) (u : Nat) (sc : Bool) : Nat := b2n (unitWorld s u) * 512 + b2n sc * 256 + u

/-! ### Interrupt lines (R642) -/

/-- R642: a DMA cluster's DMA_INT_STATUS: bit c while channel c has an enabled cause in DMA_CH_INT. -/
def dmaIntStatus (s : State) (k : Nat) : Nat :=
  sumN ((List.range 8).map fun c =>
    if (getR s (dmaBase k + 0x1024 + 0x100 * c) &&& getR s (dmaBase k + 0x1028 + 0x100 * c)) = 0 then 0 else 2 ^ c)

/-- The interrupt causes that the secure world has of its own in MGC_INT_STATUS: CMDDONE of box 1 (R614). The block keeps
them at an offset that no register has. -/
def mgcSecureInt : Nat := mgcBase + 0x18

/-- R642: whether line `l` is 1. -/
def lineUp (s : State) (l : Nat) : Bool :=
  match irqSource l with
  | some (st, en) =>
    let v := if l = 146 then getR s st ||| getR s mgcSecureInt else getR s st
    (v &&& getR s en) != 0
  | none =>
    if 22 ≤ l ∧ l < 30 then (reg (dmaIntStatus s (l - 22)) &&& getR s (dmaBase (l - 22) + 0x14)) != 0 else false

/-- One PCIe function. -/
def getFn (s : State) (f : Nat) : PcieFn := if f = 0 then s.hif.pf0 else s.hif.pf1

/-- One PCIe function replaced. -/
def setFn (s : State) (f : Nat) (p : PcieFn) : State :=
  if f = 0 then { s with hif := { s.hif with pf0 := p } } else { s with hif := { s.hif with pf1 := p } }

/-- R636: PF0 is always present, PF1 while FWL_FUSE PF1EN reads 1 and the recovery loader does not run. -/
def fnPresent (s : State) (f : Nat) : Bool := f == 0 || (s.fwl.fuses.pf1en && s.firm.fw != 2)

/-- R642: an MSI-X message on a function's vector: sent, or its pending bit set while the vector or the function is
masked; nothing while MSI-X is disabled. -/
def msix (s : State) (f vec : Nat) : State :=
  let p := getFn s f
  if ¬ p.msixEn then s
  else if p.msixMask || flag s (fnPage f + 16 * vec + 12) 0 then
    let a := fnPage f + 0x8000 + 4 * (vec / 32)
    setR s a (setBit (vec % 32) (getR s a))
  else emit s (.msix f vec)

/-- The world of the block that sources a line, as the delivery rule of R642 needs it. -/
def lineSecure (s : State) (l : Nat) : Bool :=
  match irqWorld l with
  | .secure => true
  | .blk i => flag s (fwlBase + 0xA0) i
  | .unit u => unitWorld s u
  | _ => false

/-- R642: the message of line `l`, routed by HIF_IRQMAP, or counted in HIF_CNT_IRQDROP when it is not delivered. -/
def lineMessage (s : State) (l : Nat) : State :=
  let m := getN s (hifBase + 0x800 + 4 * l)
  let f := bits 30 30 m
  if ¬ bit 31 m ∨ ¬ fnPresent s f ∨ (f = 0 ∧ lineSecure s l) then inc s (hifBase + 0x44)
  else msix s f (bits 10 0 m)

/-- R642: the message that a change of register `a` sends: when its line goes from 0 to 1, and again when a write
(`again`) leaves the line at 1. -/
def lineCheck (before after : State) (a : Nat) (again : Bool) : State :=
  match irqLineOf a with
  | none => after
  | some l => if lineUp after l ∧ (again ∨ ¬ lineUp before l) then lineMessage after l else after

/-- R8, R642: a hardware event sets bit `i` of the INT_STATUS register at `a`. -/
def raise (s : State) (a i : Nat) : State := lineCheck s (setR s a (setBit i (getR s a))) a false

/-! ### The diary (R598 to R604) -/

/-- DATA of an entry in the default layout of R603. -/
structure DData where
  unit   : Nat := 0xFFFF
  code   : Nat := 0
  stream : Nat := 0xFF
  seqn   : Nat := 0xFF
  detail : Nat := 0
  frame  : Nat := 0
  graph  : Nat := 0
  addr   : Nat := 0
  aux    : Nat := 0

/-- The 32 bytes of DATA in the default layout of R603. -/
def DData.bytes (d : DData) : List Byte :=
  leBytes 2 d.unit ++ leBytes 2 d.code ++ leBytes 1 d.stream ++ leBytes 1 d.seqn ++ leBytes 2 d.detail
    ++ leBytes 4 d.frame ++ leBytes 4 d.graph ++ leBytes 8 d.addr ++ leBytes 8 d.aux

/-- R602: a diary entry created: it takes the next SEQ and waits in the AON buffer of 1,024 entries; beyond that it is
counted as lost. -/
def diaryRaw (s : State) (kind sev : Nat) (secure : Bool) (data : List Byte) : State :=
  if s.diary.buffer.length < 1024 then
    { s with diary := { s.diary with
        buffer := s.diary.buffer ++ [⟨s.diary.nextSeq, kind, sev, secure, now s, data⟩],
        nextSeq := (s.diary.nextSeq + 1) % 2 ^ 32 } }
  else
    let s := inc s (mgcBase + 0x50)
    { s with diary := { s.diary with lost := s.diary.lost + 1 } }

/-- A diary entry in the default layout of R603. -/
def diary (s : State) (kind sev : Nat) (secure : Bool) (d : DData) : State := diaryRaw s kind sev secure d.bytes

/-! ### Service (R597) -/

/-- R597: the module declares that it needs service for cause `c`: the bit in MGC_SVC, the SERVICE interrupt and the
SERVICE entry, whose SEQ SERVICE_READ reports. -/
def service (s : State) (c : Nat) : State :=
  let s := setR s (mgcBase + 0x20) (setBit c (getR s (mgcBase + 0x20)))
  let s := raise s (mgcBase + 0x10) 1
  let s := { s with health := { s.health with svcSeq := kvPut s.health.svcSeq c s.diary.nextSeq },
                    firm := { s.firm with svcSinceTrial := true } }
  diary s 0x86 3 false { code := c }

/-! ### Units (R591, R592) -/

/-- The management record of a unit. -/
def getUnit (s : State) (u : Nat) : UnitRec := kvGet (fun _ => {}) s.units u

/-- A unit's management record replaced. -/
def setUnit (s : State) (u : Nat) (r : UnitRec) : State := { s with units := kvPut s.units u r }

/-- R591: the units that have a management state. -/
def managed (u : Nat) : Bool := decide (u ≤ 175 ∨ u = 196 ∨ u = 197)

/-- R592: the epoch after `e`; it wraps from 0xFFFF to 1. -/
def nextEpoch (e : Nat) : Nat := if e ≥ 0xFFFF then 1 else e + 1

/-- R592: a unit's epoch advanced, in its record and in the unit. -/
def bumpEpoch (s : State) (u : Nat) : State :=
  let r := getUnit s u
  let e := nextEpoch r.epoch
  setUnit s u { r with epoch := e, held := e }

/-! ### Memory (R15, R548 to R556, R639, R640) -/

/-- Where a module address lies (R552, R639, R640). -/
inductive Space where
  | dram | som | host | none
  deriving DecidableEq, Repr

/-- The memory that holds module address `a` (log entry 5). -/
def spaceOf (a : Nat) : Space :=
  if a < Config.dramBytes then .dram
  else if Config.somBase ≤ a ∧ a < Config.somBase + Config.somBytes then .som
  else if 2 ^ 63 ≤ a ∧ a < 2 ^ 64 then .host
  else .none

/-- What a byte of memory that nothing has written reads as (log entry 7). -/
def memEmpty : Byte := 0

/-- The byte at a module address. -/
def memGet (m : List Host.Cell) (a : Nat) : Byte := kvGet (fun _ => memEmpty) m a

/-- The canonical memory with the byte at `a` set: addresses rise, and a byte equal to `memEmpty` is not listed. -/
def memPut : List Host.Cell → Nat → Byte → List Host.Cell
  | [], a, b => if b = memEmpty then [] else [(a, b)]
  | (x, w) :: t, a, b =>
    if a < x then (if b = memEmpty then (x, w) :: t else (a, b) :: (x, w) :: t)
    else if a = x then (if b = memEmpty then t else (a, b) :: t)
    else (x, w) :: memPut t a b

/-- Consecutive bytes stored from `a` on. -/
def memPutAll : List Host.Cell → Nat → List Byte → List Host.Cell
  | m, _, [] => m
  | m, a, b :: t => memPutAll (memPut m a b) (a + 1) t

/-- The canonical form of memory: every address is below the later ones and no listed byte is `memEmpty`. -/
def Memory.wf : List Host.Cell → Bool
  | [] => true
  | [(_, b)] => b != memEmpty
  | (x, b) :: (y, c) :: t => b != memEmpty && decide (x < y) && Memory.wf ((y, c) :: t)

/-- `n` bytes of memory from `a`. -/
def peek (s : State) (a n : Nat) : List Byte := (List.range n).map fun i => memGet s.mem (a + i)

/-- A little-endian value of `n` bytes of memory at `a`. -/
def peekN (s : State) (a n : Nat) : Nat := leNat (peek s a n)

/-- Bytes stored in memory. -/
def poke (s : State) (a : Nat) (l : List Byte) : State := { s with mem := memPutAll s.mem a l }

/-- The pages `[first, last]` an access of `n` bytes at offset `o` of its memory touches. -/
def pagesOf (o n : Nat) : List Nat := (List.range ((o + n - 1) / 4096 + 1 - o / 4096)).map (o / 4096 + ·)

/-- R552: the lowest-numbered VALID entry that contains a page. -/
def regionOf (tbl : List (Nat × Region)) (p : Nat) : Option (Nat × Region) :=
  tbl.find? fun (_, r) => bit 31 r.flags.toNat && decide (r.first ≤ p ∧ p ≤ r.last)

/-- R552: the REASON of one condition on one page, with the entry that refuses. -/
def fwCond (tbl : List (Nat × Region)) (cond u : Nat) (world sc write : Bool) (p : Nat) : Option (Nat × Nat) :=
  let fwm := u == 201
  match regionOf tbl p with
  | none => if cond = 1 ∧ ¬ fwm then some (2, 0xFF) else none
  | some (i, r) =>
    let f := r.flags.toNat
    if cond = 2 then (if bit 26 f && !fwm then some (7, i) else none)
    else if cond = 3 then (if bit 29 f && !world then some (1, i) else none)
    else if cond = 4 then (if write && bit 28 f then some (3, i) else none)
    else if cond = 5 then (if write && bit 27 f && !sc && !fwm then some (4, i) else none)
    else none

/-- R552: the refusal of an access of `n` bytes at offset `o` of a memory with table `tbl`: the first condition of the
table that holds on any page. -/
def fwDecide (tbl : List (Nat × Region)) (u : Nat) (world sc write : Bool) (o n : Nat) : Option (Nat × Nat) :=
  (List.range 5).findSome? fun c => (pagesOf o n).findSome? fun p => fwCond tbl (c + 1) u world sc write p

/-- The bytes of a violation record, R555. -/
def Violation.bytes (v : Violation) : List Byte :=
  withCrc (leBytes 2 0x60 ++ leBytes 2 v.init ++ leBytes 1 v.reason ++ leBytes 1 v.acc ++ leBytes 1 v.space
    ++ leBytes 1 v.region ++ leBytes 8 v.addr ++ leBytes 8 v.time ++ leBytes 4 v.merged)

/-- R554, R556: a refusal reported: counted, merged into the newest record within 1,000 µs, logged, or counted as lost;
a new record raises VIOL and, when its INIT had none there in the preceding second, enters the diary. -/
def violation (s : State) (init reason acc space region addr : Nat) : State :=
  let s := inc s (fwlBase + 0x20)
  let merge := match s.fwl.vlog.getLast? with
    | some v => v.init == init && v.reason == reason && v.region == region && decide (now s ≤ v.time + 1000000)
    | none => false
  let s :=
    if merge then
      { s with fwl := { s.fwl with vlog := s.fwl.vlog.dropLast ++
          (s.fwl.vlog.getLast?.toList.map fun v => { v with merged := v.merged + 1 }) } }
    else if 64 ≤ s.fwl.vlog.length then raise (inc s (fwlBase + 0x24)) (fwlBase + 0x10) 1
    else
      let v : Violation := ⟨init, reason, acc, space, region, addr, now s, 0⟩
      let s := raise { s with fwl := { s.fwl with vlog := s.fwl.vlog ++ [v] } } (fwlBase + 0x10) 0
      let recent := s.fwl.diaried.any fun p => p.1 == init && decide (now s < p.2 + 1000000000)
      if recent then s
      else diaryRaw { s with fwl := { s.fwl with diaried := kvPut s.fwl.diaried init (now s) } } 0x60 1 true v.bytes
  s

/-- R17, R553: a non-secure write to a block or instance of the secure world, discarded and reported. PF0 is its
initiator (log entry 13). -/
def ctlRefused (s : State) (off : Nat) : State := violation s 202 5 1 2 0xFF off

/-- The answer to a memory access. -/
inductive Access where
  | ok | denied | unmapped | nohost
  deriving DecidableEq, Repr

/-- R640: whether an initiator of a world reaches the host window: its function is present, in D0 and a bus master. -/
def hostReach (s : State) (world : Bool) : Bool :=
  let f := b2n world
  fnPresent s f && (getFn s f).dstate == 0 && (getFn s f).busMaster

/-- R552 to R554, R640: the decision on an access of `n` bytes at module address `a` by unit `u`, with a refusal
reported. DMA channels (units 64–127) and the delivery engines alone reach the host window. An access that runs past the end of
its memory is unmapped there. -/
def access (s : State) (u : Nat) (sc write : Bool) (a n : Nat) : State × Access :=
  let w := unitWorld s u
  let go (tbl : List (Nat × Region)) (sp o size : Nat) : State × Access :=
    match fwDecide tbl u w sc write o (min n (size - o)) with
    | none => (s, if o + n ≤ size then .ok else .unmapped)
    | some (reason, i) => (violation s (initId s u sc) reason (b2n write) sp i o, .denied)
  match spaceOf a with
  | .dram => go s.fwl.dram 0 a Config.dramBytes
  | .som => go s.fwl.som 1 (a - Config.somBase) Config.somBytes
  | .host =>
    if 64 ≤ u ∧ u ≤ 127 ∧ hostReach s w then (s, .ok)
    else (inc (violation s (initId s u sc) 8 (b2n write) 4 0xFF (a - 2 ^ 63)) (hifBase + 0x30), .nohost)
  | .none => (s, .unmapped)

/-! ### Generations (R158 to R167) -/

/-- The generation table entry of a value 0x01–0xFE. -/
def getGen (s : State) (g : Nat) : Gen := kvGet (fun _ => {}) s.gens g

/-- A generation table entry replaced. -/
def setGen (s : State) (g : Nat) (e : Gen) : State := { s with gens := kvPut s.gens g e }

/-- R164: the value a carrier that holds `g` is read as: 0 once the generation is dated (or free again). -/
def eff (s : State) (g : Nat) : Nat :=
  if g = 0 ∨ g = 0xFF then g
  else match (getGen s g).st with
    | .live | .squashed => g
    | .dated | .free => 0

/-- R161: the later of two generations in the order of allocation; 0 is earlier than every live one. -/
def later (s : State) (x y : Nat) : Nat :=
  if x = 0 then y else if y = 0 then x
  else if (getGen s x).order ≤ (getGen s y).order then y else x

/-- R162: the merge of two carriers: the later generation, whose dependency set takes the earlier one and its set. -/
def mergeGen (s : State) (x y : Nat) : State × Nat :=
  let x := eff s x
  let y := eff s y
  if x = 0 then (s, y) else if y = 0 ∨ x = y then (s, x)
  else
    let l := later s x y
    let e := if l = x then y else x
    let le := getGen s l
    (setGen s l { le with deps := (le.deps ++ (e :: (getGen s e).deps)).eraseDups }, l)

/-- R162 over a list of carriers. -/
def mergeAll (s : State) (g : Nat) (l : List Nat) : State × Nat := l.foldl (fun p x => mergeGen p.1 p.2 x) (s, g)

/-- The page number of a module address. -/
def pageOf (a : Nat) : Nat := a / 4096

/-- The page tag of a page (R167): 0 dated, 0xFF poison. -/
def tagOf (s : State) (p : Nat) : Nat := eff s (kvGet (fun _ => 0) s.tags p)

/-- The page tag of a page set. -/
def setTag (s : State) (p g : Nat) : State :=
  { s with tags := if g = 0 then kvDel s.tags p else kvPut s.tags p g }

/-- R167: whether a page is eve-capable: in DRAM by its region's EVECAP attribute, in SOM by its placement. -/
def evecap (s : State) (p : Nat) : Bool :=
  match spaceOf (4096 * p) with
  | .dram => match regionOf s.fwl.dram p with
    | some (_, r) => bit 24 r.flags.toNat
    | none => false
  | .som => s.somEve.any fun r => decide (r.1 ≤ p ∧ p ≤ r.2)
  | _ => false

end Sys2Proof.Machine
end

