-- ==== Sys2Proof/Machine/Box.lean ====
section
/-!
DEFINITION. The words of the command boxes (R605, R614), the answers of power-state commands (R570, R576, R586), the way
out of DOZE (R18, R574) and what the host link reaches (R569, R636, R637).
-/
namespace Sys2Proof.Machine

/-- The SMBus box (R608), which no address of the control window reaches: the model keeps its words above the function
pages, laid out as a box of R614. -/
def smbBase : Nat := 0x3001_0000

/-- The words of box `b`. -/
def boxAt (b : Nat) : Nat := if b = 2 then smbBase else boxBase b

/-- Whether a command of box `b` comes from the secure world. -/
def boxSecure (b : Nat) : Bool := b == 1

/-- R605, R614: a command completes: RSP0–15, then RESULT and TAG; BUSY clears and CMDDONE is raised. -/
def boxDone (s : State) (b tag result : Nat) (rsp : List Nat) : State :=
  let s := (List.range 16).foldl (fun s k => setR s (boxAt b + 0x50 + 4 * k) (reg (nth 0 rsp k))) s
  let s := setField (setField (setField s (boxAt b + 4) 31 31 0) (boxAt b + 4) 23 8 tag) (boxAt b + 4) 7 0 result
  let s := inc { s with boxes := kvDel s.boxes b } (mgcBase + 0x4C)
  if boxSecure b then raise s mgcSecureInt 0 else raise s (mgcBase + 0x10) 0

/-- The commands of a set of OPs that run in some box complete with a result. -/
def boxFinish (s : State) (p : BoxCmd → Bool) (result : Nat) (rsp : List Nat) : State :=
  s.boxes.foldl (fun s x => if p x.2 then boxDone s x.1 x.2.tag result rsp else s) s

/-! ### Power-state commands -/

/-- R586: the command of PWR_CMD completes with a result. -/
def pwrDone (s : State) (r : Nat) : State := raise (setR s (pwrBase + 0x24) (reg r)) (pwrBase + 0x10) 0

/-- The mailbox result for a RESULT of PWR_CMD_STATUS (R606, R81). -/
def boxResultOf (r : Nat) : Nat :=
  if r = 0 then 0 else if r = 1 then 0x0B else if r = 3 then 0x21 else if r = 4 then 0x26 else if r = 5 then 0x27 else 0x22

/-- Whether an OP is DOZE, VIGIL or SOLSTICE of the mailbox. -/
def stateOp (c : BoxCmd) : Bool := c.op == 0x0201 || c.op == 0x0202 || c.op == 0x0203

/-- The state command that runs, in PWR_CMD or in a box, completes. -/
def stateDone (s : State) (r : Nat) : State :=
  let s := if flag s (pwrBase + 0x24) 31 then pwrDone s r else s
  boxFinish s stateOp (boxResultOf r) []

/-- R574: a task that becomes ready, or a graph that becomes RUNNING, cancels a DOZE command that waits. -/
def cancelDoze (s : State) : State :=
  if s.power.dozePend then stateDone { s with power := { s.power with dozePend := false } } 4 else s

/-! ### Leaving DOZE -/

/-- R575: MOD_WAKE_N is asserted while any of bits 2 to 6 or 8 of PWR_WAKESRC is set. -/
def wakePin (s : State) : State :=
  { s with pins := { s.pins with modWakeN := (getR s (pwrBase + 0x34) &&& 0x17C#32) == 0 } }

/-- STATE of PWR_STATE for a power state (R586). -/
def pstateCode : PState → Nat
  | .run => 0
  | .doze => 1
  | .vigil => 2
  | .solstice => 3
  | .off => 4

/-- R586, R603: the module is back in RUN: WOKE and the PSTATE entry. -/
def toRun (s : State) : State :=
  let s := { s with power := { s.power with st := .run, exiting := false, heldWake := false } }
  diary (raise s (pwrBase + 0x10) 1) 5 0 false { code := 0 }

/-- R18, R574: an access over PCIe, or a host doorbell, in DOZE: the module returns to RUN and then serves it. -/
def dozeWake (s : State) : State :=
  if s.power.st = .doze then
    toRun (wakePin (setR s (pwrBase + 0x34) (setBit 7 (getR s (pwrBase + 0x34)))))
  else s

/-! ### The host link (R569, R636, R637) -/

/-- Whether the compute die and the host interface are powered: in RUN and DOZE, up to step 6 of an entry, after the reset
sequence and with no thermal trip or failed core rail. -/
def dieOn (s : State) : Bool :=
  (s.power.st == .run || s.power.st == .doze) &&
    (match s.power.entering with
      | some (_, k) => decide (k < 6)
      | none => true) &&
    s.power.bootStep == 7 && !s.health.tripped && !s.health.railsDown.contains 1

/-- Whether the low-rate paths of the image pipelines are powered (R569): in VIGIL too, and in step 6 of an entry into it; not
from step 6 of an entry into SOLSTICE on (R20). -/
def pxcOn (s : State) : Bool :=
  dieOn s || ((match s.power.entering with
      | some (t, k) => if k < 6 then s.power.st == .vigil else t == .vigil
      | none => s.power.st == .vigil) &&
    s.power.bootStep == 7 && !s.health.tripped && !s.health.railsDown.contains 1)

/-- Whether requests of the host reach function `f`'s BARs. -/
def fnReach (s : State) (f : Nat) : Bool :=
  dieOn s && s.hif.link == .l0 && fnPresent s f && (getFn s f).dstate == 0

/-! ### The control window (R15 to R19) -/

/-- R589, R594: whether the units behind an offset of a block have their supply: an instance's unit; of a DMA cluster the
channel addressed, and rail 0 for its common registers; of the codec either of its two units. -/
def supplied (s : State) (b : Block) (off : Nat) : Bool :=
  let o := localOf b off
  match b.world with
  | .unit u =>
    if u = 196 then !((getUnit s 196).off && (getUnit s 197).off)
    else !(managed (u + instOf b off) && (getUnit s (u + instOf b off)).off)
  | .dma =>
    if 0x1000 ≤ o then !(getUnit s (64 + 8 * instOf b off + (o - 0x1000) / 0x100 % 8)).off
    else !s.health.railsDown.contains 0
  | _ => true

/-- R19: whether the power domain of the block at a control-window offset is on. -/
def blockOn (s : State) (off : Nat) : Bool :=
  match blockOf off with
  | none => false
  | some b => match b.dom with
    | .aon => true
    | .fld => decide (localOf b off < 0x200) || dieOn s
    | .compute => (if b.base = ispBase 0 then pxcOn s else dieOn s) && supplied s b off

/-- Whether a write of a world reaches the control window: of the non-secure world through PF0; of the secure world through
PF1 or from the secure firmware, which runs wherever the AON island is powered (R548). In the recovery loader no block with a
command outside the mailbox decodes (R636). -/
def ctlReach (s : State) (secure : Bool) : Bool :=
  s.firm.fw == 1 && (if secure then s.power.st != .off && s.power.bootStep == 7 else fnReach s 0)

/-- R17 to R19: an access of a world to the block of world `w` at offset `off`: it wakes the module from DOZE; it is counted
while the block's domain is off, and refused where the block is of the other world, a read then answering 0; otherwise it
acts. -/
def ctlAccess (secure write : Bool) (w : Bool) (off : Nat) (s : State) (f : State → State) : State :=
  let zero (s : State) : State := if write then s else emit s (.readData (b2n secure) (zeros 4))
  if ¬ ctlReach s secure then s
  else
    let s := dozeWake s
    if ¬ blockOn s off then zero (inc s (hifBase + 0x28))
    else if w ∧ ¬ secure then zero (if write then ctlRefused s off else violation s 202 5 0 2 0xFF off)
    else f s

/-- A write of a world to the control window. -/
def hostAccess (secure : Bool) (w : Bool) (off : Nat) (s : State) (f : State → State) : State := ctlAccess secure true w off s f

end Sys2Proof.Machine
end

