-- ==== Sys2Proof/Machine/QueueOps.lean ====
section
/-!
DEFINITION. What a queue does with a word, a packet and a dequeue, and what the cell pool grants
(spec/07_queues.md, R184 to R219). The commands that use these operations stand in Queues.lean and in the families.
-/
namespace Sys2Proof.Machine

/-- Queue `q`. -/
def getQ (s : State) (q : Nat) : Queue := kvGet (fun _ => {}) s.queues q

/-- Queue `q` replaced. -/
def setQ (s : State) (q : Nat) (x : Queue) : State := { s with queues := kvPut s.queues q x }

/-- R184: an identifier that names a VALID queue. -/
def qValid (s : State) (q : Nat) : Bool := decide (q < 4096) && (getQ s q).cfg.valid

/-- R184, R189: an access discarded and counted in QM_CNT_BADQID. -/
def badQid (s : State) : State := inc s (qmBase + 0x64)

/-- R205: whether a packet is one that receiver `r` has still to read, or is reading. -/
def unread (r : Receiver) (p : Packet) : Bool :=
  decide (r.next ≤ p.num) && (decide (r.skipTo ≤ p.num) || (decide (p.num = r.next) && decide (0 < r.off)))

/-- The words of a packet that receiver `r` has taken, or will never take. -/
def takenBy (r : Receiver) (p : Packet) : Nat :=
  if ¬ unread r p then p.words.length else if p.num = r.next then r.off else 0

/-- R198: the cells of a complete packet that are not yet released: a cell is released when every receiver has taken
all its words. -/
def liveCells (q : Queue) (p : Packet) : List Bool :=
  let t := (q.recvs.map fun r => takenBy r p).foldl min p.words.length
  if t = p.words.length then [] else p.cells.drop (t / 8)

/-- Every held cell of a queue, `true` for a ping-pong cell (R198, R217). -/
def heldList (q : Queue) : List Bool :=
  (q.packets.flatMap (liveCells q)) ++ (q.openPkt.toList.flatMap fun o => o.cells)

/-- R198: held cells, the open packet's included. -/
def heldCells (q : Queue) : Nat := (heldList q).length

/-- Ping-pong cells in use by a queue. -/
def heldPP (q : Queue) : Nat := ((heldList q).filter id).length

/-- Cells a queue holds from the pool's lists. -/
def heldPool (q : Queue) : Nat := heldCells q - heldPP q

/-- R217, R214: the queue allocates from its own two ping-pong cells only. -/
def ppMode (s : State) (q : Queue) : Bool := s.pool.st == .build || s.pool.st == .rebuild || q.resetting

/-- R186: the sum of RESERVE over all loaded graph queues. -/
def reservedCells (s : State) : Nat :=
  sumN (s.queues.map fun p => if p.2.cfg.valid && !p.2.cfg.sys then p.2.cfg.reserve else 0)

/-- R198: pool cells held by graph queues (`sys` false) or by system queues, and those that their resets orphaned (R214). -/
def heldBy (s : State) (sys : Bool) : Nat := sumN (s.queues.map fun p => if p.2.cfg.sys == sys then heldPool p.2 else 0)
def orphansOf (s : State) (sys : Bool) : Nat := sumN (s.queues.map fun p => if p.2.cfg.sys == sys then p.2.orphans else 0)

/-- R217: cells on the holding list. -/
def holdCells (s : State) (sys : Bool) : Nat :=
  if s.pool.st = .rebuild then (if sys then s.pool.held0Fw else s.pool.held0) - heldBy s sys - orphansOf s sys else 0

/-- R186, R218: the admitted cells there are: a failing one has been replaced, up to 64 of them. -/
def admittedCells (s : State) : Nat := 245760 - (s.pool.weak - s.pool.retired)

/-- R215, R222: free admitted cells, and free firmware cells for system queues. -/
def freeAdmitted (s : State) : Nat :=
  admittedCells s - s.pool.lost - heldBy s false - orphansOf s false - holdCells s false
def firmwareFree (s : State) : Nat :=
  8192 - s.pool.weakFw - s.pool.retired - heldBy s true - orphansOf s true - holdCells s true

/-- R186, R198: shared cells that are free: those not promised to a reserve. -/
def sharedFree (s : State) : Nat :=
  freeAdmitted s
    - sumN (s.queues.map fun p => if p.2.cfg.sys || !p.2.cfg.valid then 0 else p.2.cfg.reserve - heldPool p.2)

/-- R199, R200, R217: whether the queue could grant `k` more cells now. -/
def canGrant (s : State) (q : Queue) (k : Nat) : Bool :=
  let h := heldCells q
  if s.pool.st = .test then false
  else decide (h + k ≤ q.cfg.depth) &&
    (if ppMode s q then decide (heldPP q + k ≤ 2)
     else if q.cfg.sys then decide (k ≤ firmwareFree s)
     else decide (h + k - max h q.cfg.reserve ≤ sharedFree s))

/-- R199: whether a waiter waits for a cell, and not for another producer's packet to end (R189). -/
def waitsForCell (q : Queue) (w : QWaiter) : Bool :=
  match q.openPkt with
  | some o => o.producer == w.producer
  | none => true

/-- R199: whether a queue's next cell would be a shared one. -/
def needsShared (s : State) (q : Queue) : Bool :=
  !q.cfg.sys && !ppMode s q && decide (q.cfg.reserve ≤ heldCells q) && decide (heldCells q < q.cfg.depth)

/-- R199: the waits for a shared cell: when each began, its queue and its producer. -/
def sharedWaits (s : State) : List (Nat × Nat × Nat) :=
  s.queues.flatMap fun p => if needsShared s p.2 then
    (p.2.waits.filter (waitsForCell p.2)).map fun w => (w.since, p.1, w.producer) else []

/-- R199: whether producer `init` is granted its next cell of queue `qid`: the grant is possible, and the shared cells reach as
far as its place among the waits for one, by when they began and then by queue. -/
def grants (s : State) (qid init : Nat) : Bool :=
  let q := getQ s qid
  canGrant s q 1 && (!needsShared s q ||
    (let mine := (q.waits.find? fun w => w.producer == init).map QWaiter.since
     let before := (sharedWaits s).filter fun x => !(x.2.1 == qid && x.2.2 == init) && match mine with
       | some t => decide (x.1 < t ∨ (x.1 = t ∧ x.2.1 < qid))
       | none => decide (x.1 < now s ∨ x.2.1 < qid)
     decide (before.length < sharedFree s)))

/-- R216, R219: the pool enters REBUILD; cells released from then on go to the holding list. -/
def enterRebuild (s : State) (cause : Nat) : State :=
  if s.pool.st ≠ .run then s
  else
    let s := { s with pool := { s.pool with
      st := .rebuild, cause := cause, held0 := heldBy s false + orphansOf s false, held0Fw := heldBy s true + orphansOf s true } }
    raise (inc s (qmBase + 0x54)) (qmBase + 0x20) 2

/-- R216, R221: what an allocation from the free lists meets: an uncorrectable link or an OWNER that is not FREE begins a REBUILD,
and the cell is then taken from the ping-pong cells. -/
def checkAlloc (s : State) (qid : Nat) : State :=
  if s.pool.st ≠ .run ∨ (getQ s qid).resetting then s
  else if s.pool.linkBad then enterRebuild { s with pool := { s.pool with linkBad := false } } 1
  else if s.pool.ownerBad then enterRebuild { s with pool := { s.pool with ownerBad := false } } 2
  else s

/-- R201: the data word of a leap marker. -/
def markerWord (lkind first count : Nat) : Word :=
  BitVec.ofNat 64 (lkind * 2 ^ 56 + first % 2 ^ 16 * 2 ^ 32 + satN 0xFFFFFFFF count)

/-- R201: a leap marker as a complete one-word packet of the queue's world. -/
def markerPacket (q : Queue) (pp : Bool) (lkind first count : Nat) : Packet :=
  { num := q.nextNum, words := [{ data := markerWord lkind first count, gen := 0, world := q.cfg.world }],
    leap := true, seqNo := none, cells := [pp] }

/-- R222: QM_LAST_EVENT and the queue's leap count after a marker of a kind. -/
def markerEvent (s : State) (q lkind : Nat) : State :=
  let x := getQ s q
  let s := setQ s q { x with cnt := { x.cnt with leap := x.cnt.leap + 1 } }
  setR s (qmBase + 0x44) (reg (lkind * 2 ^ 24 + q))

/-- A leap marker placed at the tail of a queue (R192, R202, R212), visible at once under R190. -/
def placeMarker (s : State) (q lkind first count : Nat) : State :=
  let s := checkAlloc s q
  let x := getQ s q
  let m := markerPacket x (ppMode s x) lkind first count
  let x := { x with packets := x.packets ++ [m], nextNum := x.nextNum + 1 }
  markerEvent (setQ s q { x with hwm := max x.hwm (heldCells x) }) q lkind

/-- Packets that every receiver has finished are forgotten. -/
def prune (q : Queue) : Queue :=
  { q with packets := q.packets.filter fun p => q.recvs.any fun r => unread r p }

/-- Whether a receiver has begun a packet. -/
def begun (q : Queue) (p : Packet) : Bool := q.recvs.any fun r => decide (r.next = p.num ∧ 0 < r.off)

/-- R202: a drop recorded: in the DROP marker at the tail that no receiver has begun, or in the pending marker. -/
def recordDrop (q : Queue) (seqNo : Nat) : Queue :=
  let q := { q with cnt := { q.cnt with drop := q.cnt.drop + 1 } }
  match q.dropPend with
  | some (f, c) => { q with dropPend := some (f, satN 0xFFFFFFFF (c + 1)) }
  | none =>
    match q.packets.getLast? with
    | some p =>
      let w := (p.words.head?.map fun x => x.data.toNat).getD 0
      if p.leap && bits 63 56 w == 1 && !begun q p then
        let p' := { p with words := [{ data := markerWord 1 (bits 47 32 w) (bits 31 0 w + 1), gen := 0,
                                       world := q.cfg.world }] }
        { q with packets := q.packets.dropLast ++ [p'] }
      else { q with dropPend := some (seqNo % 2 ^ 16, 1) }
    | none => { q with dropPend := some (seqNo % 2 ^ 16, 1) }

/-- R207: the lag of a receiver: held cells from its next unread cell to the tail. -/
def lagOf (q : Queue) (r : Receiver) : Nat :=
  sumN (q.packets.map fun p =>
    if ¬ unread r p then 0 else if p.num = r.next then p.cells.length - r.off / 8 else p.cells.length)
    + (q.openPkt.map fun o => o.cells.length).getD 0

/-- R208: whether a receiver has a DETACH marker that it has not yet taken. -/
def detached (r : Receiver) : Bool := r.markers.any fun m => m.lkind == 2

/-- R208: a receiver detached: its unread packets are dropped and its own DETACH marker built or extended. -/
def detachOne (q : Queue) (r : Receiver) : Receiver :=
  let lost := q.packets.filter (unread r)
  let first := ((lost.findSome? fun p => p.seqNo).getD 0) % 2 ^ 16
  let grow (m : OwnMarker) : OwnMarker := if m.lkind = 2 then
    { m with first := if m.first = 0 then first else m.first, count := satN 0xFFFFFFFF (m.count + lost.length) } else m
  { r with next := q.nextNum, off := 0,
           markers := if detached r then r.markers.map grow else r.markers ++ [⟨2, first, lost.length⟩] }

/-- R208: before a cell is granted, every receiver of a multicast queue outside LOCKSTEP whose lag would exceed LAG is
detached. A marker that is only extended is no new one (R222). -/
def detachLagging (s : State) (qid : Nat) : State :=
  let q := getQ s qid
  if q.cfg.mode ≠ .multicast ∨ q.cfg.lockstep then s
  else
    let late (r : Receiver) : Bool := decide (q.cfg.lag < lagOf q r + 1)
    let n := (q.recvs.filter late).length
    if n = 0 then s
    else
      let fresh := q.recvs.filter fun r => late r && !detached r
      let recvs := q.recvs.map fun r => if late r then detachOne q r else r
      let q' := prune { q with recvs := recvs, cnt := { q.cnt with detach := q.cnt.detach + reg n } }
      fresh.foldl (fun s _ => markerEvent s qid 2) (setQ s qid q')

/-- The packet at receiver `r`'s head. -/
def headFor (q : Queue) (r : Receiver) : Option Packet := q.packets.find? (unread r)

/-- One receiver of a queue replaced. -/
def setRecv (q : Queue) (r : Nat) (x : Receiver) : Queue := { q with recvs := q.recvs.set r x }

/-- R487, R491: rows read ahead for packets that have left their queue unserved are discarded and counted. -/
def dropAhead (s : State) : State :=
  let gone (p : Nat × Nat × Nat × Nat) : Bool := !(getQ s p.2.1).packets.any fun x => x.num == p.2.2.1 && !x.leap
  let s' := { s with gthAhead := s.gthAhead.filter fun p => !gone p }
  (s.gthAhead.filter gone).foldl (fun s p => incBy s (gthBase (p.1 - 128) + 0x50) p.2.2.2) s'

/-- R194: the packet at a receiver's head found uncorrectable: removed whole, an ECC marker delivered in its place. -/
def eccReplace (s : State) (qid : Nat) (r : Nat) : State :=
  let q := getQ s qid
  let x := nth {} q.recvs r
  match headFor q x with
  | none => s
  | some p =>
    let m := { markerPacket q (nth false p.cells 0) 4 0 1 with num := p.num }
    let q := { q with packets := q.packets.map fun z => if z.num = p.num then m else z }
    let s := dropAhead (markerEvent (setQ s qid q) qid 4)
    raise (inc s (qmBase + 0x60)) (qmBase + 0x20) 3

/-- R205: a flush: packets not begun, markers and the pending drop are removed; an open packet is discarded up to its
END; a packet a receiver has begun stays readable by that receiver alone. -/
def flushQueue (q : Queue) : Queue :=
  let recvs := q.recvs.map fun r =>
    if 0 < r.off then { r with markers := [], skipTo := q.nextNum } else { r with next := q.nextNum, off := 0, markers := [] }
  prune { q with
    recvs := recvs,
    openPkt := none,
    flushTail := q.openPkt.map OpenPacket.producer,
    discard := match q.openPkt with
      | some o => o.producer :: q.discard.filter (· != o.producer)
      | none => q.discard,
    dropPend := none }

/-- R205: both boundaries of a flush have passed. -/
def flushDone (q : Queue) : Bool := q.flushTail.isNone && q.recvs.all fun r => r.off == 0

/-- R205, R222: the flush that runs on a queue completes: counted, with RESULT 0. -/
def endFlush (s : State) (qid : Nat) : State :=
  let q := getQ s qid
  if q.flushing then
    setR (setQ s qid { q with flushing := false, flushTail := none, cnt := { q.cnt with flush := q.cnt.flush + 1 } }) (qmBase + 0x34) 0
  else s

/-- R214: a queue reset: a RESET marker for every receiver, its contents discarded, ping-pong cells until a sweep, which also
reclaims the cells it held. A flush that runs completes (R221). -/
def resetQueue (s : State) (qid : Nat) : State :=
  let s := endFlush s qid
  let q := getQ s qid
  let n := q.packets.length + (if q.openPkt.isSome then 1 else 0)
  let q' := { flushQueue q with
    packets := [], resetting := true, flushTail := none, orphans := q.orphans + heldPool q,
    recvs := q.recvs.map fun r => { r with next := q.nextNum, off := 0, skipTo := 0, markers := [⟨6, 0, n⟩] } }
  let s := q.recvs.foldl (fun s _ => markerEvent s qid 6) (dropAhead (setQ s qid q'))
  let s := raise s (qmBase + 0x20) 1
  diary s 0x40 1 q.cfg.world { detail := qid }

/-- R214, R597: a pointer mismatch: counted, the queue reset, and service declared at the eighth within 3,600 s. -/
def pointerMismatch (s : State) (qid : Nat) : State :=
  let s := inc s (qmBase + 0x50)
  let s := resetQueue s qid
  let ts := s.pool.ptrTimes.filter (fun t => decide (now s ≤ t + 3600000000000)) ++ [now s]
  let s := { s with pool := { s.pool with ptrTimes := ts } }
  if 8 ≤ ts.length then service s 3 else s

/-- R214: the use of a queue whose pointer copies differ resets it. -/
def usePtr (s : State) (qid : Nat) : State :=
  let q := getQ s qid
  if q.ptrBad then pointerMismatch (setQ s qid { q with ptrBad := false }) qid else s

/-- R194: the check of the packet at a receiver's head, made before its first word is handed over. -/
def eccCheck (s : State) (qid r : Nat) : State :=
  let q := getQ s qid
  match headFor q (nth {} q.recvs r) with
  | none => s
  | some p =>
    if p.bad then eccReplace s qid r
    else if p.soft = 0 then s
    else incBy (setQ s qid { q with packets := q.packets.map fun z => if z.num = p.num then { z with soft := 0 } else z })
      (qmBase + 0x5C) p.soft

/-- What happened to an enqueued word. -/
inductive QRes where
  | taken | waits | discarded
  deriving DecidableEq, Repr

/-- The open packet of a producer dropped, its later words discarded up to END when the packet is not over. -/
def dropOpen (q : Queue) (init : Nat) (last : Bool) : Queue :=
  let mine := (q.openPkt.map OpenPacket.producer) == some init
  { q with openPkt := if mine then none else q.openPkt,
           discard := if last then q.discard else init :: q.discard.filter (· != init) }

/-- R197: a packet with an eve word refused at an outside-bound queue. -/
def eveLeak (s : State) (qid init : Nat) (last : Bool) : State :=
  let q := getQ s qid
  let s := setQ s qid (dropOpen q init last)
  let s := inc s (qmBase + 0x68)
  let s := diary s 0x42 2 q.cfg.world { detail := qid }
  raise s (qmBase + 0x20) 0

/-- R190: the word that ends a packet makes it visible: it joins the complete packets, and the counters advance. -/
def closePacket (s : State) (qid : Nat) : State :=
  let q := getQ s qid
  match q.openPkt with
  | none => s
  | some o =>
    setQ s qid { q with
      packets := q.packets ++ [{ num := q.nextNum, words := o.words, seqNo := o.seqNo, cells := o.cells }],
      nextNum := q.nextNum + 1, openPkt := none, cnt := { q.cnt with enq := q.cnt.enq + 1 } }

/-- R192, R199: a word added to the open packet of its producer, a cell granted where it opens one. A lossy queue accepted the
packet with the room for it (R200); one that a REBUILD leaves with too few ping-pong cells is dropped (R217). -/
def addWord (s : State) (qid init : Nat) (w : QWord) (last : Bool) : State × QRes :=
  let q := getQ s qid
  let o := q.openPkt.getD { producer := init }
  let fresh := o.words.length % 8 == 0
  if fresh && decide (q.cfg.maxpkt ≤ o.cells.length) then
    let s := setQ s qid { dropOpen q init last with cnt := { q.cnt with oversize := q.cnt.oversize + 1 } }
    let s := placeMarker s qid 5 ((o.seqNo.getD 0) % 2 ^ 16) 1
    (if q.cfg.mode = .lossless then raise s (qmBase + 0x20) 6 else s, .discarded)
  else
    let s := if fresh then checkAlloc (detachLagging s qid) qid else s
    let q := getQ s qid
    if fresh && q.cfg.mode != .lossy && !grants s qid init then (s, .waits)
    else if fresh && q.cfg.mode == .lossy && ppMode s q && !canGrant s q 1 then
      (setQ s qid (recordDrop (dropOpen q init last) (o.seqNo.getD 0)), .discarded)
    else
      let o := { o with words := o.words ++ [w], cells := if fresh then o.cells ++ [ppMode s q] else o.cells }
      let q := { q with openPkt := some o }
      let s := setQ s qid { q with hwm := max q.hwm (heldCells q) }
      (if last then closePacket s qid else s, .taken)

/-- R189, R200: the first word of a packet: it takes the next sequence number and, on a lossy queue, is accepted only if
the queue could grant MAXPKT cells, one more with a leap marker pending; a marker pending is then placed first. A packet that begins while a flush runs is not
kept (R205). -/
def firstWord (s : State) (qid init : Nat) (w : QWord) (last : Bool) : State × QRes :=
  let q := getQ s qid
  if q.flushing then
    (setQ s qid { q with discard := if last then q.discard else init :: q.discard }, .discarded)
  else if q.cfg.mode = .lossy then
    let n := q.seq
    let q := { q with seq := (n + 1) % 2 ^ 32, producer := some (q.producer.getD init) }
    if canGrant s q (q.cfg.maxpkt + (if q.dropPend.isSome then 1 else 0)) then
      let s := setQ s qid { q with dropPend := none }
      let s := match q.dropPend with
        | some (f, c) => placeMarker s qid 1 f c
        | none => s
      let q := getQ s qid
      addWord (setQ s qid { q with openPkt := some { producer := init, seqNo := some n } }) qid init w last
    else
      let q := recordDrop q n
      (setQ s qid { q with discard := if last then q.discard else init :: q.discard }, .discarded)
  else
    let o : OpenPacket := { producer := init, seqNo := some q.seq }
    let (s', r) := addWord (setQ s qid { q with openPkt := some o, seq := (q.seq + 1) % 2 ^ 32 }) qid init w last
    if r = .waits then
      (setQ s' qid { getQ s' qid with openPkt := none, seq := q.seq }, .waits) else (s', r)

/-- R184 to R200: a word of a packet enqueued by initiator `init` (its UNIT), `last` for the word with END. -/
def enqWord (s : State) (qid init : Nat) (w : QWord) (last : Bool) : State × QRes :=
  if ¬ qValid s qid then (badQid s, .discarded)
  else
    let q := getQ s qid
    if q.cfg.world ∧ ¬ unitWorld s init then (violation s (initId s init false) 6 2 3 0xFF qid, .discarded)
    else
    let s := usePtr s qid
    let q := getQ s qid
    if q.discard.contains init then
      (if last then setQ s qid { q with discard := q.discard.filter (· != init),
                                        flushTail := if q.flushTail = some init then none else q.flushTail } else s, .discarded)
    else if q.cfg.mode = .lossy ∧ q.producer.isSome ∧ q.producer ≠ some init then (badQid s, .discarded)
    else if q.cfg.out ∧ w.gen ≠ 0 then (eveLeak s qid init last, .discarded)
    else
      match q.openPkt with
      | some o => if o.producer = init then addWord s qid init w last else (s, .waits)
      | none => firstWord s qid init w last

/-- A whole packet enqueued by a unit; the words after one that waits are not sent. `waits` is answered with the queue
as it was before the packet. -/
def enqWords (s : State) (qid init : Nat) : List QWord → State × QRes
  | [] => (s, .taken)
  | [w] => enqWord s qid init w true
  | w :: t =>
    let (s', r) := enqWord s qid init w false
    if r = .waits then (s', .waits) else enqWords s' qid init t

/-- A packet of dated words enqueued by a unit: the answer, with the queue unchanged where it had to wait. -/
def enqPacket (s : State) (qid init gen : Nat) (words : List Word) : State × QRes :=
  let (s', r) := enqWords s qid init (words.map fun d => { data := d, gen := gen, world := unitWorld s init })
  if r = .waits then (s, .waits) else (s', r)

/-- The answer to a dequeue: the holiday item (R193), or a word with END and LEAP. -/
inductive DeqRes where
  | holiday
  | word (w : QWord) (last leap : Bool)
  deriving DecidableEq, Repr

/-- R193: the data word of the holiday item. -/
def holidayWord (qid : Nat) : Word := BitVec.ofNat 64 (qid % 2 ^ 16)

/-- A receiver that has read a packet to its END. -/
def pastPacket (x : Receiver) (p : Packet) : Receiver :=
  { x with next := max (p.num + 1) x.skipTo, off := 0, deq := x.deq + 1 }

/-- R184, R193 to R196, R208, R214: a word dequeued by unit `init` as receiver `r`. -/
def deqWord (s : State) (qid init r : Nat) : State × DeqRes :=
  if ¬ qValid s qid ∨ (getQ s qid).recvs.length ≤ r then (badQid s, .holiday)
  else
    let q := getQ s qid
    if q.cfg.world ∧ ¬ unitWorld s init then (violation s (initId s init false) 6 3 3 0xFF qid, .holiday)
    else
      let s := eccCheck (usePtr s qid) qid r
      let q := getQ s qid
      let x := nth {} q.recvs r
      match x.markers with
      | m :: l =>
        (setQ s qid (setRecv q r { x with markers := l }),
          .word { data := markerWord m.lkind m.first m.count, gen := 0, world := q.cfg.world } true true)
      | [] =>
        match headFor q x with
        | none => (s, .holiday)
        | some p =>
          let o := if p.num = x.next then x.off else 0
          let w := nth {} p.words o
          if p.words.length ≤ o + 1 then
            (setQ s qid (prune (setRecv q r (pastPacket x p))),
              .word w true p.leap)
          else (setQ s qid (setRecv q r { x with next := p.num, off := o + 1 }), .word w false p.leap)

/-- A whole packet dequeued by a unit: its words and whether it is a leap marker. -/
def deqPacket (s : State) (qid init r : Nat) : Nat → State × List QWord × Bool
  | 0 => (s, [], false)
  | n + 1 =>
    match deqWord s qid init r with
    | (s', .holiday) => (s', [], false)
    | (s', .word w last leap) =>
      if last then (s', [w], leap)
      else
        let (s'', ws, l) := deqPacket s' qid init r n
        (s'', w :: ws, l)

/-- R190, R222: packets waiting for receiver `r`: complete packets, with its own marker. -/
def packetsFor (q : Queue) (r : Receiver) : Nat :=
  (q.packets.filter (unread r)).length + r.markers.length

/-- R191: the receiver by which sequencer `n` reads a queue: the one whose notices it takes, else receiver 0. -/
def seqRecv (q : Queue) (n : Nat) : Nat := (q.recvs.findIdx? fun r => r.kind == 1 && r.target == n).getD 0

/-- Words of the packet at a receiver's head, its own marker first, without taking it (R645); none where the queue is empty for
it. -/
def headWords (q : Queue) (r : Nat) : Option Nat :=
  let x := nth {} q.recvs r
  if x.markers.isEmpty then (headFor q x).map fun p => p.words.length else some 1

/-- A packet at a receiver's head removed whole (R645). -/
def takePacket (q : Queue) (r : Nat) : Queue :=
  let x := nth {} q.recvs r
  match headFor q x with
  | none => q
  | some p => prune (setRecv q r (pastPacket x p))

/-- R178 step 4, R211: every packet that holds a word of one of the generations is removed. -/
def squashQueue (gens : List Nat) (q : Queue) : Queue :=
  let bad (ws : List QWord) := ws.any fun w => w.gen != 0 && gens.contains w.gen
  let dead := q.packets.filter fun p => bad p.words
  { q with
    packets := q.packets.filter fun p => !bad p.words,
    recvs := q.recvs.map fun r =>
      if dead.any fun p => decide (p.num = r.next ∧ 0 < r.off) then { r with next := r.next + 1, off := 0 } else r,
    openPkt := match q.openPkt with
      | some o => if bad o.words then none else some o
      | none => none,
    waits := q.waits.filter fun w => !(w.word.gen != 0 && gens.contains w.word.gen),
    cnt := { q.cnt with squash := q.cnt.squash + reg dead.length } }

/-- R164: the carriers of a dated generation rewritten as 0 in a queue. -/
def scrubQueue (g : Nat) (q : Queue) : Queue :=
  let f (w : QWord) : QWord := if w.gen = g then { w with gen := 0 } else w
  { q with
    packets := q.packets.map fun p => { p with words := p.words.map f },
    openPkt := q.openPkt.map fun o => { o with words := o.words.map f },
    waits := q.waits.map fun w => { w with word := f w.word } }

/-- A change made to every queue. -/
def mapQueues (s : State) (f : Queue → Queue) : State :=
  { s with queues := s.queues.map fun p => (p.1, f p.2) }

/-- The world of the initiator that serves a system queue, and the bytes of a packet from its words. -/
def packetBytes (ws : List QWord) : List Byte := wordsToBytes (ws.map fun w => w.data)

end Sys2Proof.Machine
end

