-- ==== Sys2Proof/Machine/Flags.lean ====
section
/-!
DEFINITION. The flag store: flag words, their generations, their dated shadows and held updates (R60 to R62, R116,
R117, R165), and the slots and graphs that own them.
-/
namespace Sys2Proof.Machine

/-! ### Sequencers, slots and graphs -/

/-- Sequencer `n`. -/
def getSeq (s : State) (n : Nat) : Seq := kvGet (fun _ => {}) s.seqs n

/-- Sequencer `n` replaced. -/
def setSeq (s : State) (n : Nat) (q : Seq) : State := { s with seqs := kvPut s.seqs n q }

/-- Slot `i` of sequencer `n`. -/
def getSlot (s : State) (n i : Nat) : Slot := kvGet (fun _ => {}) (getSeq s n).slots i

/-- Slot `i` of sequencer `n` replaced. -/
def setSlot (s : State) (n i : Nat) (x : Slot) : State :=
  let q := getSeq s n
  setSeq s n { q with slots := kvPut q.slots i x }

/-- The graph in context `c` of sequencer `n`; none when EMPTY. -/
def getGraph (s : State) (n c : Nat) : Option Graph := (s.graphs.find? fun p => p.1 == 2 * n + c).map Prod.snd

/-- A graph placed in a context. -/
def setGraph (s : State) (n c : Nat) (g : Graph) : State := { s with graphs := kvPut s.graphs (2 * n + c) g }

/-- A context made EMPTY. -/
def delGraph (s : State) (n c : Nat) : State := { s with graphs := kvDel s.graphs (2 * n + c) }

/-- Context `c` of sequencer `n`. -/
def getCtx (s : State) (n c : Nat) : Ctx := kvGet (fun _ => {}) s.ctxs (2 * n + c)

/-- A context replaced. -/
def setCtx (s : State) (n c : Nat) (x : Ctx) : State := { s with ctxs := kvPut s.ctxs (2 * n + c) x }

/-- GFLAGS bits of R63. -/
def Graph.safety (g : Graph) : Bool := bit 0 g.hdr.gflags
def Graph.secure (g : Graph) : Bool := bit 1 g.hdr.gflags
def Graph.utility (g : Graph) : Bool := bit 3 g.hdr.gflags
def Graph.isResident (g : Graph) : Bool := bit 4 g.hdr.gflags

/-! ### Flag words -/

/-- Flag word `w`. -/
def getFlag (s : State) (w : Nat) : FlagWord := kvGet (fun _ => {}) s.flags w

/-- Flag word `w` replaced. -/
def setFlag (s : State) (w : Nat) (f : FlagWord) : State := { s with flags := kvPut s.flags w f }

/-- R61: slot-relative flag `f` of slot `i` of a graph. -/
def flagAddr (g : Graph) (i f : Nat) : Nat := g.pl.flagBase + i * g.hdr.nflag + f

/-- R62: a stale flag access counted against sequencer `n`. -/
def staleFlag (s : State) (n : Nat) : State := raise (inc s (seqBase n + 0x28)) (seqBase n + 0x14) 2

/-- R165: the generation of the frame that owns a word: that of the slot the word names. -/
def flagOwner (s : State) (n : Nat) (f : FlagWord) : Nat :=
  let x := getSlot s n f.slot
  if x.frame % 2 ^ 16 = f.frame then eff s x.gen else 0

/-- A flag VALUE set or added to. -/
def flagValue (add : Bool) (old v : Reg) : Reg := if add then old + v else v

/-- R62, R165: a flag update of generation `u` by work of slot `i`, frame `frame` of sequencer `n` reaches word `w`: it
is applied, held or counted as stale. Answers the word's VALUE and GEN before it (R117). -/
def flagUpdate (s : State) (n i frame u w : Nat) (add : Bool) (v : Reg) : State × FlagWord :=
  let f := getFlag s w
  if f.slot ≠ i ∨ f.frame ≠ frame % 2 ^ 16 ∨ f.dead then (staleFlag s n, f)
  else
    let o := flagOwner s n f
    let u := eff s u
    if later s o u = o then
      let (s, _) := mergeGen s o u
      let nv := flagValue add f.value v
      (setFlag s w { f with value := nv, gen := o, shadow := if o = 0 then nv else f.shadow }, f)
    else ({ s with held := s.held ++ [⟨w, i, f.frame, u, add, v⟩] }, f)

/-- R62: every flag word of a slot written when the slot enters OPEN. -/
def openFlags (s : State) (g : Graph) (i frame : Nat) : State :=
  (List.range g.hdr.nflag).foldl (fun s f =>
    let v := reg (nth 0 g.pl.flagInit f)
    setFlag s (flagAddr g i f) { gen := 0, slot := i, frame := frame % 2 ^ 16, value := v, shadow := v, dead := false }) s

/-- R116: whether a flag VALUE satisfies CMP against an operand: 0 GEU, 1 EQ, 2 MASK. -/
def flagCmp (cmp : Nat) (v op : Reg) : Bool :=
  if cmp = 0 then decide (op.toNat ≤ v.toNat) else if cmp = 1 then v == op else (v &&& op) == op

/-- R165: on a squash every flag word of the slot returns to its shadow with GEN 0 and discards updates until the slot
opens again. -/
def squashFlags (s : State) (g : Graph) (i : Nat) : State :=
  (List.range g.hdr.nflag).foldl (fun s f =>
    let w := flagAddr g i f
    let x := getFlag s w
    setFlag s w { x with value := x.shadow, gen := 0, dead := true }) s

/-- R165: on a commit the shadow of every word the generation owns takes its VALUE. -/
def commitFlags (s : State) (gen : Nat) : State :=
  { s with flags := s.flags.map fun p =>
      if p.2.gen = gen then (p.1, { p.2 with gen := 0, shadow := p.2.value }) else p }

/-- The sequencer whose graph's window holds a flag word. -/
def flagSeq (s : State) (w : Nat) : Nat :=
  ((s.graphs.find? fun p => decide (p.2.pl.flagBase ≤ w ∧ w < p.2.pl.flagBase + 4 * p.2.hdr.nflag)).map
    fun p => p.1 / 2).getD 0

/-- R165: the updates held for a generation that has been dated, applied in order; a stale one is counted. -/
def releaseHeld (s : State) (gen : Nat) : State :=
  let mine := s.held.filter fun h => h.gen == gen
  let s := { s with held := s.held.filter fun h => h.gen != gen }
  mine.foldl (fun s h => (flagUpdate s (flagSeq s h.word) h.slot h.frame 0 h.word h.add h.value).1) s

end Sys2Proof.Machine
end

