-- ==== Sys2Proof/Machine/Eve.lean ====
section
/-!
DEFINITION. Tasks and units as the eve rule sees them, the packets a slot yields (R82 to R89), the creation and the end of a
task (R107, R113, R165, R226), squash and commit (R163, R164, R176 to R180), and page tags (R167).
-/
namespace Sys2Proof.Machine

/-! ### Tasks -/

/-- A task entry, if held. -/
def getTask (s : State) (e : Nat) : Option Task := (s.sched.tasks.find? fun p => p.1 == e).map Prod.snd

/-- A task entry replaced. -/
def setTask (s : State) (e : Nat) (t : Task) : State :=
  { s with sched := { s.sched with tasks := kvPut s.sched.tasks e t } }

/-- A task entry freed. -/
def delTask (s : State) (e : Nat) : State :=
  { s with sched := { s.sched with tasks := kvDel s.sched.tasks e } }

/-- A tensor core's hardware. -/
def getTc (s : State) (c : Nat) : TcHw := kvGet (fun _ => {}) s.tcs c

/-- A tensor core's hardware replaced. -/
def setTc (s : State) (c : Nat) (h : TcHw) : State := { s with tcs := kvPut s.tcs c h }

/-- Whether a task occupies units. -/
def Task.onUnits (t : Task) : Bool :=
  match t.st with
  | .placed | .running | .gate | .stopping => true
  | _ => false

/-- The entry of the task that occupies a unit. -/
def occupant (s : State) (u : Nat) : Option (Nat × Task) :=
  s.sched.tasks.find? fun p => p.2.onUnits && p.2.units.contains u

/-- R594, R596: the data path's busy bit of a unit. An image pipeline or sequencer is busy while a graph runs on it. -/
def busy (s : State) (u : Nat) : Bool :=
  if 160 ≤ u ∧ u < 176 then (getGraph s (u - 160) 0).isSome || (getGraph s (u - 160) 1).isSome
  else if 176 ≤ u ∧ u < 196 then (getGraph s (u - 176) 0).isSome || (getGraph s (u - 176) 1).isSome
  else (occupant s u).isSome

/-- R224: unit number of instance `i` of a unit type of R108. -/
def unitOfType (ty i : Nat) : Nat :=
  if ty = 0 then 132 + i else if ty = 1 then 136 + i else if ty = 2 then 140 + i
  else if ty = 3 then 144 + i else if ty = 4 then 152 + i
  else if ty = 6 then 128 + i else if ty = 7 then 64 + i
  else if ty = 8 then 196 + i else i

/-- Instances of a unit type of R108. -/
def instances (ty : Nat) : Nat :=
  if ty ≤ 2 then 4 else if ty ≤ 4 then 8 else if ty = 5 then 64 else if ty = 6 then 4 else if ty = 7 then 64
  else if ty = 8 then 2 else if ty = 9 then 64 else 0

/-- R108, R109: instance 0x3F of every type but a program number or a core of its own leaves the instance open. -/
def Task.anyInst (t : Task) : Bool := t.inst == 0x3F && t.ttype != 5 && t.ttype != 9

/-- A task pinned to one unit (R225). -/
def Task.pinned (t : Task) : Bool := t.ttype != 5 && !t.anyInst

/-! ### Ordered flows (R242 to R247) -/

/-- Flow `f`. -/
def getFlow (s : State) (f : Nat) : Flow := kvGet (fun _ => {}) s.sched.flows f

/-- Flow `f` replaced. -/
def setFlow (s : State) (f : Nat) (x : Flow) : State :=
  { s with sched := { s.sched with flows := kvPut s.sched.flows f x } }

/-- R243, R246: FSEQ values that are done are released in order. -/
def advanceFlow : Nat → Flow → Flow
  | 0, x => x
  | n + 1, x =>
    if x.done.contains x.release then
      advanceFlow n { x with release := (x.release + 1) % 2 ^ 16, done := x.done.filter (· != x.release) }
    else x

/-- R246: a task's place in its flow counted as released; the served stage itself has no place (R243). -/
def flowRemove (s : State) (t : Task) : State :=
  match (if t.parent.isSome then t.flow else none) with
  | none => s
  | some f =>
    let x := getFlow s f
    setFlow s f (advanceFlow (x.done.length + 1) { x with done := t.fseq :: x.done })

/-! ### Packets of a slot (R82 to R89) -/

/-- R85, R213: the FFLAGS a packet carries. -/
def packetFlags (s : State) (n : Nat) (x : Slot) : Nat :=
  x.fflags % 64 + 64 * b2n (flag s (qmBase + 0x40) n)

/-- R84, R527: LEAPS of a slot's header: fixed when its frame unit began, else the count so far. -/
def slotLeaps (s : State) (n : Nat) (x : Slot) : Reg :=
  match x.dating with
  | some d => if d.framed then d.leaps else (getSeq s n).leaps
  | none => (getSeq s n).leaps

/-- R84: a frame header. -/
def frameHeader (s : State) (n : Nat) (x : Slot) (gid nrec nres nwh : Nat) : List Byte :=
  withCrc (leBytes 2 3 ++ leBytes 1 x.stream ++ leBytes 1 (packetFlags s n x) ++ leBytes 4 x.frame
    ++ leBytes 8 x.tstamp ++ leBytes 2 x.epoch ++ leBytes 2 nrec ++ leBytes 4 gid ++ leBytes 2 nres ++ leBytes 2 nwh
    ++ leBytes 4 (slotLeaps s n x).toNat ++ leBytes 8 (now s) ++ zeros 20)

/-- R87: a withheld notice. -/
def noticeBytes (s : State) (n : Nat) (x : Slot) (gid index reason detail unit ruleset verdict : Nat) : List Byte :=
  withCrc (leBytes 2 2 ++ leBytes 1 x.stream ++ leBytes 1 (packetFlags s n x) ++ leBytes 4 x.frame
    ++ leBytes 8 x.tstamp ++ leBytes 2 x.epoch ++ leBytes 2 index ++ leBytes 4 gid
    ++ leBytes 2 reason ++ leBytes 2 detail ++ leBytes 2 unit ++ leBytes 2 0 ++ zeros 28
    ++ leBytes 2 ruleset ++ leBytes 2 verdict ++ leBytes 8 (now s) ++ zeros 52)

/-- GRAPH and HOST queue of the graph a slot belongs to. -/
def slotGraph (s : State) (n : Nat) (x : Slot) : Option Graph := getGraph s n x.ctx

/-- R52: whether work still refers to a slot's surfaces: its pipelines, or a stage that runs on after the frame (R173,
R499). -/
def slotReferred (s : State) (n i : Nat) (x : Slot) : Bool :=
  decide (x.refs ≠ 0) || s.sched.tasks.any fun p => p.2.src == n && p.2.slot == i && p.2.frame == x.frame

/-- R52, R55: slots whose packet is out and to which nothing refers become FREE, in the order in which they were opened. -/
def settleSlots (s : State) (n : Nat) : State :=
  let start := (getSeq s n).nextOpen
  ((List.range 4).foldl (fun (p : State × Bool) k =>
    let i := (start + k) % 4
    let x := getSlot p.1 n i
    if x.st = .free ∨ ¬ p.2 then p
    else if x.st = .dated ∧ ¬ slotReferred p.1 n i x then
      (setSlot p.1 n i { x with st := .free, gen := 0, dating := none, notice := none, held := [] }, true)
    else (p.1, false)) (s, true)).1

/-- R52, R55, R56: the packet of slot `i` has been enqueued: the slot is DATED, then FREE, and the next slot's packet is
due. -/
def packetOut (s : State) (n i : Nat) : State :=
  let x := getSlot s n i
  let l := (getSeq s n).leaps - slotLeaps s n x
  let host := ((getGraph s n x.ctx).bind fun g => g.pl.hostQ).isSome
  let s := setSlot s n i { x with st := .dated, gen := 0, dating := none, notice := none, held := [] }
  let q := getSeq s n
  settleSlots (setSeq s n { q with nextOut := (i + 1) % 4, leaps := l, lastDated := x.frame,
                                   prev := if host then some (x.frame, x.tstamp) else q.prev }) n

/-- Words of a byte string enqueued as one dated packet of the sequencer on a HOST queue. -/
def hostPacket (s : State) (n qid : Nat) (l : List Byte) : State × QRes :=
  let w := unitWorld s (176 + n)
  let (s', r) := enqWords s qid (176 + n) ((bytesToWords l).map fun d => { data := d, gen := 0, world := w })
  if r = .waits then (s, .waits) else (s', r)

/-- R106, R178 step 7: the squash packet of slot `i`, once every earlier frame's packet is out and the HOST queue has
space; a slot of a graph without a HOST queue yields none. The slot leaves EVE with its packet (log entry 114). -/
def squashPacket (s : State) (n i : Nat) : State :=
  let x := getSlot s n i
  match x.notice, slotGraph s n x with
  | some (reason, detail, unit), some g =>
    if (getSeq s n).nextOut ≠ i then s
    else match g.pl.hostQ with
      | none => packetOut s n i
      | some q =>
        let rs := (x.dating.map fun d => d.ruleset).getD 0
        let body := frameHeader s n x g.hdr.gid 1 0 1
          ++ noticeBytes s n x g.hdr.gid 0xFFFF reason detail unit rs 0xFF00
        let (s', r) := hostPacket s n q body
        if r = .waits then s else packetOut s' n i
  | _, _ => s

/-- Squash packets that are due, in frame order (R56). -/
def squashPackets (s : State) (n : Nat) : State :=
  (List.range 4).foldl (fun s _ => squashPacket s n (getSeq s n).nextOut) s

/-- R90, R105: squash packets that waited for space on a HOST queue. -/
def retrySquash (s : State) : State := (List.range 20).foldl squashPackets s

/-! ### Stage completion (R107, R113) -/

/-- R107: the completion update of a stage, under the stage's generation. -/
def completionUpdate (s : State) (t : Task) : State :=
  if t.cancelled then s
  else (flagUpdate s t.src t.slot t.frame t.gen t.cflag (!t.cmode) 1).1

/-- R114: a slot marked with the first window failure of its stages. -/
def markSlot (s : State) (n i reason detail : Nat) : State :=
  let x := getSlot s n i
  if x.mark.isSome then s else setSlot s n i { x with mark := some (reason, detail) }

/-- The task table entries that serve sequencer `n` (R226); firmware's for 20 and above. -/
def entryBase (n : Nat) : Nat := if n < 20 then 512 * n else 10240

/-- R223, R225: entries that hold the descriptors of activations. -/
def actEntries (s : State) : List Nat :=
  (s.seqs.flatMap fun p => p.2.acts.filterMap Activation.entry) ++ s.sched.acts.filterMap fun p => p.2.entry

/-- R226: the lowest free entry for a sequencer. -/
def freeEntry (s : State) (n : Nat) : Option Nat :=
  findFrom (fun e => (getTask s e).isNone && !(actEntries s).contains e) 512 (entryBase n)

/-- The SERVE and ORDERED bits, the served queue and receiver, PCOUNT and THREADS of a parameter block's header
(R437, R477). -/
def blkServe (s : State) (a : Nat) : Bool := bit 0 (peekN s (a + 3) 1)
def blkOrdered (s : State) (a : Nat) : Bool := bit 1 (peekN s (a + 3) 1)
def blkQueue (s : State) (a : Nat) : Nat := peekN s (a + 4) 2
def blkRecv (s : State) (a : Nat) : Nat := peekN s (a + 6) 1
def blkPcount (s : State) (a : Nat) : Nat := peekN s (a + 8) 2
def blkThreads (s : State) (a : Nat) : Nat := peekN s (a + 10) 2

/-- The unit epoch the scheduler holds (R235), and sequencer `n` holds (R110). -/
def htsEpoch (s : State) (u : Nat) : Nat := kvGet (fun _ => 1) s.sched.epochs u
def seqEpoch (s : State) (n u : Nat) : Nat := kvGet (fun _ => 1) s.sched.seqEpochs (256 * n + u)

/-- R538: word `i` of the descriptor of lantern set `l`. -/
def lsetWord (s : State) (l i : Nat) : Nat := getN s (chkBase + 0x1000 + 64 * l + 4 * i)

/-- R539 to R541: a lantern set, and one replaced. -/
def getLSet (s : State) (l : Nat) : LanternSet := kvGet (fun _ => {}) s.chk.sets l
def setLSet (s : State) (l : Nat) (x : LanternSet) : State :=
  { s with chk := { s.chk with sets := kvPut s.chk.sets l x } }

/-- The unit of a lantern set. -/
def lsetUnit (s : State) (l : Nat) : Nat := unitOfType (lsetWord s l 0 % 256) (lsetWord s l 0 / 256 % 256)

/-- CHK_LRES of a set: RESULT, CAUSE, CHUNKS and CYCLE (R545). -/
def setLRes (s : State) (l result cause cycle : Nat) : State :=
  setR s (chkBase + 0x3000 + 4 * l)
    (reg (result * 2 ^ 30 + cause * 2 ^ 27 + (getLSet s l).done * 2 ^ 16 + cycle % 2 ^ 16))

/-- R539, R540: a set fails in a cycle, with a cause: counted, raised, written to the diary, its unit to be fenced. A set
that is judged already stays as it is; a FAILED checker judges none (R522). -/
def lanternFail (s : State) (l cause cycle : Nat) : State :=
  let x := getLSet s l
  if x.judged ∨ s.chk.st = 2 ∨ 128 ≤ l then s
  else
    let u := lsetUnit s l
    let s := setLRes (setLSet s l { x with judged := true }) l 2 cause cycle
    let s := raise (inc s (chkBase + 0x5C)) (chkBase + 0x10) 5
    let s := diary s 0x71 2 (unitWorld s u) { unit := u, detail := l, frame := cycle, addr := x.lastPass, aux := now s }
    { s with chk := { s.chk with fences := s.chk.fences ++ [u] } }

/-- The number of the lantern cycle: the cycles begun (CHK_CNT_CYCLE). -/
def lanternCycle (s : State) : Nat := getN s (chkBase + 0x6C)

/-- R539, R540: a chunk of a set is complete; after the last one the set's signature waits for the checker. -/
def chunkDone (s : State) (l : Nat) : State :=
  let x := getLSet s l
  let s := setLSet s l { x with done := x.done + 1 }
  let r := getN s (chkBase + 0x3000 + 4 * l)
  let s := setR s (chkBase + 0x3000 + 4 * l) (reg (bits 31 24 r * 2 ^ 24 + (x.done + 1) * 2 ^ 16 + bits 15 0 r))
  if x.done + 1 = lsetWord s l 0 / 2 ^ 16 % 256 ∧ ¬ x.judged then
    { s with chk := { s.chk with jobs := s.chk.jobs ++ [.sig l (lanternCycle s)] } }
  else s

/-- R115, R225: the watchdog a window of sequencer `n` takes: the lowest free one of its twelve. -/
def freeWdog (s : State) (n : Nat) : Option Nat :=
  let taken (w : Nat) (t : Task) : Bool := t.wdog == some w
  findFrom (fun w => !(s.sched.tasks.any fun p => taken w p.2) && !s.sched.posted.any (taken w)) 12 (12 * n)

/-- R107, R225, R227: a task created by a sequencer for a slot of its graph; its entry is taken when one is free, and
otherwise it waits for one (R226). -/
def createTask (s : State) (n c i : Nat) (g : Graph) (ttype inst cflag : Nat) (set : Bool) (pbidx : Nat)
    (win : Option (Nat × Nat × Nat)) (lid : Option Nat) : State :=
  let x := getSlot s n i
  let pblk := g.pl.params + i * (64 * cdiv g.pl.paramLen 64) + 64 * pbidx
  let line := win.bind fun w => g.lines.find? fun l => l.stage == w.1
  let pinned := ttype != 5 && (inst != 0x3F || ttype == 9)
  let t : Task := {
    st := .posted,
    tkind := if lid.isSome then 6 else if ttype = 5 then 0 else if ttype = 6 then 1 else if ttype = 7 then 2
      else if ttype = 8 then 4 else 3,
    prio := g.hdr.prio,
    tier := if n = 17 then 1 else if g.hdr.deadline = 0 then 2 else 0,
    cores := if ttype = 5 then (line.map CostLine.cores).getD 1 else 1,
    src := n, ctx := c, ttype := ttype, inst := inst,
    uepoch := if pinned then seqEpoch s n (unitOfType ttype inst) else 0,
    threads := if ttype = 6 then blkThreads s pblk else 0,
    win := win, wdog := win.bind fun _ => freeWdog s n, stage := (win.map fun w => w.1).getD 0,
    kickPc := (getCtx s n c).pc,
    entry := match lid with
      | some l => lsetWord s l 2 + 2 ^ 32 * lsetWord s l 3
      | none => if ttype = 5 then ((g.pl.tcprogs.find? fun p => p.1 == inst).map fun p => p.2.1).getD 0 else 0,
    pblk := match lid with
      | some l => lsetWord s l 4 + 2 ^ 32 * lsetWord s l 5
      | none => pblk, frame := x.frame, tstamp := x.tstamp, epoch := x.epoch, stream := x.stream, slot := i, gen := x.gen,
    cmode := set, cflag := flagAddr g i cflag, order := s.sched.order, lid := lid, sc := g.safety || lid.isSome }
  let s := cancelDoze { s with sched := { s.sched with order := s.sched.order + 1 } }
  match freeEntry s n with
  | some e => setTask s e { t with st := .ready, ready := now s, readySince := now s }
  | none => raise { s with sched := { s.sched with posted := s.sched.posted ++ [t] } } (htsBase + 0x10) 1

/-- R115: windows of a sequencer that are open or taken. -/
def openWindows (s : State) (n : Nat) : Nat :=
  (s.sched.tasks.filter fun p => p.2.src == n && p.2.win.isSome).length
    + (s.sched.posted.filter fun t => t.src == n && t.win.isSome).length

/-- R115: a `KICK` that waits for a window is issued when one closes. -/
def releaseKick (s : State) (n : Nat) : State :=
  [0, 1].foldl (fun s c =>
    let x := getCtx s n c
    match x.wait, x.win, getGraph s n c with
    | some (.watchdog i tgt cf pb set lid), some w, some g =>
      if 12 ≤ openWindows s n then s
      else
        let s := createTask s n c i g (tgt / 64) (tgt % 64) cf set pb (some w) lid
        setCtx s n c { x with wait := none, rst := .run, win := none, pc := x.pc + 1 }
    | _, _, _ => s) s

/-- R226: issued `KICK`s without an entry get one when it frees. -/
def admitPosted (s : State) (n : Nat) : State :=
  match s.sched.posted.find? fun t => t.src == n, freeEntry s n with
  | some t, some e =>
    let s := { s with sched := { s.sched with posted := s.sched.posted.erase t } }
    setTask s e { t with st := .ready, ready := now s, readySince := now s }
  | _, _ => s

/-- R113: elapsed whole microseconds of a stage's window. -/
def elapsed (s : State) (t : Task) : Nat := (now s - (t.first.getD (now s))) / 1000

/-! ### The end of a task -/

/-- R239, R251: a served stage's receiver returns to KIND 0; what was read ahead for its packets is discarded (R487). -/
def unserve (s : State) (t : Task) : State :=
  match t.served with
  | none => s
  | some v =>
    let s := (s.gthAhead.filter fun p => p.2.1 == v.queue).foldl (fun s p => incBy s (gthBase (p.1 - 128) + 0x50) p.2.2.2)
      { s with gthAhead := s.gthAhead.filter fun p => p.2.1 != v.queue }
    let q := getQ s v.queue
    let x := nth {} q.recvs v.recv
    setQ s v.queue (setRecv q v.recv { x with kind := 0, target := 0 })

/-- R254: the whole µs that a task has run on its cores or its partition since it was placed there. -/
def countLoad (s : State) (t : Task) : State :=
  if t.st = .placed then s
  else t.units.foldl (fun s u =>
    let us := (now s - t.since) / 1000
    if u < 64 then incBy s (htsBase + 0x400 + 4 * u) us
    else if 128 ≤ u ∧ u < 132 then incBy s (htsBase + 0x500 + 4 * (u - 128)) us else s) s

/-- What a unit has of a packet that it has not ended leaves a queue with the unit's task (log entry 117). -/
def dropProducers (us : List Nat) (q : Queue) : Queue :=
  { q with
    waits := q.waits.filter fun w => !us.contains w.producer,
    discard := q.discard.filter fun u => !us.contains u,
    flushTail := match q.flushTail with
      | some u => if us.contains u then none else some u
      | none => none,
    openPkt := match q.openPkt with
      | some o => if us.contains o.producer then none else some o
      | none => none }

/-- The register block of an engine unit. -/
def engBase (u : Nat) : Nat :=
  if u < 132 then gthBase (u - 128)
  else if u < 136 then strBase (u - 132)
  else if u < 140 then flwBase (u - 136)
  else if u < 144 then ftrBase (u - 140)
  else if u < 152 then wrpBase (u - 144)
  else if u < 160 then pyrBase (u - 152)
  else cdcBase

/-- Register block of DMA channel `i`. -/
def chBase (i : Nat) : Nat := dmaBase (i / 8) + 0x1000 + 0x100 * (i % 8)

/-- GATECLK of a unit: its register, and its clocks in `ns` nanoseconds: tensor cores by their clock, the vision engines at
800 MHz, gather partitions and DMA channels in fabric clocks (1.2 GHz). The codec has none. -/
def gateClock (s : State) (u ns : Nat) : Option (Nat × Nat) :=
  if u < 64 then some (tcBase u + 0x8C, ns * s.clock.cur / 1000)
  else if u < 128 then some (chBase (u - 64) + 0x54, ns * 6 / 5)
  else if u < 132 then some (engBase u + 0x68, ns * 6 / 5)
  else if u < 160 then some (engBase u + 0x58, ns * 4 / 5)
  else none

/-- A stage leaves the dating gate: its units count the clocks they stood there. -/
def countGate (s : State) (t : Task) : State :=
  if t.st ≠ .gate then s
  else t.units.foldl (fun s u => match gateClock s u (now s - t.gateAt) with
    | some (a, n) => incBy s a n
    | none => s) s

/-- GTH_CNT_BUSYUS: the last task leaves a partition: the whole µs in which it has held any. -/
def countHeld (s : State) (t : Task) (u : Nat) : State :=
  match s.gthBusy.find? fun p => p.1 == u with
  | some p =>
    if s.sched.tasks.any fun x => x.2.order != t.order && x.2.onUnits && x.2.units.contains u then s
    else incBy { s with gthBusy := kvDel s.gthBusy u } (engBase u + 0x58) ((now s - p.2) / 1000)
  | none => s

/-- BUSYUS of the vision engines and of the gather partitions: a task leaves its unit. -/
def countBusy (s : State) (t : Task) : State :=
  match t.units with
  | [u] =>
    if t.st = .placed then s
    else if 128 ≤ u ∧ u < 132 then countHeld s t u
    else if 132 ≤ u ∧ u < 160 then incBy s (engBase u + 0x44) ((now s - t.since) / 1000) else s
  | _ => s

/-- R199: a task leaves its units: their time is counted, and a unit that waited for a queue waits no longer. -/
def leaveUnits (s : State) (t : Task) : State :=
  let s := countBusy (countGate (countLoad s t) t) t
  let us := t.units
  if us.isEmpty then s
  else mapQueues { s with pool := { s.pool with taken := s.pool.taken.filter fun u => !us.contains u } } (dropProducers us)

/-- R244: a wait at the first enqueue that ends with its task is counted like any other. -/
def endFlowWait (s : State) (e : Nat) : State :=
  if s.flowWait.contains e then inc { s with flowWait := s.flowWait.filter (· != e) } (htsBase + 0x30) else s

/-- R52, R115, R226, R239, R243, R254: a task leaves its entry: its units, flow, receiver and window are free, and what waited
for one of them goes on. -/
def freeTask (s : State) (e : Nat) : State :=
  match getTask s e with
  | none => s
  | some t =>
    let s := endFlowWait (flowRemove (unserve (leaveUnits s t) t) t) e
    let s := delTask s e
    if 20 ≤ t.src then s else releaseKick (admitPosted (settleSlots s t.src) t.src) t.src

/-- The task of an entry removed, if the entry still holds that task. -/
def removeTask (s : State) (e : Nat) (t : Task) : State :=
  match getTask s e with
  | some x => if x.order = t.order then freeTask s e else s
  | none => s

/-- R240: tasks of a served stage that are ready or running. -/
def children (s : State) (e : Nat) : List (Nat × Task) := s.sched.tasks.filter fun p => p.2.parent == some e

/-- R113, R114: a window closes in time or too early. -/
def markEarly (s : State) (t : Task) : State :=
  match t.win with
  | some (st, wmin, _) => if elapsed s t < wmin then markSlot s t.src t.slot 6 st else s
  | none => s

/-- R107, R113, R115, R226, R243: a stage is over: WDOG_EARLY if it finished before its minimum, its completion update,
its window closed, its task entry and units freed, and the next waiting `KICK` admitted. -/
def finishTask (s : State) (e : Nat) : State :=
  match getTask s e with
  | none => s
  | some t =>
    let s := markEarly s t
    let s := match t.lid with
      | some l => chunkDone s l
      | none => s
    freeTask (completionUpdate s t) e

/-- R498, R515: a codec stage that is aborted or ends in an error: the stream's open segment closes before its next
picture; the reader skips the rest of the segment that the slot's frame belongs to. -/
def codecFail (s : State) (t : Task) : State :=
  if t.ttype ≠ 8 then s
  else if t.inst = 0 then
    let r := kvGet (fun _ => ({} : Ring)) s.cdc.rings t.stream
    { s with cdc := { s.cdc with rings := kvPut s.cdc.rings t.stream { r with broken := true } } }
  else match (getSlot s t.src t.slot).rep with
    | none => s
    | some f =>
      let p := s.cdc.replay
      let rest := p.frames.filter fun x => !(x.ring == f.ring && x.seq == f.seq)
      { s with cdc := { s.cdc with replay := { p with
          frames := rest, skipped := p.skipped + (p.frames.length - rest.length), ref := none } } }

/-- R113, R274, R338: a stage ended by its unit or its window: the slot is marked WDOG_LATE, the completion update is
made, and the entry is freed. Neither is done for a remainder (R175) or for a squashed encode stage (R130). -/
def failTask (s : State) (e : Nat) : State :=
  match getTask s e with
  | none => s
  | some t =>
    let d := match t.win with
      | some (st, _, _) => st
      | none => 0xFFFF
    let s := if t.remainder ∨ t.cancelled then s else completionUpdate (markSlot s t.src t.slot 7 d) t
    let s := codecFail s t
    let s := match t.lid with
      | some l => lanternFail s l 3 (lanternCycle s)
      | none => s
    freeTask s e

/-- R243, R239: a task of a served stage released: counted, and the stage finished at its PCOUNT. -/
def releaseServed (s : State) (e : Nat) (t : Task) : State :=
  let s := removeTask s e t
  match t.parent with
  | none => s
  | some p =>
    match getTask s p with
    | some st =>
      match st.served with
      | some v =>
        let s := setTask s p { st with served := some { v with done := v.done + 1 } }
        if v.pcount ≤ v.done + 1 then finishTask s p else s
      | none => s
    | none => s

/-! ### The dating gate (R173, R174) -/

/-- R174: whether a stage counts as completed: it stands at the dating gate; a served stage once each of its packets has been
served or its task stands there; a task held by its flow. -/
def stageStopped (s : State) (e : Nat) (t : Task) : Bool :=
  t.st == .gate || match t.served with
    | some v => decide (v.pcount ≤ v.done + ((children s e).filter fun k => k.2.st == .gate || k.2.st == .complete).length)
    | none => t.parent.isSome && t.st == .complete

/-- R115, R174: the window of a stage closes at the moment it stopped. -/
def closeWindow (s : State) (e : Nat) : State :=
  match getTask s e with
  | none => s
  | some t =>
    if t.win.isNone then s
    else releaseKick (setTask (markEarly s t) e { t with win := none, wdog := none }) t.src

/-- R173, R174: a stage of live data generation `g` stops at the dating gate; from then on it counts as completed. -/
def stopAtGate (s : State) (e : Nat) (t : Task) (g : Nat) : State :=
  let s := setTask s e { t with st := .gate, dataGen := g, gateAt := now s }
  match t.parent with
  | none => closeWindow s e
  | some p => match getTask s p with
    | some st => if stageStopped s p st then closeWindow s p else s
    | none => s

/-! ### Squash (R177 to R180) -/

/-- R177: the generations squashed with a list of roots: every live one in whose dependency set a squashed one stands, in the
order of allocation. -/
def closure (s : State) (roots : List Nat) : List Nat :=
  let live := sortL (s.gens.filter fun p => p.2.st == .live) fun a b => decide (a.2.order ≤ b.2.order)
  live.foldl (fun acc p => if acc.contains p.1 then acc
    else if p.2.deps.any fun d => acc.contains d then acc ++ [p.1] else acc) roots

/-- R95, R112, R130: a context that waits on a squashed slot goes on; the instruction was a ghost. A `KICK` that waited for a
watchdog is discarded with the window it had taken. -/
def ghostWait (s : State) (n i : Nat) : State :=
  [0, 1].foldl (fun s c =>
    let x := getCtx s n c
    let hit := match x.wait with
      | some (.flag sl _ _ _) => sl == i
      | some (.barrier sl _) => sl == i
      | some (.watchdog sl _ _ _ _ _) => sl == i
      | some (.credit sl _ _ _) => sl == i
      | some (.pset sl _ _ _) => sl == i
      | _ => false
    let win := match x.wait with
      | some (.watchdog _ _ _ _ _ _) => none
      | _ => x.win
    if hit then inc (setCtx s n c { x with wait := none, rst := .run, win := win, pc := x.pc + 1 }) (seqBase n + 0x2C)
    else s) s

/-- A stage of a vision engine ended before its work was done: counted as aborted. -/
def countAbort (s : State) (t : Task) : State :=
  if t.ttype ≤ 4 ∧ t.onUnits ∧ ¬ t.worked then inc s (engBase (nth 0 t.units 0) + 0x48) else s

/-- A codec encode stage that its unit has accepted (R178, R499). -/
def encodes (t : Task) : Bool := t.ttype == 8 && t.inst == 0 && t.first.isSome && t.onUnits

/-! ### Errors of units (R274, R338, R490, R516) -/

/-- R175, R274, R338: the diary entry of a unit error: UNITERR, or REMAINDER for a stage resumed after dating. -/
def errEntry (s : State) (t : Task) (u code addr : Nat) : State :=
  diary s (if t.remainder then 0x33 else 0x30) 2 (unitWorld s u)
    { unit := u, code := code, stream := t.stream, frame := t.frame, addr := addr }

/-- R274: an interrupt cause of channel `i`. -/
def chRaise (s : State) (i b : Nat) : State := raise s (chBase i + 0x24) b

/-- R274: channel `i` records and reports an error, and halts. -/
def haltChannel (s : State) (i : Nat) (t : Task) (x : UnitErr) : State :=
  let s := setR s (chBase i + 0x20) (reg (2 ^ 31 + 256 * b2n x.fetch + x.code))
  let s := setR (setR s (chBase i + 0x18) (reg x.addr)) (chBase i + 0x1C) (reg (x.addr / 2 ^ 32))
  let s := inc (chRaise s i 1) (chBase i + 0x58)
  let s := errEntry s t (64 + i) x.code x.addr
  { s with dmaHalt := i :: s.dmaHalt.filter (· != i) }

/-- R338, R490, R516: unit `u` from 128 on records and reports an error: its error registers, its count, its ERR interrupt and
the diary. The gather registers name the task's entry `e`; the codec's name the unit and have no count. -/
def engineErr (s : State) (u e : Nat) (t : Task) (x : UnitErr) : State :=
  let b := engBase u
  let s := setR s (b + 0x30) (reg (2 ^ 31 + 256 * (if u < 132 then e % 2 ^ 14 else b2n (u == 197)) + x.code))
  let s := setR (setR s (b + 0x34) (reg x.addr)) (b + 0x38) (reg (x.addr / 2 ^ 32))
  let s := raise (if u < 132 then inc s (b + 0x60) else if u < 196 then inc s (b + 0x4C) else s) (b + 0x20) 1
  errEntry s t u x.code x.addr

/-- R278, R340: an error that a task's unit has met and not yet reported is recorded and reported although a squash or the
stage's window ends the task. -/
def noteError (s : State) (e : Nat) (t : Task) : State :=
  match t.err, t.units with
  | some x, u :: _ =>
    if ¬ t.onUnits then s else if 64 ≤ u ∧ u < 128 then haltChannel s (u - 64) t x
    else if 128 ≤ u then engineErr s u e t x else s
  | _, _ => s

/-- R162, R173, R178: the generations with which a task is discarded: its stage generation and its data generation, as its
descriptor, its packet, its cores and its saved contexts hold them. An encode stage goes with its data generation alone. -/
def taskGens (s : State) (e : Nat) (t : Task) : List Nat :=
  let saved := s.tcs.flatMap fun p => (p.2.store ++ p.2.dram).filterMap fun x =>
    if x.entry == e && x.order == t.order then some x.ctx.d else none
  let cores := if t.ttype = 5 ∨ t.ttype = 9 then t.units.map fun u => (getTc s u).core.d else []
  let words := (t.packet.map fun p => p.1.map QWord.gen).getD []
  ((if encodes t then [] else [t.gen]) ++ t.dataGen :: cores ++ saved ++ words).filter (· != 0)

/-- R178 step 2, R246, R251, R278, R340: one task discarded, with no completion update; what its unit has met it still reports.
A served stage that goes on counts it among the tasks it has had. -/
def squashTask (s : State) (e : Nat) (t : Task) : State :=
  let s := noteError s e t
  let s := if t.onUnits then countAbort (codecFail s t) t else s
  let s := inc s (htsBase + 0x34)
  match t.parent with
  | some _ => releaseServed s e t
  | none => removeTask s e t

/-- R130, R178 step 2: the tasks of a list of generations discarded; an accepted encode stage goes on without its completion
update (R499). Served stages go before their tasks. -/
def squashTasks (s : State) (gens : List Nat) : State :=
  let hit (l : List Nat) : Bool := l.any gens.contains
  let s := { s with sched := { s.sched with
    posted := s.sched.posted.filter fun t => !(gens.contains t.gen && t.gen != 0) } }
  let mine := s.sched.tasks.filter fun p => hit (taskGens s p.1 p.2)
  let s := ((mine.filter fun p => p.2.parent.isNone) ++ mine.filter fun p => p.2.parent.isSome).foldl
    (fun s p => squashTask s p.1 p.2) s
  let cancel (p : Nat × Task) : Nat × Task :=
    if encodes p.2 ∧ gens.contains p.2.gen ∧ p.2.gen ≠ 0 then (p.1, { p.2 with cancelled := true }) else p
  { s with sched := { s.sched with tasks := s.sched.tasks.map cancel } }

/-- A packet's words with every generation of a list of words replaced. -/
def mapWords (f : Nat → Nat) (l : List QWord) : List QWord := l.map fun w => { w with gen := f w.gen }

/-- A task's carriers rewritten. -/
def Task.mapGen (f : Nat → Nat) (t : Task) : Task :=
  { t with gen := f t.gen, dataGen := f t.dataGen, packet := t.packet.map fun p => (mapWords f p.1, p.2) }

/-- A tensor core's carriers rewritten: those of its task and of the contexts it keeps. -/
def TcHw.mapGen (f : Nat → Nat) (h : TcHw) : TcHw :=
  let core (k : TCore) : TCore := { k with d := f k.d, link := k.link.map fun x => { x with gen := f x.gen } }
  let kept (x : TcSaved) : TcSaved := { x with ctx := core x.ctx }
  { h with core := core h.core, store := h.store.map kept, dram := h.dram.map kept }

/-- R164: the carriers that stages and cores hold rewritten. -/
def mapCarriers (s : State) (f : Nat → Nat) : State :=
  { s with
    sched := { s.sched with
      tasks := s.sched.tasks.map fun p => (p.1, p.2.mapGen f),
      posted := s.sched.posted.map (Task.mapGen f) },
    tcs := s.tcs.map fun p => (p.1, p.2.mapGen f) }

/-- R96: registers tagged with one of the generations cleared; so is what an instruction that waits has read of one: a word of
an `ENQ` is gone, the data of a `PSET` is 0. -/
def squashRegs (s : State) (gens : List Nat) : State :=
  let bad (g : Nat) : Bool := gens.contains g && g != 0
  { s with ctxs := s.ctxs.map fun p =>
      let x := { p.2 with g := p.2.g.map fun r : Nat × (Reg × Nat) => if bad r.2.2 then (r.1, (0, 0)) else r }
      (p.1, match x.wait with
        | some (.credit _ _ w _) => if bad w.gen then { x with wait := none, rst := .run, pc := x.pc + 1 } else x
        | some (.pset i woff _ tag) => if bad tag then { x with wait := some (.pset i woff 0 0) } else x
        | _ => x) }

/-- What the notice of a squashed frame says: REASON, DETAIL and UNIT. -/
abbrev Cause := Nat × Nat × Nat

/-- R178: the generation `h` of a squash marked, with the notice its frame will carry. -/
def squashOne (s : State) (h : Nat) (k : Cause) : State :=
  let e := getGen s h
  let s := setGen s h { e with st := .squashed, reason := k.1, detail := k.2.1, unit := k.2.2 }
  let x := getSlot s e.seq e.slot
  let s := setSlot s e.seq e.slot { x with sq := true, held := [], notice := some k }
  let s := match getGraph s e.seq x.ctx with
    | some g => squashFlags s g e.slot
    | none => s
  ghostWait s e.seq e.slot

/-- R177: the cause of a generation in a squash: its own, or, for a dependant, SQUASHED with the frame counter of the
earliest-allocated root it depends on. `roots` stand in the order of allocation. -/
def causeOf (s : State) (roots : List (Nat × Cause)) (h : Nat) : Cause :=
  match roots.find? fun p => p.1 == h with
  | some p => p.2
  | none =>
    let r := getGen s (((roots.find? fun p => (closure s [p.1]).contains h).map Prod.fst).getD h)
    (0xC, (getSlot s r.seq r.slot).frame % 2 ^ 16, 0xFFFF)

/-- R162, R177, R178: generations squashed in one clock, each for its cause, with everything that depends on them; one that is
not live is left alone (R176). No carrier keeps a squashed value: it is removed, reverted, cleared or poisoned. -/
def squashGens (s : State) (causes : List (Nat × Cause)) : State :=
  let roots := sortL (causes.filter fun p => p.1 != 0 && p.1 != 0xFF && (getGen s p.1).st == .live)
    fun a b => decide ((getGen s a.1).order ≤ (getGen s b.1).order)
  let gens := closure s (roots.map Prod.fst).eraseDups
  if gens.isEmpty then s
  else
    let s := (gens.map fun h => (h, causeOf s roots h)).foldl (fun s p => squashOne s p.1 p.2) s
    let s := { s with held := s.held.filter fun h => !gens.contains h.gen }
    let s := squashTasks s gens
    let s := mapQueues s (squashQueue gens)
    let s := squashRegs s gens
    let s := { s with nstat := s.nstat.filter fun p => !gens.contains p.1,
                      cdc := { s.cdc with pins := s.cdc.pins.filter fun p => !p.gens.any gens.contains },
                      ptags := s.ptags.filter fun p => !gens.contains p.2 }
    let s := mapCarriers s fun g => if gens.contains g then 0 else g
    let s := { s with tags := s.tags.map fun p => if gens.contains p.2 then (p.1, 0xFF) else p }
    (gens.map fun h => (getGen s h).seq).eraseDups.foldl squashPackets (dropAhead s)

/-- R177: one generation squashed. -/
def squashGen (s : State) (g reason detail unit : Nat) : State := squashGens s [(g, reason, detail, unit)]

/-- R55, R102: the slot whose `EPOCH` comes next: OPEN slots that have been squashed are passed over. -/
def advanceEve (s : State) (n : Nat) : State :=
  (List.range 4).foldl (fun s _ =>
    let q := getSeq s n
    let x := getSlot s n q.nextEve
    if x.st = .open_ ∧ x.notice.isSome then setSeq s n { q with nextEve := (q.nextEve + 1) % 4 } else s) s

/-- R101, R129: an OPEN slot squashed: it has no generation; its packet is its notice. It stays OPEN until the packet is
out (R53, log entry 114). -/
def squashOpen (s : State) (n i : Nat) (k : Cause) : State :=
  let x := getSlot s n i
  if x.st = .open_ ∧ x.notice.isNone then
    squashPackets (advanceEve (setSlot s n i { x with sq := true, notice := some k }) n) n
  else s

/-- Slots (sequencer, slot) squashed in one clock for one cause: EVE ones by their generations, OPEN ones at once (R101, R105,
R129). -/
def squashSlots (s : State) (l : List (Nat × Nat)) (k : Cause) : State :=
  let s := squashGens s (l.filterMap fun p =>
    let x := getSlot s p.1 p.2
    if x.st = .eve ∧ ¬ x.sq then some (x.gen, k) else none)
  l.foldl (fun s p => squashOpen s p.1 p.2 k) s

/-- One slot squashed. -/
def squashSlot (s : State) (n i reason detail unit : Nat) : State := squashSlots s [(n, i)] (reason, detail, unit)

/-- R235: a task for which no unit is left is removed, and its slot squashed with REASON FENCED. -/
def fenceRemove (s : State) (e : Nat) (t : Task) (u : Nat) : State :=
  raise (removeTask (squashSlot s t.src t.slot 9 0 u) e t) (htsBase + 0x10) 3

/-! ### Commit (R163, R164, R176) -/

/-- R164, R173, R176: a generation committed: every carrier of it reads as 0 from now on, and a stage of it that stands at the
dating gate goes on as a remainder (R175). -/
def commitGen (s : State) (g : Nat) : State :=
  let e := getGen s g
  let s := setGen s g { e with st := .dated }
  let s := commitFlags s g
  let s := { s with
    gens := s.gens.map fun p => (p.1, { p.2 with deps := p.2.deps.filter (· != g) }),
    ctxs := s.ctxs.map fun p =>
      (p.1, { p.2 with g := p.2.g.map fun r => if r.2.2 = g then (r.1, (r.2.1, 0)) else r }),
    tags := s.tags.filter fun p => p.2 != g,
    ptags := s.ptags.filter fun p => p.2 != g,
    sched := { s.sched with tasks := s.sched.tasks.map fun p =>
      if p.2.gen = g then (p.1, { p.2 with remainder := true }) else p } }
  let s := mapCarriers s fun x => if x = g then 0 else x
  let s := mapQueues s (scrubQueue g)
  let s := s.nstat.foldl (fun s p =>
    if p.1 = g then setR s (tcBase (p.2.1) + 0x28) (getR s (tcBase p.2.1 + 0x28) ||| reg p.2.2) else s) s
  releaseHeld { s with nstat := s.nstat.filter fun p => p.1 != g } g

/-- R159: the next generation allocated for a slot, the lowest-numbered FREE entry; none when no entry is FREE. -/
def allocGen (s : State) (n c i : Nat) : Option (State × Nat) :=
  (findFrom (fun g => (getGen s g).st == .free) 254 1).map fun g =>
    ({ setGen s g { st := .live, order := s.genOrder, deps := [], seq := n, ctx := c, slot := i } with
        genOrder := s.genOrder + 1 }, g)

/-! ### Pages (R167, R180, R685) -/

/-- Whether a page of an access is poisoned. -/
def poisoned (s : State) (a n : Nat) : Bool := (pagesOf a n).any fun p => tagOf s p == 0xFF

/-- R62, R167: what happens to a slot's copies when it enters OPEN: its flag words take their initial values and the
pages of its PERSLOT EVECAP surfaces tag 0. -/
def openCopies (s : State) (g : Graph) (i frame : Nat) : State :=
  let s := openFlags s g i frame
  let pages := (g.pl.surfaces.filter fun f => bit 0 f.attr && bit 2 f.attr).flatMap fun f =>
    pagesOf (f.addr + i * f.size) f.size
  { s with tags := s.tags.filter fun p => !pages.contains p.1 }

/-- R167: work of generation `x` reads pages: the generation of the data it gets. -/
def readTags (s : State) (x a n : Nat) : State × Nat :=
  mergeAll s x ((pagesOf a n).filterMap fun p => if tagOf s p = 0xFF then none else some (tagOf s p))

/-- R167: work of generation `w` writes pages: each eve-capable page takes the later tag. -/
def writeTags (s : State) (w a n : Nat) : State :=
  (pagesOf a n).foldl (fun s p =>
    if ¬ evecap s p ∨ tagOf s p = 0xFF then s
    else
      let (s, g) := mergeGen s w (tagOf s p)
      setTag s p g) s

/-- R169: whether a write of live generation at an address must wait at the dating gate: a page that is not
eve-capable, host memory, or a region of the other world. -/
def gated (s : State) (u gen a n : Nat) : Bool :=
  eff s gen != 0 &&
    (spaceOf a == .host || (pagesOf a n).any fun p =>
      !evecap s p || (match spaceOf (4096 * p) with
        | .dram => ((regionOf s.fwl.dram p).map fun r => bit 29 r.2.flags.toNat != unitWorld s u).getD false
        | .som => ((regionOf s.fwl.som (p - Config.somBase / 4096)).map
            fun r => bit 29 r.2.flags.toNat != unitWorld s u).getD false
        | _ => false))

end Sys2Proof.Machine
end

