-- ==== Sys2Proof/Machine/Sched.lean ====
section
/-!
DEFINITION. The task scheduler (spec/08_scheduler.md): tasks and their order (R224 to R231), placement (R232 to R235),
preemption (R236 to R238), served stages (R239 to R241), ordered flows (R242 to R247), activations (R248), and the
events that move a task along. Log entries 10 and 11 name the model's readings.
-/
namespace Sys2Proof.Machine

/-- What a meaning answers. -/
abbrev Res := Host.Outcome State Fault Refusal

/-- R223: the pool a unit type targets. -/
def poolOf (ttype : Nat) : PoolId :=
  if ttype = 0 then .str else if ttype = 1 then .flw else if ttype = 2 then .ftr else if ttype = 3 then .wrp
  else if ttype = 4 then .pyr else if ttype = 5 ∨ ttype = 9 then .tc else if ttype = 6 then .gth
  else if ttype = 7 then .dma else .cdc

/-- R223: pools whose running work can be preempted. -/
def preemptible : PoolId → Bool
  | .tc | .gth | .dma => true
  | _ => false

/-- R228: the rank of a task's list: timed lists by PRIO, then the lantern list, then best-effort lists by PRIO. -/
def rank (t : Task) : Nat := if t.tier = 0 then 100 + t.prio else if t.tier = 1 then 50 else t.prio

/-- R228: whether `a` comes before `b` in the dispatch order. -/
def before (a b : Task) : Bool :=
  decide (rank b < rank a) || (rank a == rank b &&
    (decide (a.ready < b.ready) || (a.ready == b.ready &&
      (decide (a.src < b.src) || (a.src == b.src && decide (a.order < b.order))))))

/-- R591: a unit that takes work. -/
def enabled (s : State) (u : Nat) : Bool := (getUnit s u).mstate == .enabled

/-- Whether a unit can take a task now: enabled, unoccupied, and, for a DMA channel, not halted (R267). -/
def unitFree (s : State) (u : Nat) : Bool :=
  enabled s u && (occupant s u).isNone && !(64 ≤ u && u < 128 && s.dmaHalt.contains (u - 64))

/-- A task whose block sets SERVE and that is itself the stage. -/
def isServeStage (s : State) (t : Task) : Bool :=
  (t.ttype == 5 || t.ttype == 6) && t.parent.isNone && t.lid.isNone && blkServe s t.pblk

/-- R245: within the 256 tasks of its flow's window. -/
def inFlowWindow (s : State) (t : Task) : Bool :=
  match t.flow with
  | none => true
  | some f => decide ((t.fseq + 2 ^ 16 - (getFlow s f).release) % 2 ^ 16 < 256)

/-- Tasks of the same gather stage that hold threads (R478). -/
def stageHolders (s : State) (t : Task) : Nat :=
  (s.sched.tasks.filter fun p => p.2.onUnits && p.2.ttype == 6 && p.2.parent == t.parent && t.parent.isSome).length

/-- R478: CONC of a served gather stage, as its block was read at acceptance. -/
def stageConc (s : State) (t : Task) : Nat := ((t.parent.bind (getTask s)).map fun p => leAt p.block 12 1).getD 1

/-- R230: eligible: ready, within its flow's window, under its stage's CONC, and, for a lantern chunk, not pinned to a
unit that runs timed work. A served stage itself is never placed. -/
def eligible (s : State) (t : Task) : Bool :=
  t.st == .ready && !isServeStage s t && inFlowWindow s t
    && (t.ttype != 6 || t.parent.isNone || decide (stageHolders s t < stageConc s t))
    && (t.lid.isNone || match occupant s (unitOfType t.ttype t.inst) with
        | some (_, o) => o.tier != 0
        | none => true)

/-- R228, R230: the first eligible task of a pool. -/
def firstEligible (s : State) (p : PoolId) : Option (Nat × Task) :=
  (s.sched.tasks.filter fun x => poolOf x.2.ttype == p && eligible s x.2).foldl
    (fun acc x => match acc with
      | none => some x
      | some y => if before x.2 y.2 then some x else some y) none

/-- The largest power of two not greater than `n` (`n` from 1 to 64). -/
def pow2Floor (n : Nat) : Nat :=
  if 64 ≤ n then 64 else if 32 ≤ n then 32 else if 16 ≤ n then 16 else if 8 ≤ n then 8 else if 4 ≤ n then 4
  else if 2 ≤ n then 2 else 1

/-- R232: the first cores of the runs a tensor task of `n` cores may take. -/
def runStarts (n : Nat) : List Nat :=
  (List.range 64).filter fun a => a % pow2Floor n == 0 && decide (a + n - 1 ≤ 63)

/-- The cores of a run. -/
def runCores (a n : Nat) : List Nat := (List.range n).map (a + ·)

/-- R233: threads of a partition held by tasks of a tier's share. -/
def threadsHeld (s : State) (p : Nat) (be : Bool) : Nat :=
  sumN (s.sched.tasks.map fun x =>
    if x.2.onUnits && x.2.units.contains (128 + p) && (x.2.tier == 2) == be then x.2.threads else 0)

/-- R233: threads of a tier's share. -/
def threadShare (be : Bool) : Nat := if be then 128 else 1920

/-- R109: whether a unit belongs to the world of a task's graph. -/
def worldFits (s : State) (t : Task) (u : Nat) : Bool :=
  t.src == 0xFF || unitWorld s u == unitWorld s (176 + t.src)

/-- R232 to R234: the units a task would be placed on now. -/
def placeOn (s : State) (t : Task) : Option (List Nat) :=
  if t.ttype = 5 then
    ((runStarts t.cores).find? fun a => (runCores a t.cores).all fun c => unitFree s c).map fun a => runCores a t.cores
  else if t.ttype = 6 then
    let fits (p : Nat) : Bool := enabled s (128 + p) && worldFits s t (128 + p) &&
      decide (threadsHeld s p (t.tier == 2) + t.threads ≤ threadShare (t.tier == 2))
    if t.anyInst then ((List.range 4).find? fits).map fun p => [128 + p]
    else if fits t.inst then some [128 + t.inst] else none
  else if t.anyInst then
    ((List.range (instances t.ttype)).find? fun i =>
      unitFree s (unitOfType t.ttype i) && worldFits s t (unitOfType t.ttype i)).map fun i => [unitOfType t.ttype i]
  else if unitFree s (unitOfType t.ttype t.inst) then some [unitOfType t.ttype t.inst] else none

/-- R254: the bucket of the waiting-time histogram for a wait in nanoseconds. -/
def histBucket (w : Nat) : Nat :=
  let u := w / 1000
  ((List.range 15).find? fun b => decide (u < 2 ^ b)).getD 15

/-- R254: a first dispatch entered in its histogram. -/
def countWait (s : State) (t : Task) : State :=
  let h := if t.tier = 1 then 32 else t.tier * 32 + t.prio
  inc s (htsBase + 0x1000 + 64 * h + 4 * histBucket (now s - t.ready))

/-- R235: a dispatch's stale unit, if a unit of the task has an epoch other than the one the dispatch carries. -/
def staleUnit (s : State) (t : Task) : Option Nat :=
  t.units.find? fun u => htsEpoch s u != (getUnit s u).epoch

/-- A stage as its `KICK` issued it: not yet accepted (R110). -/
def Task.isKick (t : Task) : Bool := t.first.isNone && t.parent.isNone && decide (t.src < 20)

/-- R110: whether the pinned unit of a `KICK` has an epoch other than the one the sequencer held. -/
def staleKick (s : State) (t : Task) : Bool :=
  t.pinned && t.isKick && (getUnit s (unitOfType t.ttype t.inst)).epoch != t.uepoch

/-- R229, R235: a task returned to its list unchanged. -/
def backToList (s : State) (e : Nat) (t : Task) : State := setTask s e { t with st := .ready, units := [] }

/-- R229, R250: a preempted task returns to its list, where a new ready period begins. -/
def preempted (s : State) (e : Nat) (t : Task) : State :=
  backToList s e { t with readySince := now s, starved := false }

/-- R110: a `KICK` rejected for a stale epoch: the sequencer re-reads the unit and reissues, or its slot is squashed
with REASON FENCED. -/
def rejectKick (s : State) (e : Nat) (t : Task) : State :=
  let u := unitOfType t.ttype t.inst
  let s := inc s (seqBase t.src + 0x30)
  let ep := (getUnit s u).epoch
  let s := { s with sched := { s.sched with seqEpochs := kvPut s.sched.seqEpochs (256 * t.src + u) ep } }
  if enabled s u then backToList s e { t with uepoch := ep }
  else squashSlot s t.src t.slot 9 0 u

/-- R235: no run or unit is left for a task: the lowest-numbered unit that is not enabled among those it may take. -/
def noUnitLeft (s : State) (t : Task) : Option Nat :=
  if t.ttype = 5 then
    if (runStarts t.cores).any fun a => (runCores a t.cores).all fun c => enabled s c then none
    else (sortL ((runStarts t.cores).flatMap fun a => runCores a t.cores) (fun a b => decide (a ≤ b))).find?
      fun c => !enabled s c
  else if t.pinned ∧ ¬ enabled s (unitOfType t.ttype t.inst) then some (unitOfType t.ttype t.inst)
  else none

/-- R110, R235: a task for which no unit is left is removed; the `KICK` of a unit that has been fenced since it was issued counts
as rejected. -/
def dropUnplaceable (s : State) (e : Nat) (t : Task) (u : Nat) : State :=
  fenceRemove (if staleKick s t then inc s (seqBase t.src + 0x30) else s) e t u

/-- R110, R235: a dispatch rejected by unit `u`: the scheduler re-reads the unit; the task returns to its list, or is removed
with its slot squashed. The first dispatch of a stage is its `KICK`, which the sequencer counts too. -/
def rejectDispatch (s : State) (e : Nat) (t : Task) (u : Nat) : State :=
  let s := raise (inc s (htsBase + 0x2C)) (htsBase + 0x10) 2
  let s := if t.isKick then inc s (seqBase t.src + 0x30) else s
  let s := { s with sched := { s.sched with epochs := kvPut s.sched.epochs u (getUnit s u).epoch } }
  match noUnitLeft s t with
  | some w => fenceRemove s e t w
  | none => backToList s e t

/-- R168: the generation of a stage with the tags of the parameter-block words it reads. -/
def blockGen (s : State) (gen a n : Nat) : State × Nat :=
  mergeAll s gen ((s.ptags.filter fun p => decide (a ≤ p.1 ∧ p.1 < a + n)).map Prod.snd)

/-- R111: the bytes a target reads of its parameter block at acceptance. -/
def blockLen (s : State) (t : Task) : Nat :=
  if t.ttype = 5 then 64 * peekN s (t.pblk + 2) 1
  else if t.ttype = 0 ∨ t.ttype = 1 then 192
  else if t.ttype = 2 ∨ t.ttype = 3 ∨ t.ttype = 4 then 128
  else 64

/-- R111: `PSET`s of the context that waited for a `KICK` now accepted are made. -/
def releasePset (s : State) (n c : Nat) : State :=
  let x := getCtx s n c
  match x.wait with
  | some (.pset i woff v tag) =>
    match getGraph s n c with
    | some g =>
      let a := g.pl.params + i * (64 * cdiv g.pl.paramLen 64) + 4 * woff
      let blocked := (s.sched.tasks.map Prod.snd ++ s.sched.posted).any fun t =>
        t.src == n && t.ctx == c && t.slot == i && t.first.isNone && t.served.isNone && t.parent.isNone
          && decide (t.pblk ≤ a ∧ a < t.pblk + blockLen s t)
      if blocked then s
      else
        let s := poke s a (leBytes 4 v.toNat)
        let s := { s with ptags := if tag = 0 then kvDel s.ptags a else kvPut s.ptags a tag }
        setCtx s n c { x with wait := none, rst := .run, pc := x.pc + 1 }
    | none => s
  | _ => s

/-- GTH_CNT_BUSYUS: a partition holds a task from now on. -/
def beginBusy (s : State) (t : Task) : State :=
  match t.units with
  | [u] => if 128 ≤ u ∧ u < 132 ∧ ¬ s.gthBusy.any fun p => p.1 == u then { s with gthBusy := kvPut s.gthBusy u (now s) } else s
  | _ => s

/-- R107, R224, R239: a stage accepted: its parameter block is read, its window starts; a served stage turns its
receiver's notices into tasks. -/
def acceptTask (s : State) (e : Nat) (t : Task) : State :=
  let (s, d) := blockGen s t.gen t.pblk (blockLen s t)
  let s := countWait (inc s (htsBase + 0x24)) t
  let s := match t.parent.bind (getTask s) with
    | some p => if p.first.isNone then setTask s (t.parent.getD 0) { p with first := some (now s) } else s
    | none => s
  let s := setTask s e { t with st := .running, first := some (now s), since := now s, dataGen := d,
                                block := peek s t.pblk (blockLen s t) }
  releasePset (beginBusy s t) t.src t.ctx

/-- R239: a served stage accepted. -/
def acceptServe (s : State) (e : Nat) (t : Task) : State :=
  let (s, d) := blockGen s t.gen t.pblk (blockLen s t)
  let q := blkQueue s t.pblk
  let r := blkRecv s t.pblk
  let x := getQ s q
  let s := setQ s q (setRecv x r { nth {} x.recvs r with kind := 2, target := t.ttype })
  let fl := if blkOrdered s t.pblk then
    ((getGraph s t.src t.ctx).bind fun g =>
      (g.pl.flows.find? fun p => p.1 == t.kickPc).map Prod.snd)
    else none
  let s := setTask s e { t with st := .running, dataGen := d, flow := fl, block := peek s t.pblk (blockLen s t),
                                served := some ⟨q, r, blkPcount s t.pblk, 0, 0⟩, threads := blkThreads s t.pblk }
  releasePset s t.src t.ctx

/-- KICK_REJECT_STALE_EPOCH (R110). -/
def execKickRejectStaleEpoch (e : Nat) (s : State) : Res :=
  .next <| match getTask s e with
  | some t => if t.st = .placed ∧ staleKick s t then rejectKick s e t else s
  | none => s

/-- DISPATCH_REJECT_STALE_EPOCH (R235). -/
def execDispatchRejectStaleEpoch (e : Nat) (s : State) : Res :=
  .next <| match getTask s e with
  | some t =>
    if t.st ≠ .placed then s
    else match staleUnit s t with
      | some u => rejectDispatch s e t u
      | none => s
  | none => s

/-- R488: a gather task that resumes reads again the rows whose responses it discarded: a number that the rule leaves open, up
to the 4,096 reads a partition has in flight. -/
def rereadRows (s : State) (u : Nat) (t : Task) : State :=
  if t.ttype = 6 ∧ t.outs.isNone then
    incBy { s with uses := s.uses + 1 } (gthBase (u - 128) + 0x70) (Config.gthAhead s.uses % 4097)
  else s

/-- R230, R425: a task placed on units; a preempted one resumes there at once. -/
def dispatchOn (s : State) (e : Nat) (t : Task) (us : List Nat) : State :=
  if t.first.isSome then
    let s := rereadRows (setTask s e { t with st := .running, units := us, saved := false, since := now s }) (nth 128 us 0) t
    inc (beginBusy s { t with units := us }) (htsBase + 0x24)
  else setTask s e { t with st := .placed, units := us }

/-- R236: whether a waiting task may preempt an occupant: it outranks it, the occupant is running and has met no error (R278), and
nothing preempts a lantern chunk, which itself preempts TIER 2 only (R237). -/
def outranks (w o : Task) : Bool :=
  decide (rank o < rank w) && o.err.isNone && o.lid.isNone && !(o.dma.map DmaRun.long).getD false && (w.tier != 1 || o.tier == 2) && o.st != .placed

/-- R236: tasks that occupy any of a list of units. -/
def occupants (s : State) (us : List Nat) : List (Nat × Task) :=
  s.sched.tasks.filter fun p => p.2.onUnits && p.2.units.any us.contains

/-- R236: the candidate sets of units of a waiting task, each with its occupants: a run with the tasks on its cores; a channel
with the task on it; a partition with the tasks that hold threads of the share of the waiting task's tier (log entry 11). -/
def preemptSets (s : State) (t : Task) : List (List Nat × List (Nat × Task)) :=
  if t.ttype = 5 then (runStarts t.cores).map fun a => (runCores a t.cores, occupants s (runCores a t.cores))
  else if t.ttype = 6 then
    (if t.anyInst then List.range 4 else [t.inst]).map fun p =>
      ([128 + p], (occupants s [128 + p]).filter fun o => (o.2.tier == 2) == (t.tier == 2))
  else if t.ttype = 7 ∨ t.ttype = 9 then
    (if t.anyInst then List.range (instances t.ttype) else [t.inst]).map fun i =>
      ([unitOfType t.ttype i], occupants s [unitOfType t.ttype i])
  else []

/-- R236: the share of a candidate set that is busy: its busy cores or channels, or the threads held. -/
def busyShare (s : State) (t : Task) (us : List Nat) (os : List (Nat × Task)) : Nat :=
  if t.ttype = 6 then sumN (os.map fun o => o.2.threads) else (us.filter fun u => (occupant s u).isSome).length

/-- R236, R424: whether a set of units qualifies: its units take work, and the waiting task outranks every occupant, of which
each must be one that `can` stop. -/
def qualifies (s : State) (can : Task → Bool) (t : Task) (us : List Nat) (os : List (Nat × Task)) : Bool :=
  (us.all fun u => enabled s u && (t.ttype == 5 || worldFits s t u) && !(t.ttype == 7 && s.dmaHalt.contains (u - 64)))
    && os.all fun o => outranks t o.2 && can o.2

/-- R236: the units and victims a waiting task preempts: of the sets that qualify, the one whose highest-ranked occupant is
ranked lowest, then the least busy, then the lowest. -/
def preemptPlan (s : State) (can : Task → Bool) (t : Task) : Option (List Nat × List (Nat × Task)) :=
  ((preemptSets s t).filter fun x => qualifies s can t x.1 x.2).foldl
    (fun (acc : Option (List Nat × List (Nat × Task))) x => match acc with
      | none => some x
      | some y =>
        let top (z : List Nat × List (Nat × Task)) : Nat := maxN (z.2.map fun o => rank o.2)
        let b (z : List Nat × List (Nat × Task)) : Nat := busyShare s t z.1 z.2
        if top x < top y ∨ (top x = top y ∧ b x < b y) then some x else some y) none

/-- SERVED_TASK_READY (R239 to R241, R243): a packet that waits on a served stage's receiver makes a task ready, while
fewer than 16 of the stage's tasks are ready or running and fewer than PCOUNT have been made. -/
def execServedTaskReady (e : Nat) (s : State) : Res :=
  .next <| match getTask s e with
  | none => s
  | some t =>
    match t.served with
    | none => s
    | some v =>
      let kids := children s e
      let waiting := (kids.filter fun k => !k.2.taken).length
      let avail := packetsFor (getQ s v.queue) (nth {} (getQ s v.queue).recvs v.recv)
      if 16 ≤ (kids.filter fun k => k.2.st != .complete).length ∨ v.pcount ≤ v.created ∨ avail ≤ waiting then s
      else match freeEntry s t.src with
        | none => raise s (htsBase + 0x10) 1
        | some k =>
          let (s, fs) := match t.flow with
            | some f =>
              let x := getFlow s f
              (setFlow s f { x with assign := (x.assign + 1) % 2 ^ 16 }, x.assign)
            | none => (s, 0)
          let s := setTask s e { t with served := some { v with created := v.created + 1 } }
          let o := s.sched.order
          let s := cancelDoze { s with sched := { s.sched with order := o + 1 } }
          setTask s k { t with st := .ready, parent := some e, served := none, win := none, wdog := none, fseq := fs,
                               first := none, units := [], ready := now s, readySince := now s, order := o,
                               taken := false, index := v.created }

/-- R107, R243: the work of a task is done: a served task of an ordered flow waits for its turn, any other is released
or finished. -/
def completeTask (s : State) (e : Nat) : State :=
  match getTask s e with
  | none => s
  | some t =>
    match t.parent with
    | none => finishTask s e
    | some _ =>
      match t.flow with
      | none => releaseServed s e t
      | some f =>
        if (getFlow s f).release = t.fseq then releaseServed s e t
        else setTask (leaveUnits s t) e { t with st := .complete, units := [] }

/-- FLOW_RELEASE (R243): the oldest unreleased task of a flow releases once it has completed. -/
def execFlowRelease (f : Nat) (s : State) : Res :=
  .next <| match s.sched.tasks.find? fun p => p.2.flow == some f && p.2.st == .complete
      && p.2.fseq == (getFlow s f).release with
  | some (e, t) => releaseServed s e t
  | none => s

/-- R244: whether a task of an ordered flow must wait before its first enqueue. -/
def flowHeld (s : State) (t : Task) : Bool :=
  match t.flow with
  | some f => t.parent.isSome && (getFlow s f).release != t.fseq
  | none => false

/-- FLOW_ENQUEUE_HOLD_RELEASE (R244): a task that waited at its first enqueue goes on once every earlier task of its
flow has released; the wait is counted. -/
def execFlowEnqueueHoldRelease (e : Nat) (s : State) : Res :=
  .next <| match getTask s e with
  | some t =>
    if t.st = .running ∧ s.flowWait.contains e ∧ ¬ flowHeld s t then
      inc { s with flowWait := s.flowWait.filter (· != e) } (htsBase + 0x30)
    else s
  | none => s

/-- R223, R248: an activation of a utility sequencer: its descriptor takes a task entry; beyond four activations it waits in the
pool. -/
def activate (s : State) (n : Nat) (a : Activation) : State :=
  let q := getSeq s n
  let a := { a with entry := freeEntry s n }
  if q.acts.length < 4 then setSeq s n { q with acts := q.acts ++ [a] }
  else { s with sched := { s.sched with acts := s.sched.acts ++ [(n, a)] } }

/-- R225: the 64 bytes of a task descriptor. -/
def taskBytes (t : Task) : List Byte :=
  withCrc (leBytes 1 t.tkind ++ leBytes 1 (t.prio + 32 * t.tier) ++ leBytes 1 t.cores ++ leBytes 1 t.src
    ++ leBytes 2 (t.flow.getD 0xFFFF) ++ leBytes 2 t.fseq ++ leBytes 2 (t.ttype * 64 + t.inst) ++ leBytes 2 t.uepoch
    ++ leBytes 2 t.threads ++ leBytes 1 (t.wdog.getD 0xFF) ++ leBytes 1 t.stage
    ++ leBytes 8 t.entry ++ leBytes 8 t.pblk ++ leBytes 4 t.frame ++ leBytes 1 t.stream ++ leBytes 1 t.slot
    ++ leBytes 1 t.gen ++ leBytes 1 (b2n t.cmode) ++ leBytes 2 t.cflag ++ leBytes 2 0 ++ leBytes 4 0
    ++ leBytes 8 t.ready ++ leBytes 4 0)

/-- R225: the descriptor of an activation that waits for sequencer `n`: TKIND 5; TGT, which R108 gives no sequencer, is 0 (log
entry 115). -/
def actDesc (s : State) (n : Nat) (a : Activation) : Task :=
  let g := getGraph s n (getSeq s n).newCtx
  { tkind := 5, prio := (g.map fun g => g.hdr.prio).getD 0,
    tier := if n = 17 then 1 else if (g.map fun g => g.hdr.deadline) = some 0 then 2 else 0,
    src := n, frame := a.frame, stream := n, ready := a.ready }

/-- R225, R254: the descriptor that a task entry holds. -/
def heldDesc (s : State) (e : Nat) : Option Task :=
  (getTask s e).orElse fun _ =>
    let acts := (s.seqs.flatMap fun p => p.2.acts.map fun a => (p.1, a)) ++ s.sched.acts
    (acts.find? fun p => p.2.entry == some e).map fun p => actDesc s p.1 p.2

/-- R254: a read of HTS_SNAP at 0x8040 takes a snapshot of the descriptor HTS_SNAP_SEL selects; an entry that is not held, or one
of a secure graph read from the non-secure world, reads 0. -/
def snapRead (secure : Bool) (s : State) : State :=
  let bytes := match heldDesc s (field s (htsBase + 0x8000) 13 0) with
    | some t => if ¬ secure ∧ t.src ≠ 0xFF ∧ unitWorld s (176 + t.src) then zeros 64 else taskBytes t
    | none => zeros 64
  let s := (List.range 16).foldl (fun s i => setR s (htsBase + 0x8040 + 4 * i) (reg (leAt bytes (4 * i) 4))) s
  emit s (.readData (b2n secure) (bytes.take 4))

/-- HTS_SNAP (R254). -/
def execHtsSnap (secure : Bool) (s : State) : Res :=
  .next <| ctlAccess secure false (flag s (fwlBase + 0xA0) 1) (htsBase + 0x8040) s (snapRead secure)

end Sys2Proof.Machine
end

