-- ==== Sys2Proof/Machine/Elapse.lean ====
section
/-!
DEFINITION. Module time that passes (log entry 2), and the counters of clocks that pass with it (log entry 19): full pools (R249),
waiting sequencers (R131), tensor cores that wait (R406, R407, R412), paced channels (R266) and movers with a choice (R257);
and the order in which slots were submitted to the checker (R520).
-/
namespace Sys2Proof.Machine

/-! ### Contexts of tensor cores (R422, R424) -/

/-- R422: a saved context that its task can still resume from. -/
def savedLive (s : State) (x : TcSaved) : Bool :=
  match getTask s x.entry with
  | some t => t.order == x.order && t.saved
  | none => false

/-- R422, R424: room for a context of core `c`: a free slot in its store or in its area of DRAM. -/
def ctxRoom (s : State) (c : Nat) : Bool :=
  let h := getTc s c
  decide ((h.store.filter (savedLive s)).length < 8 ∨ (h.dram.filter (savedLive s)).length < 256)

/-- R424: whether a task can be stopped: every core of a tensor task has room for its context. -/
def canStop (s : State) (t : Task) : Bool := t.ttype != 5 || t.units.all (ctxRoom s)

/-- R249: whether a pool is full: its first eligible task can be placed nowhere and can preempt nothing. -/
def poolFull (s : State) (p : PoolId) : Bool :=
  match firstEligible s p with
  | some (_, t) => (placeOn s t).isNone && (!preemptible p || (preemptPlan s (canStop s) t).isNone)
  | none => false

/-- HTS_BP_POOL (R254): the pools in the order of their counters. -/
def poolOrder : List PoolId := [.tc, .gth, .dma, .str, .flw, .ftr, .wrp, .pyr, .cdc, .seq]

/-! ### What a DMA channel waits for (R257, R266) -/

/-- The running task of channel `i` with its DMA progress. -/
def chTask (s : State) (i : Nat) : Option (Nat × Task × DmaRun) :=
  match occupant s (64 + i) with
  | some (e, t) => if t.st = .running ∧ t.err.isNone then t.dma.map fun d => (e, t, d) else none
  | none => none

/-- Fields of a descriptor (R258, R259). -/
def dNext (l : List Byte) : Nat := leAt l 0 8
def dSrc (l : List Byte) : Nat := leAt l 8 8
def dDst (l : List Byte) : Nat := leAt l 16 8
def dLen (l : List Byte) : Nat := leAt l 24 4
def dLines (l : List Byte) : Nat := leAt l 28 4
def dSstride (l : List Byte) : Nat := leAt l 32 4
def dDstride (l : List Byte) : Nat := leAt l 36 4
def dCtl (l : List Byte) : Nat := leAt l 40 4
def dSmode (l : List Byte) : Nat := bits 1 0 (dCtl l)
def dDmode (l : List Byte) : Nat := bits 3 2 (dCtl l)
def dSwap (l : List Byte) : Nat := bits 5 4 (dCtl l)
def dPark (l : List Byte) : Bool := bit 6 (dCtl l)
def dBurst (l : List Byte) : Nat := 64 * 2 ^ bits 11 9 (dCtl l)
def dSwrap (l : List Byte) : Nat := bits 16 12 (dCtl l)
def dDwrap (l : List Byte) : Nat := bits 21 17 (dCtl l)

/-- R266: whether a paced task may run at a burst boundary, given its state. -/
def paceRuns (s : State) (d : DmaRun) : Bool :=
  let level := heldCells (getQ s d.pqid)
  if d.pmode = 0 ∨ (d.pstart ∧ d.fresh) then true
  else if d.pmode = 1 then
    if d.st = .pace then decide (d.high ≤ level) else decide (d.low < level)
  else if d.st = .pace then decide (level ≤ d.low) else decide (level < d.high)

/-- R263: the words of the image that a channel has read whole; none while bytes of it are still to be read. -/
def imageRead (d : DmaRun) : Option Nat :=
  let n := leAt d.buf 0 2
  if d.buf.isEmpty ∨ d.buf.length < 64 * (1 + cdiv n 8) then none else some n

/-- R257, R263: whether channel `i` has a burst ready: not while it waits on an empty source queue or for queue credit. -/
def burstReady (s : State) (i : Nat) : Bool :=
  match chTask s i with
  | some (_, _, d) => d.phase == .move && d.st != .park && paceRuns s d &&
    (if dSmode d.desc = 2 then !d.buf.isEmpty || (headWords (getQ s (dSrc d.desc)) 0).isSome
      else if dDmode d.desc = 2 then (imageRead d).isNone || !(getQ s (dDst d.desc)).waits.any fun w => w.producer == 64 + i
      else true)
  | none => false

/-! ### What a unit of a tensor core waits for (R406, R407, R412) -/

/-- The unit of a core: execute (true) or fetch. -/
def TCore.unit (k : TCore) (x : Bool) : TcUnit := if x then k.exec else k.fetch
def TCore.setUnit (k : TCore) (x : Bool) (u : TcUnit) : TCore := if x then { k with exec := u } else { k with fetch := u }

/-- R442: the token an instruction needs, and the one it pushes. -/
def needsToken (w : BitVec 128) (x : Bool) : Bool := if x then wf w 117 117 == 1 else wf w 116 116 == 1
def pushesToken (w : BitVec 128) (x : Bool) : Bool := if x then wf w 118 118 == 1 else wf w 119 119 == 1

/-- R407: whether the queue a unit writes has room. -/
def tokenRoom (k : TCore) (x : Bool) : Bool := decide ((if x then k.xq else k.fq) < 64)

/-- R407: whether a unit of a core waits for a token on an empty queue. -/
def waitsToken (k : TCore) (x : Bool) : Bool :=
  let u := k.unit x
  match k.prog[u.pc]? with
  | some w => u.waiting && needsToken w x && !u.granted
  | none => false

/-- R407: whether a unit waits because the queue it pushes on is full. -/
def waitsRoom (k : TCore) (x : Bool) : Bool :=
  match k.prog[(k.unit x).pc]? with
  | some w => pushesToken w x && !tokenRoom k x && !k.ended
  | none => false

/-- The stall counters of a core that count now, by offset: FQSTALL, XQSTALL, PROCSTALL, DIRTYSTALL. -/
def coreStalls (k : TCore) : List Nat :=
  (if waitsToken k true || waitsRoom k false then [0x6C] else [])
    ++ (if waitsToken k false || waitsRoom k true then [0x70] else [])
    ++ (if k.fetch.waiting && k.sent && k.link.isEmpty then [0x74] else [])
    ++ (if k.exec.waiting && k.dirtyWait then [0x78] else [])

/-! ### Slots submitted to the checker (R103, R520) -/

/-- R103 step 1, R174: whether every stage started for a slot is over; one at the dating gate is. -/
def stagesDone (s : State) (n i : Nat) : Bool :=
  let mine (t : Task) : Bool := t.src == n && t.slot == i && !t.remainder
  (s.sched.tasks.all fun p => !mine p.2 || stageStopped s p.1 p.2) && s.sched.posted.all fun t => !mine t

/-- R56, R103: the slot of a sequencer that is being dated: the one whose packet is due, not squashed, with its `DATE`
posted and its stages over. -/
def submitted (s : State) (n : Nat) : Option (Nat × Slot × Dating × Graph) :=
  let i := (getSeq s n).nextOut
  let x := getSlot s n i
  match x.dating, slotGraph s n x with
  | some d, some g => if x.st = .eve ∧ ¬ x.sq ∧ stagesDone s n i then some (i, x, d, g) else none
  | _, _ => none

/-- R520: units of a slot submission that wait: its frame unit, or records not yet judged. -/
def slotWork (s : State) (n : Nat) : Bool :=
  match submitted s n with
  | some (_, _, d, _) => !d.framed || decide (d.verdicts.length < d.nrec.getD 0)
  | none => false

/-- R520: the submissions that wait, each with the module time at which it was made: those not noted yet are made now. -/
def noteSubs (s : State) : List ((Nat × Nat) × Nat) :=
  ((List.range 20).filter (slotWork s)).map fun n =>
    let k := (n, (getSeq s n).nextOut)
    (k, ((s.chk.subs.find? fun p => p.1 == k).map Prod.snd).getD s.time.ns)

/-! ### Time that passes -/

/-- The counters of clocks that stand at the counting condition in a state, each with the clocks of `dt` nanoseconds: fabric
clocks at 1.2 GHz, those of a tensor core at its own. -/
def clockCounts (s : State) (dt : Nat) : List (Nat × Nat) :=
  let fab := dt * 6 / 5
  let pools := (poolOrder.zipIdx.filter fun p => poolFull s p.1).map Prod.snd
  let running := (s.sched.tasks.map Prod.snd).filter fun t => t.st == .running
  let waits (n : Nat) : Bool := [0, 1].any fun c => (getCtx s n c).rst == .wait
  let movers := if running.any fun t => t.ttype == 7 then List.range 8 else []
  (if pools.isEmpty then [] else [(htsBase + 0x38, fab)])
    ++ pools.map (fun p => (htsBase + 0x80 + 4 * p, fab))
    ++ ((List.range 20).filter waits).map (fun n => (seqBase n + 0x24, fab))
    ++ ((running.filter fun t => t.ttype == 5 || t.ttype == 9).flatMap fun t => t.units.flatMap fun c =>
      (coreStalls (getTc s c).core).map fun o => (tcBase c + o, dt * s.clock.cur / 1000))
    ++ ((running.filter fun t => (t.dma.map DmaRun.st) == some .pace).flatMap fun t =>
      t.units.map fun u => (chBase (u - 64) + 0x50, fab))
    ++ (movers.filter fun k => decide (2 ≤ (List.range 8).countP fun c => burstReady s (8 * k + c))).map
      fun k => (dmaBase k + 0x24, fab)

/-- The clocks of `dt` nanoseconds counted; the fast clocks stand still outside RUN (R569, R574). -/
def countClocks (s : State) (dt : Nat) : State :=
  if s.power.st = .run then (clockCounts s dt).foldl (fun s p => incBy s p.1 p.2) s else s

/-- What time that passes finds and leaves noted: the submissions that wait, and the clocks of `dt` nanoseconds. -/
def passing (s : State) (dt : Nat) : State :=
  countClocks { s with chk := { s.chk with subs := noteSubs s } } dt

/-- Module time moved forward to `t`, if it runs and is not there yet: the instant at which an event that the block waits for
falls due (log entry 2). Module time is never stepped back (R14). -/
def advance (s : State) (t : Nat) : State :=
  if timeRuns s ∧ s.time.ns < t then
    { passing s (t - s.time.ns) with time := { s.time with ns := t, frac := 0 } }
  else s

/-- STARVE_LIMIT (R250): a TIER 2 task has been ready for HTS_STARVE_LIMIT µs without interruption. -/
def execStarveLimit (e : Nat) (s : State) : Res :=
  let lim := getN s (htsBase + 0x18)
  .next <| match getTask s e with
  | some t =>
    if t.tier = 2 ∧ t.st = .ready ∧ ¬ t.starved ∧ lim ≠ 0 then
      let s := advance s (t.readySince + 1000 * lim)
      raise (setTask s e { t with starved := true }) (htsBase + 0x10) 0
    else s
  | none => s

end Sys2Proof.Machine
end

