-- ==== Sys2Proof/Machine/SeqWord.lean ====
section
/-!
DEFINITION. The words of the sequencer instructions (R97): what a program bank holds where a context issues an instruction.
-/
namespace Sys2Proof.Machine

/-- R97: a word of OP and fields, each as its lowest bit and its value. -/
def seqWord (op : Nat) (fields : List (Nat × Nat)) : Word :=
  BitVec.ofNat 64 (op * 2 ^ 56 + sumN (fields.map fun f => f.2 * 2 ^ f.1))

/-- R95: the code of a slot selector. -/
def SSel.code : SSel → Nat
  | .cs => 0
  | .ps => 1

/-- R98: the code of FN. -/
def AluFn.code : AluFn → Nat
  | .add => 0
  | .sub => 1
  | .and => 2
  | .or => 3
  | .xor => 4
  | .shl => 5
  | .shr => 6
  | .sra => 7
  | .min => 8
  | .max => 9
  | .minu => 10
  | .maxu => 11

/-- R99: the code of COND. -/
def BrCond.code : BrCond → Nat
  | .eq => 0
  | .ne => 1
  | .lt => 2
  | .ge => 3
  | .ltu => 4
  | .geu => 5
  | .hol => 6
  | .nhol => 7
  | .end_ => 8
  | .nend => 9
  | .sq => 10
  | .nsq => 11

/-- R116: the code of CMP. -/
def FlagCmp.code : FlagCmp → Nat
  | .geu => 0
  | .eq => 1
  | .mask => 2

/-- R118: the code of KIND. -/
def BarKind.code : BarKind → Nat
  | .vis => 0
  | .done => 1
  | .all => 2

/-- R97: I with a register field at bit `r` or an immediate at bit `v`; I stands at bit `i`. -/
def regImmFields {w : Nat} (i r v : Nat) (o : RegImm w) : List (Nat × Nat) :=
  match o with
  | .reg k => [(i, 0), (r, k.val)]
  | .imm k => [(i, 1), (v, k.toNat)]

def wordNop : Word := seqWord 0x00 []
def wordHalt (code : Nat) : Word := seqWord 0x01 [(0, code)]
def wordAlu (fn : AluFn) (gd ga : Nat) (b : RegImm 32) : Word :=
  seqWord 0x09 ([(52, AluFn.code fn), (46, gd), (41, ga)] ++ regImmFields 51 36 0 b)
def wordBr (k : SSel) (cond : BrCond) (ga : Nat) (b : RegImm 16) (target : Nat) : Word :=
  seqWord 0x10 ([(54, SSel.code k), (50, BrCond.code cond), (41, ga), (0, target)] ++ regImmFields 49 36 16 b)
def wordJr (ga : Nat) : Word := seqWord 0x11 [(41, ga)]
def wordEpoch (gd gf : Nat) : Word := seqWord 0x20 [(46, gd), (36, gf)]
def wordDate (k : SSel) (src : RecSrc) (ruleset : Nat) : Word :=
  seqWord 0x21 ([(54, SSel.code k), (0, ruleset)] ++ match src with
    | .reg ga => [(52, 0), (41, ga.val)]
    | .flag f => [(52, 1), (32, f.val)])
def wordSquash (k : SSel) (ga reason : Nat) : Word := seqWord 0x22 [(54, SSel.code k), (41, ga), (0, reason)]
def wordWin (stage wmin wmax : Nat) : Word := seqWord 0x30 [(40, stage), (16, wmin), (0, wmax)]
def wordKick (k : SSel) (tgt cflag : Nat) (set : Bool) (pbidx : Nat) : Word :=
  seqWord 0x40 [(54, SSel.code k), (44, tgt), (36, cflag), (35, b2n set), (12, pbidx)]
def wordPset (k : SSel) (ga woff : Nat) : Word := seqWord 0x41 [(54, SSel.code k), (41, ga), (12, woff)]
def wordWaitf (k : SSel) (cmp : FlagCmp) (b : RegImm 32) (f : Nat) : Word :=
  seqWord 0x50 ([(54, SSel.code k), (52, FlagCmp.code cmp), (32, f)] ++ regImmFields 51 41 0 b)
/-- `SETF`, and `ADDF` with `add` (R97, R117); with RD 0 gd is `gd`, which has no effect. -/
def wordFlag (add : Bool) (k : SSel) (rd : Option Nat) (gd : Nat) (b : RegImm 32) (f : Nat) : Word :=
  seqWord (if add then 0x52 else 0x51)
    ([(54, SSel.code k), (52, b2n rd.isSome), (46, rd.getD gd), (32, f)] ++ regImmFields 51 41 0 b)
def wordBarrier (k : SSel) (kind : BarKind) : Word := seqWord 0x58 [(54, SSel.code k), (52, BarKind.code kind)]
def wordEnq (k : SSel) (last : Bool) (ga qid : Nat) : Word :=
  seqWord 0x60 [(54, SSel.code k), (53, b2n last), (48, ga), (32, qid)]
def wordDeq (blk : Bool) (gd qid : Nat) : Word := seqWord 0x61 [(53, b2n blk), (48, gd), (32, qid)]
def wordTarm (tmr : Nat) (per : Bool) (interval : Nat) : Word := seqWord 0x70 [(48, tmr), (47, b2n per), (0, interval)]
def wordTwait (tmr : Nat) : Word := seqWord 0x71 [(48, tmr)]
def wordTrd (k : SSel) (gd sel : Nat) : Word := seqWord 0x72 [(54, SSel.code k), (46, gd), (40, sel)]
def wordLantern (tgt cflag lid : Nat) : Word := seqWord 0x78 [(44, tgt), (36, cflag), (24, lid)]

end Sys2Proof.Machine
end

