-- ==== Sys2Proof/Machine/Sequencer.lean ====
section
/-!
DEFINITION. The sequencer instruction set Xazo-G (spec/04_sequencer_instruction_set.md, R91 to R131). A command
`(n, c)` is: context `c` of sequencer `n` issues this instruction. A context that is not in RSTATE run issues nothing, and one
whose program counter names another word does not issue this one.
-/
namespace Sys2Proof.Machine

/-! ### Registers and slot selection -/

/-- R91: general register `r` with its eve tag; g0 reads 0 with tag 0. -/
def getG (x : Ctx) (r : Nat) : Reg × Nat := if r = 0 then (0, 0) else kvGet (fun _ => (0, 0)) x.g r

/-- R91: a general register written; a write to g0 is discarded. -/
def setG (x : Ctx) (r : Nat) (v : Reg) (tag : Nat) : Ctx := if r = 0 then x else { x with g := kvPut x.g r (v, tag) }

/-- What a slot selector names (R95). -/
inductive Sel where
  | act (i : Nat)
  | ghost
  | bad
  deriving DecidableEq, Repr

/-- R95: the slot number a selector names: CS, or PS = (CS + 3) mod 4. -/
def selIndex (x : Ctx) (k : SSel) : Option Nat := x.cs.map fun i => if k = .cs then i else (i + 3) % 4

/-- R95: how an instruction that selects a slot behaves. -/
def selSlot (s : State) (n c : Nat) (k : SSel) : Sel :=
  match selIndex (getCtx s n c) k with
  | none => .bad
  | some i =>
    let x := getSlot s n i
    if x.sq then .ghost else if x.st = .eve ∧ x.ctx = c then .act i else .bad

/-- The operand of an instruction: a register with its tag, or an immediate, sign-extended for `BR` (R99). -/
def operand (x : Ctx) {w : Nat} (o : RegImm w) : Reg × Nat :=
  match o with
  | .reg r => getG x r
  | .imm v => (v.signExtend 32, 0)

/-! ### Faults and issue (R94, R128, R129) -/

/-- R101, R129: every OPEN or EVE slot of a context squashed with REASON STOPPED. -/
def stopSlots (s : State) (n c detail : Nat) : State :=
  let start := (getSeq s n).nextOut
  let mine := ((List.range 4).map fun k => (start + k) % 4).filter fun i => decide ((getSlot s n i).ctx = c)
  squashSlots s (mine.map fun i => (n, i)) (0xD, detail, 0xFFFF)

/-- The graph of a context made DRAINING, so that it passes to READY when its slots are FREE (R101, R129). -/
def drainGraph (s : State) (n c : Nat) : State :=
  match getGraph s n c with
  | some g => setGraph s n c { g with st := .draining }
  | none => s

/-- R129: a fault stops the context at the faulting instruction. -/
def seqFault (s : State) (n c code : Nat) : State :=
  let x := getCtx s n c
  let gid := ((getGraph s n c).map fun g => g.hdr.gid).getD 0
  let s := setCtx s n c { x with rst := .faulted, wait := none, faultCode := code, faultPc := x.pc }
  let s := drainGraph (stopSlots s n c code) n c
  let s := diary s 0x20 2 (unitWorld s (176 + n)) { unit := 176 + n, seqn := n, code := code, detail := x.pc, graph := gid }
  raise s (seqBase n + 0x14) 1

/-- R92, R94, R97, R128: a context issues the instruction whose word `is` accepts, where its program counter names such a word:
counted, unless its program has ended or the program bank holds an uncorrectable error there. -/
def issue (n c : Nat) (is : Word → Bool) (s : State) (f : State → Ctx → Graph → State) : Res :=
  let x := getCtx s n c
  .next <| match getGraph s n c with
  | none => s
  | some g =>
    if x.rst ≠ .run then s
    else match g.pl.prog[x.pc]? with
      | none => seqFault s n c 0x02
      | some w =>
        if x.pmemBad.contains x.pc then seqFault s n c 0x0C
        else if is w then f (inc s (seqBase n + 0x20)) x g
        else s

/-- The context goes on with the next instruction. -/
def done (s : State) (n c : Nat) (x : Ctx) : State := setCtx s n c { x with pc := x.pc + 1, rst := .run, wait := none }

/-- The context waits at its instruction. -/
def park (s : State) (n c : Nat) (x : Ctx) (w : Wait) : State := setCtx s n c { x with rst := .wait, wait := some w }

/-- R95: an instruction on a selected slot: it acts, is a ghost, or raises SEQ_SLOT; a squashed slot makes `DATE` and `SQUASH` ghosts
too (log entry 131). -/
def onSlot (s : State) (n c : Nat) (x : Ctx) (k : SSel) (f : Nat → State) : State :=
  match selSlot s n c k with
  | .act i => f i
  | .ghost => done (inc s (seqBase n + 0x2C)) n c x
  | .bad => seqFault s n c 0x03

/-! ### Register and branch instructions (R97 to R101) -/

/-- NOP (R97). -/
def execSeqNop (n c : Nat) (s : State) : Res := issue n c (· == wordNop) s fun s x _ => done s n c x

/-- HALT (R101). -/
def execHalt (n c : Nat) (code : Nat) (s : State) : Res := issue n c (· == wordHalt code) s fun s x _ =>
  let s := setCtx s n c { x with rst := .halted, haltCode := code, wait := none }
  raise (drainGraph (stopSlots s n c 0) n c) (seqBase n + 0x14) 0

/-- R98: the result of an ALU function. -/
def aluFn (fn : AluFn) (a b : Reg) : Reg :=
  let k := b.toNat % 32
  match fn with
  | .add => a + b
  | .sub => a - b
  | .and => a &&& b
  | .or => a ||| b
  | .xor => a ^^^ b
  | .shl => a <<< k
  | .shr => a >>> k
  | .sra => a.sshiftRight k
  | .min => if a.toInt < b.toInt then a else b
  | .max => if a.toInt < b.toInt then b else a
  | .minu => if a.toNat < b.toNat then a else b
  | .maxu => if a.toNat < b.toNat then b else a

/-- ALU (R96, R98): FN of ga and the second operand into gd, with the merged tag of the operands. -/
def execSeqAlu (n c : Nat) (fn : AluFn) (gd ga : Nat) (b : RegImm 32) (s : State) : Res :=
  issue n c (· == wordAlu fn gd ga b) s fun s x _ =>
  let a := getG x ga
  let b := operand x b
  let (s, t) := mergeGen s a.2 b.2
  done s n c (setG x gd (aluFn fn a.1 b.1) t)

/-- R99: whether a branch condition holds. -/
def brHolds (s : State) (n : Nat) (x : Ctx) (cond : BrCond) (k : SSel) (a b : Reg) : Bool :=
  let sq := ((selIndex x k).map fun i => (getSlot s n i).sq).getD false
  match cond with
  | .eq => a == b
  | .ne => a != b
  | .lt => decide (a.toInt < b.toInt)
  | .ge => decide (b.toInt ≤ a.toInt)
  | .ltu => decide (a.toNat < b.toNat)
  | .geu => decide (b.toNat ≤ a.toNat)
  | .hol => x.hol
  | .nhol => !x.hol
  | .end_ => x.end_
  | .nend => !x.end_
  | .sq => sq
  | .nsq => !sq

/-- BR (R99). -/
def execSeqBr (n c : Nat) (k : SSel) (cond : BrCond) (ga : Nat) (b : RegImm 16) (target : Nat) (s : State) : Res :=
  issue n c (· == wordBr k cond ga b target) s fun s x _ =>
    if (cond = .sq ∨ cond = .nsq) ∧ (selIndex x k).isNone then seqFault s n c 0x03
    else if brHolds s n x cond k (getG x ga).1 (operand x b).1 then setCtx s n c { x with pc := target }
    else done s n c x

/-- JR (R100): a jump beyond the program, or to a number above 2,047, raises SEQ_PC. -/
def execJr (n c : Nat) (ga : Nat) (s : State) : Res := issue n c (· == wordJr ga) s fun s x g =>
  let t := (getG x ga).1.toNat
  if t < g.pl.prog.length ∧ t < 2048 then setCtx s n c { x with pc := t } else seqFault s n c 0x02

/-! ### Frame bracketing (R102 to R106) -/

/-- EVE slots of a sequencer (R53). -/
def eveCount (s : State) (n : Nat) : Nat :=
  ((List.range 4).filter fun i => decide ((getSlot s n i).st = .eve)).length

/-- R102: the word `EPOCH` writes to gf and `TRD` SEL 4 reads. -/
def frameWord (s : State) (n : Nat) (x : Slot) : Reg := reg (x.epoch % 2 ^ 16 * 2 ^ 16 + packetFlags s n x)

/-- A slot taken by a frame of a utility graph (R102, R248): an activation, or the expiry of T0 on SEQ 19. -/
def openUtility (s : State) (n c i : Nat) (g : Graph) (a : Activation) : State :=
  let q := getSeq s n
  let s := setSeq s n { q with nextOpen := (i + 1) % 4, nextEve := i }
  let s := setSlot s n i {
    st := .open_, ctx := c, stream := a.stream, frame := a.frame, tstamp := a.tstamp, epoch := a.epoch,
    fflags := a.fflags, ref := a.ready, rep := a.rep, sq := (getSlot s n i).sq, doom := if g.shed then some 0xA else none }
  openCopies s g i a.frame

/-- R248: the first pending activation leaves its sequencer, and one that waits in the SEQ pool takes its place. -/
def popActivation (s : State) (n : Nat) : State :=
  let q := getSeq s n
  match s.sched.acts.find? fun p => p.1 == n with
  | some p =>
    let s := setSeq s n { q with acts := q.acts.tail ++ [p.2] }
    { s with sched := { s.sched with acts := s.sched.acts.erase p } }
  | none => setSeq s n { q with acts := q.acts.tail }

/-- The frame facts of a frame that no camera and no recording gives: STREAM is the sequencer, the counter is the
sequencer's own, the time-stamp is the moment of the activation (log entry 12). -/
def ownFrame (s : State) (n ready : Nat) : Activation :=
  { stream := n, frame := (getSeq s n).frameCtr, tstamp := ready, ready := ready }

/-- R102, R130: the next frame of a utility graph takes its slot, if its source has delivered one and the context still takes
slots: its graph is RUNNING and has not been replaced. -/
def takeUtility (s : State) (n c : Nat) (g : Graph) : Option State :=
  let q := getSeq s n
  let i := q.nextOpen
  if (getSlot s n i).st ≠ .free ∨ g.st ≠ .running ∨ q.newCtx ≠ c then none
  else if n = 19 then
    let x := getCtx s n c
    let t := kvGet (fun _ => {}) x.timers 0
    if t.expired then
      let s := setCtx s n c { x with timers := kvPut x.timers 0 { t with expired := false } }
      let a := ownFrame s n (now s)
      some (openUtility (setSeq s n { q with frameCtr := (q.frameCtr + 1) % 2 ^ 32 }) n c i g a)
    else none
  else
    q.acts.head?.map fun a =>
      if n = 16 then openUtility (popActivation s n) n c i g a
      else
        let b := ownFrame s n a.ready
        let s := popActivation s n
        openUtility (setSeq s n { getSeq s n with frameCtr := (q.frameCtr + 1) % 2 ^ 32 }) n c i g b

/-- R102, R105, R154, R160: the next slot made EVE, if it is OPEN, the EVE limit allows it and a generation is FREE. -/
def tryEpoch (s : State) (n c : Nat) (g : Graph) (gd gf : Nat) : Option State :=
  if g.hdr.eveslots ≤ eveCount s n then none
  else
    let s' := if g.utility then takeUtility s n c g else some s
    s'.bind fun s =>
      let q := getSeq s n
      let i := q.nextEve
      let x := getSlot s n i
      if x.st ≠ .open_ ∨ x.ctx ≠ c then none
      else (allocGen s n c i).map fun (s, gen) =>
        let y := { x with st := .eve, gen := gen, sq := false }
        let s := advanceEve (setSlot (setSeq s n { getSeq s n with nextEve := (i + 1) % 4 }) n i y) n
        let z := { getCtx s n c with cs := some i }
        let s := done s n c (setG (setG z gd (reg x.frame) gen) gf (frameWord s n y) gen)
        match x.doom with
        | some r => squashGen s gen r 0 0xFFFF
        | none => s

/-- EPOCH (R102, R105). -/
def execEpoch (n c gd gf : Nat) (s : State) : Res := issue n c (· == wordEpoch gd gf) s fun s x g =>
  (tryEpoch s n c g gd gf).getD (park s n c x (.epoch gd gf))

/-- EPOCH_RELEASE (R102, R160). -/
def execEpochRelease (n c : Nat) (s : State) : Res :=
  .next <| match (getCtx s n c).wait, getGraph s n c with
  | some (.epoch gd gf), some g => (tryEpoch s n c g gd gf).getD s
  | _, _ => s

/-- DATE (R96, R103, R105): the dating of the slot is posted; its record count is ga's value at issue or, later, that
of the flag. -/
def execDate (n c : Nat) (k : SSel) (src : RecSrc) (ruleset : Nat) (s : State) : Res :=
  issue n c (· == wordDate k src ruleset) s fun s x _ =>
  onSlot s n c x k fun i =>
    let y := getSlot s n i
    if y.dating.isSome then seqFault s n c 0x03
    else
      match src with
      | .reg ga =>
        let (s, _) := mergeGen s y.gen (getG x ga).2
        let s := setSlot s n i { y with dating := some { ruleset := ruleset, nsrc := false, src := (getG x ga).1.toNat } }
        done s n c x
      | .flag f =>
        done (setSlot s n i { y with dating := some { ruleset := ruleset, nsrc := true, src := f } }) n c x

/-- SQUASH (R96, R105, R106): the notice carries ga's tag as well as the generation of its slot. -/
def execSquash (n c : Nat) (k : SSel) (ga reason : Nat) (s : State) : Res :=
  issue n c (· == wordSquash k ga reason) s fun s x _ =>
  onSlot s n c x k fun i =>
    if (getSlot s n i).dating.isSome then seqFault s n c 0x03
    else
      let s := done (mergeGen s (getSlot s n i).gen (getG x ga).2).1 n c x
      squashSlot s n i reason ((getG x ga).1.toNat % 2 ^ 16) 0xFFFF

/-! ### Engine start (R107 to R115, R124) -/

/-- WIN (R112). -/
def execWin (n c stage wmin wmax : Nat) (s : State) : Res := issue n c (· == wordWin stage wmin wmax) s fun s x _ =>
  if x.win.isSome ∨ wmax = 0 ∨ wmax < wmin then seqFault s n c 0x0D
  else done s n c { x with win := some (stage, wmin, wmax) }

/-- R112, R115: a stage handed over with the pending window, once a watchdog is free for it; `pre` is what the instruction does
first, which a fault leaves undone (R129). -/
def startStage (s : State) (n c : Nat) (x : Ctx) (g : Graph) (i tgt cflag pbidx : Nat) (set : Bool)
    (lid : Option Nat) (pre : State → State) : State :=
  if g.safety ∧ x.win.isNone then seqFault s n c 0x0D
  else if x.win.isSome ∧ 12 ≤ openWindows s n then park (pre s) n c x (.watchdog i tgt cflag pbidx set lid)
  else done (createTask (pre s) n c i g (tgt / 64) (tgt % 64) cflag set pbidx x.win lid) n c { x with win := none }

/-- KICK (R107 to R109, R112); a ghost leaves the pending window (log entry 131). -/
def execKick (n c : Nat) (k : SSel) (tgt cflag : Nat) (set : Bool) (pbidx : Nat) (s : State) : Res :=
  issue n c (· == wordKick k tgt cflag set pbidx) s fun s x g =>
    onSlot s n c x k fun i => startStage s n c x g i tgt cflag pbidx set none fun s => s

/-- PSET (R111): a word of the slot's parameter-block copy, once no earlier `KICK` that names it waits for acceptance. -/
def execPset (n c : Nat) (k : SSel) (ga woff : Nat) (s : State) : Res := issue n c (· == wordPset k ga woff) s fun s x _ =>
  onSlot s n c x k fun i =>
    let v := getG x ga
    releasePset (park s n c x (.pset i woff v.1 v.2)) n c

/-! ### Flags and barriers (R116 to R118) -/

/-- WAITF (R116). -/
def execWaitf (n c : Nat) (k : SSel) (cmp : FlagCmp) (b : RegImm 32) (f : Nat) (s : State) : Res :=
  issue n c (· == wordWaitf k cmp b f) s fun s x g => onSlot s n c x k fun i =>
    let b := (operand x b).1
    if flagCmp (FlagCmp.code cmp) (getFlag s (flagAddr g i f)).value b then done s n c x
    else park s n c x (.flag i f (FlagCmp.code cmp) b)

/-- WAITF_RELEASE (R116): the update a `WAITF` waits for has reached the store. -/
def execWaitfRelease (n c : Nat) (s : State) : Res :=
  let x := getCtx s n c
  .next <| match x.wait, getGraph s n c with
  | some (.flag i f cmp b), some g =>
    if flagCmp cmp (getFlag s (flagAddr g i f)).value b then done s n c x else s
  | _, _ => s

/-- R96, R117: `SETF` and `ADDF`. -/
def flagOp (add : Bool) (n c : Nat) (k : SSel) (rd : Option Nat) (b : RegImm 32) (f : Nat) (s : State) : Res :=
  issue n c (fun w => w == wordFlag add k rd (bits 50 46 w.toNat) b f) s fun s x g => onSlot s n c x k fun i =>
    let y := getSlot s n i
    let v := operand x b
    let (s, u) := mergeGen s y.gen v.2
    let (s, old) := flagUpdate s n i y.frame u (flagAddr g i f) add v.1
    done s n c (match rd with
      | some gd => setG x gd old.value (eff s old.gen)
      | none => x)

/-- SETF (R117). -/
def execSetf (n c : Nat) (k : SSel) (rd : Option (Fin 32)) (b : RegImm 32) (f : Nat) (s : State) : Res :=
  flagOp false n c k (rd.map Fin.val) b f s

/-- ADDF (R117). -/
def execAddf (n c : Nat) (k : SSel) (rd : Option (Fin 32)) (b : RegImm 32) (f : Nat) (s : State) : Res :=
  flagOp true n c k (rd.map Fin.val) b f s

/-- R118: stages a context started for a slot (any slot where `i` is none) that are not over. -/
def stagesOpen (s : State) (n c : Nat) (i : Option Nat) : Bool :=
  let mine (t : Task) : Bool := t.src == n && t.ctx == c && !t.cancelled && !t.remainder && (match i with
    | some j => t.slot == j
    | none => true)
  (s.sched.tasks.any fun p => mine p.2) || s.sched.posted.any mine

/-- R118: what a `BARRIER` waits for still stands: flag operations, `PSET`s and `ENQ`s of a context that has gone on
are visible already, so VIS never waits. -/
def barrierHeld (s : State) (n c i kind : Nat) : Bool :=
  if kind = 1 then stagesOpen s n c (some i) else if kind = 2 then stagesOpen s n c none else false

/-- BARRIER (R95, R118): every kind carries a slot selector (log entry 116). -/
def execBarrier (n c : Nat) (k : SSel) (kind : BarKind) (s : State) : Res := issue n c (· == wordBarrier k kind) s fun s x _ =>
  onSlot s n c x k fun i =>
    let v := BarKind.code kind
    if barrierHeld s n c i v then park s n c x (.barrier i v) else done s n c x

/-- BARRIER_RELEASE (R118). -/
def execBarrierRelease (n c : Nat) (s : State) : Res :=
  let x := getCtx s n c
  .next <| match x.wait with
  | some (.barrier i kind) => if barrierHeld s n c i kind then s else done s n c x
  | _ => s

/-! ### Queue operations (R119 to R121) -/

/-- A wait entered in a queue: a producer's next word (R189, R199). -/
def addWaiter (s : State) (qid init : Nat) (w : QWord) (last : Bool) : State :=
  let q := getQ s qid
  setQ s qid { q with waits := q.waits ++ [{ producer := init, since := now s, word := w, last := last }] }

/-- ENQ (R119, R120). -/
def execEnq (n c : Nat) (k : SSel) (last : Bool) (ga qid : Nat) (s : State) : Res :=
  issue n c (· == wordEnq k last ga qid) s fun s x _ =>
  onSlot s n c x k fun i =>
    let y := getSlot s n i
    let lo := getG x ga
    let hi := getG x ((ga + 1) % 32)
    let (s', g) := mergeAll s y.gen [lo.2, hi.2]
    let w : QWord := { data := hi.1 ++ lo.1, gen := g, world := unitWorld s (176 + n) }
    if (getQ s qid).cfg.out ∧ eff s g ≠ 0 ∧ 16 ≤ y.held.length then seqFault s n c 0x0A
    else if (getQ s qid).cfg.out ∧ eff s g ≠ 0 then
      done (setSlot s' n i { y with held := y.held ++ [⟨qid, w, last⟩] }) n c x
    else
      let (s', r) := enqWord s' qid (176 + n) w last
      if r = .waits then park (addWaiter s' qid (176 + n) w last) n c x (.credit i qid w last)
      else done s' n c x

/-- R121: a word taken by a context: gd and gd + 1 with its generation, END and HOL. -/
def takeWord (s : State) (n c gd : Nat) (x : Ctx) (r : DeqRes) (qid : Nat) : State :=
  match r with
  | .word w last _ =>
    let t := eff s w.gen
    let x := setG (setG x gd (w.data.setWidth 32) t) ((gd + 1) % 32) (reg (w.data.toNat / 2 ^ 32)) t
    done s n c { x with end_ := last, hol := false }
  | .holiday =>
    let h := holidayWord qid
    let x := setG (setG x gd (h.setWidth 32) 0) ((gd + 1) % 32) (reg (h.toNat / 2 ^ 32)) 0
    done s n c { x with end_ := false, hol := true }

/-- DEQ (R121, R193). -/
def execDeq (n c : Nat) (blk : Bool) (gd qid : Nat) (s : State) : Res := issue n c (· == wordDeq blk gd qid) s fun s x _ =>
  let r := seqRecv (getQ s qid) n
  let (s', d) := deqWord s qid (176 + n) r
  if d = .holiday ∧ blk then park s' n c x (.deq gd qid r) else takeWord s' n c gd x d qid

/-- DEQ_RELEASE (R121, R191): a packet has become visible to a waiting `DEQ`. -/
def execDeqRelease (n c : Nat) (s : State) : Res :=
  let x := getCtx s n c
  .next <| match x.wait with
  | some (.deq gd qid r) =>
    let (s', d) := deqWord s qid (176 + n) r
    if d = .holiday then s else takeWord s' n c gd x d qid
  | _ => s

/-! ### Timers and time (R122, R123) -/

/-- TARM (R122). -/
def execTarm (n c tmr : Nat) (per : Bool) (interval : Nat) (s : State) : Res :=
  issue n c (· == wordTarm tmr per interval) s fun s x _ =>
  let t : Timer := { interval := interval, per := per, at_ := now s + 1000 * interval, armed := true }
  done s n c { x with timers := kvPut x.timers tmr t }

/-- TWAIT (R122): an expiry that is not yet cleared ends the wait at once. -/
def execTwait (n c tmr : Nat) (s : State) : Res := issue n c (· == wordTwait tmr) s fun s x _ =>
  let t := kvGet (fun _ => {}) x.timers tmr
  if t.expired then done s n c { x with timers := kvPut x.timers tmr { t with expired := false } }
  else if t.armed then park s n c x (.timer tmr)
  else seqFault s n c 0x0B

/-- TIMER_EXPIRY (R122): the timer expires, re-arms if periodic, and releases a `TWAIT` or counts an overrun. -/
def execTimerExpiry (n c tmr : Nat) (s : State) : Res :=
  let x := getCtx s n c
  let t := kvGet (fun _ => {}) x.timers tmr
  .next <| if ¬ t.armed then s
  else
    let s := advance s t.at_
    let u := { t with armed := t.per, at_ := if t.per then t.at_ + 1000 * t.interval else t.at_ }
    if x.wait = some (.timer tmr) then done s n c { x with timers := kvPut x.timers tmr { u with expired := false } }
    else
      let s := setCtx s n c { x with timers := kvPut x.timers tmr { u with expired := true } }
      if t.per ∧ t.expired then raise (inc s (seqBase n + 0x34)) (seqBase n + 0x14) 3 else s

/-- TRD (R123). -/
def execTrd (n c : Nat) (k : SSel) (gd sel : Nat) (s : State) : Res := issue n c (· == wordTrd k gd sel) s fun s x _ =>
  let t := now s
  if sel = 0 then done s n c (setG { x with latch := reg (t / 2 ^ 32) } gd (reg t) 0)
  else if sel = 1 then done s n c (setG x gd x.latch 0)
  else onSlot s n c x k fun i =>
    let y := getSlot s n i
    let v := if sel = 2 then reg y.tstamp else if sel = 3 then reg (y.tstamp / 2 ^ 32)
      else if sel = 4 then frameWord s n y else reg y.frame
    done s n c (setG x gd v y.gen)

/-! ### Deadlines and the scrub (R105, R164) -/

/-- DEADLINE_EXPIRY (R105, R138, R512): module time reaches the time-stamp plus DEADLINE of a frame that is not
committed. -/
def execDeadlineExpiry (n i : Nat) (s : State) : Res :=
  let x := getSlot s n i
  .next <| match getGraph s n x.ctx with
  | none => s
  | some g =>
    if g.hdr.deadline = 0 ∨ (x.st ≠ .open_ ∧ x.st ≠ .eve) ∨ x.notice.isSome then s
    else
      let s := advance s (x.ref + 1000 * g.hdr.deadline)
      if x.st = .open_ then setSlot s n i { x with doom := some (x.doom.getD 0xB) }
      else squashGen s x.gen 0xB 0 0xFFFF

/-- SCRUB_COMPLETE (R164): no carrier of a dated or squashed generation is left, the slot of a squashed one included, and its
entry becomes FREE. -/
def execScrubComplete (g : Nat) (s : State) : Res :=
  let e := getGen s g
  .next <| if g = 0 ∨ g = 0xFF ∨ (e.st ≠ .dated ∧ e.st ≠ .squashed) then s
  else
    let x := getSlot s e.seq e.slot
    setGen (if x.gen = g then setSlot s e.seq e.slot { x with gen := 0 } else s) g {}

end Sys2Proof.Machine
end

