-- ==== Sys2Proof/Machine/Queues.lean ====
section
/-!
DEFINITION. The queue and pool commands (spec/07_queues.md): cell grants and leap markers (R199, R202), the wait detector
(R212), flush, reset and rebuild (R205, R214, R219), and the states of the cell pool (R215 to R219).
-/
namespace Sys2Proof.Machine

/-! ### Producers that wait -/

/-- R199: fabric clocks between two module times (1.2 GHz). -/
def clocksSince (s : State) (t : Nat) : Nat := (now s - t) * 6 / 5

/-- A waiting producer of a queue whose wait is over: the clocks it waited are counted, a feature engine's by itself too (R363). -/
def dropWaiter (s : State) (qid : Nat) (w : QWaiter) : State :=
  let q := getQ s qid
  let s := if 140 ≤ w.producer ∧ w.producer < 144 then
    incBy s (engBase w.producer + 0x5C) ((now s - w.since) * 4 / 5) else s
  setQ s qid { q with waits := q.waits.erase w,
                      cnt := { q.cnt with waitclk := q.cnt.waitclk + reg (clocksSince s w.since) } }

/-- R119: the context of a sequencer that waits for credit on a queue goes on after its `ENQ`. -/
def resumeCredit (s : State) (init qid : Nat) : State :=
  let n := init - 176
  let waiting (c : Nat) : Bool := match (getCtx s n c).wait with
    | some (.credit _ q _ _) => q == qid
    | _ => false
  match [0, 1].find? waiting with
  | some c => done s n c (getCtx s n c)
  | none => s

/-- A waiting producer goes on: a context after its `ENQ`; a unit finds its packet taken. -/
def resumeProducer (s : State) (init qid : Nat) : State :=
  if 176 ≤ init ∧ init < 196 then resumeCredit s init qid
  else { s with pool := { s.pool with taken := init :: s.pool.taken } }

/-- R199: a unit's words offered one after another: the words left where one has to wait. -/
def offerWords (s : State) (qid init : Nat) : List QWord → State × List QWord
  | [] => (s, [])
  | w :: t =>
    let (s', r) := enqWord s qid init w t.isEmpty
    if r = .waits then (s', w :: t) else offerWords s' qid init t

/-- A unit's packet offered to a queue: enqueued, or kept at the cell boundary at which the unit has to wait (R199); a packet that
has been taken since is not offered again. -/
def enqUnit (s : State) (qid init gen : Nat) (words : List Word) : State × QRes :=
  if s.pool.taken.contains init then ({ s with pool := { s.pool with taken := s.pool.taken.filter (· != init) } }, .taken)
  else if (getQ s qid).waits.any fun w => w.producer == init then (s, .waits)
  else
    match offerWords s qid init (words.map fun d => { data := d, gen := gen, world := unitWorld s init }) with
    | (s', []) => (s', .taken)
    | (s', w :: t) =>
      let q := getQ s' qid
      (setQ s' qid { q with waits := q.waits ++ [{ producer := init, since := now s', word := w, last := t.isEmpty, rest := t }] },
        .waits)

/-- R199: a unit's waiter offered its queue again: its packet goes in as far as it does. -/
def grantPacket (s : State) (qid : Nat) (w : QWaiter) : Option State :=
  match offerWords s qid w.producer (w.word :: w.rest) with
  | (s', []) => some (resumeProducer (dropWaiter s' qid w) w.producer qid)
  | (s', x :: t) =>
    if w.rest.length ≤ t.length then none
    else
      let q := getQ s' qid
      some (setQ s' qid { q with waits := q.waits.map fun y =>
        if y = w then { y with word := x, rest := t, last := t.isEmpty } else y })

/-- R199: the one word of a sequencer that waits. -/
def grantWord (s : State) (qid : Nat) (w : QWaiter) : Option State :=
  let (s', r) := enqWord s qid w.producer w.word w.last
  if r = .waits then none else some (resumeProducer (dropWaiter s' qid w) w.producer qid)

/-- CELL_GRANT (R189, R199): the first producer waiting on a queue whose word can now be taken has it enqueued, and goes
on. -/
def execCellGrant (qid : Nat) (s : State) : Res :=
  .next <| ((getQ s qid).waits.findSome? fun w =>
    if 176 ≤ w.producer ∧ w.producer < 196 then grantWord s qid w else grantPacket s qid w).getD s

/-- LEAP_MARKER_PLACE (R202): a pending DROP marker takes its place at the tail. -/
def execLeapMarkerPlace (qid : Nat) (s : State) : Res :=
  let q := getQ s qid
  .next <| match q.dropPend with
  | some (f, c) =>
    if q.openPkt.isNone && canGrant s q 1 then placeMarker (setQ s qid { q with dropPend := none }) qid 1 f c else s
  | none => s

/-! ### The wait detector (R212, R213) -/

/-- R212: the oldest wait for a cell on a graph queue. -/
def oldestWait (q : Queue) : Option Nat :=
  ((q.waits.filter (waitsForCell q)).map QWaiter.since).min?

/-- Graph queues with a wait for a cell, with the time at which it began. -/
def waitingQueues (s : State) : List (Nat × Nat × QConfig) :=
  s.queues.filterMap fun p => if p.2.cfg.sys then none else (oldestWait p.2).map fun t => (p.1, t, p.2.cfg)

/-- R212: whether the graph of one queue stands lower than that of another, or is the same with an earlier wait. -/
def breakBefore (a b : Nat × Nat × QConfig) : Bool :=
  let ka := b2n (!a.2.2.ownerBE)
  let kb := b2n (!b.2.2.ownerBE)
  decide (ka < kb ∨ (ka = kb ∧ (a.2.2.ownerPrio < b.2.2.ownerPrio ∨ (a.2.2.ownerPrio = b.2.2.ownerPrio ∧
    (b.2.2.ownerSeq < a.2.2.ownerSeq ∨ (a.2.2.ownerSeq = b.2.2.ownerSeq ∧
      (a.2.1 < b.2.1 ∨ (a.2.1 = b.2.1 ∧ a.1 ≤ b.1))))))))

/-- R212: the youngest packet of a queue dropped, its first cell taken by a BREAK marker. -/
def dropYoungest (s : State) (qid : Nat) : State :=
  let q := getQ s qid
  let q := { q with cnt := { q.cnt with drop := q.cnt.drop + 1 } }
  match q.openPkt with
  | some o =>
    if o.cells.isEmpty then s
    else
      let mine := q.waits.filter fun w => w.producer == o.producer
      let ended := mine.any fun w => w.last || !w.rest.isEmpty
      let q := { q with openPkt := none,
                        discard := if ended then q.discard else o.producer :: q.discard.filter (· != o.producer) }
      let m := { markerPacket q (nth false o.cells 0) 3 (o.seqNo.getD 0) 1 with num := q.nextNum }
      let s := setQ s qid { q with packets := q.packets ++ [m], nextNum := q.nextNum + 1 }
      mine.foldl (fun s w => resumeProducer (dropWaiter s qid w) w.producer qid) (markerEvent s qid 3)
  | none =>
    match q.packets.getLast? with
    | none => s
    | some p =>
      let m := { markerPacket q (nth false p.cells 0) 3 (p.seqNo.getD 0) 1 with num := p.num }
      let recvs := q.recvs.map fun r => if r.next = p.num then { r with off := 0 } else r
      dropAhead (markerEvent (setQ s qid { q with packets := q.packets.dropLast ++ [m], recvs := recvs }) qid 3)

/-- R212: the detector's action on a queue whose wait began at `since`. -/
def breakWait (s : State) (w : Nat × Nat × QConfig) : State :=
  let n := w.2.2.ownerSeq
  let s := dropYoungest s w.1
  let s := { s with pool := { s.pool with lastBreak := some (now s) } }
  let s := if n < 20 then setR s (qmBase + 0x40) (setBit n (getR s (qmBase + 0x40))) else s
  let s := inc s (qmBase + 0x58)
  let s := diary s 0x41 1 w.2.2.world
    { detail := w.1, seqn := n, stream := if n < 16 then n else 0xFF, aux := (now s - w.2.1) / 1000 }
  raise s (qmBase + 0x20) 4

/-- WAIT_BREAK (R212, R221): a producer has waited 5,000 µs on a graph queue; the detector acts once in 1 ms at most, and not on
a queue whose producer can be granted its cell. -/
def execWaitBreak (s : State) : Res :=
  let ws := waitingQueues s
  .next <| match (ws.map fun w => w.2.1).min? with
  | none => s
  | some t =>
    let s := advance s (max (t + 5000000) ((s.pool.lastBreak.map (· + 1000000)).getD 0))
    match sortL (ws.filter fun w => decide (w.2.1 + 5000000 ≤ now s)) breakBefore with
    | [] => s
    | w :: _ =>
      let mine := (getQ s w.1).waits.filter (waitsForCell (getQ s w.1))
      if mine.any fun x => grants s w.1 x.producer then s else breakWait s w

/-! ### QM_CMD (R205, R206, R214, R219) -/

/-- RESULT in QM_CMD_STATUS (R222). -/
def qmResult (s : State) (r : Nat) : State := setR s (qmBase + 0x34) (reg r)

/-- R222: a command written to QM_CMD, refused while one runs. -/
def qmCmd (s : State) (f : State → State) : State :=
  if flag s (qmBase + 0x34) 31 then setField s (qmBase + 0x34) 7 0 4 else f s

/-- FLUSH (R205, R206): QM_CMD OP 1, written by an initiator of a world. Its use of the queue compares the pointers (R214). -/
def execFlush (secure : Bool) (qid : Nat) (s : State) : Res :=
  .next <| hostAccess secure false (qmBase + 0x30) s fun s => qmCmd s fun s =>
    if ¬ qValid s qid then qmResult s 1
    else if ¬ secure ∧ ((getQ s qid).cfg.world ∨ (getQ s qid).cfg.sys) then qmResult s 2
    else
      let s := usePtr s qid
      setR (dropAhead (setQ s qid { flushQueue (getQ s qid) with flushing := true })) (qmBase + 0x34) (reg (2 ^ 31))

/-- FLUSH_COMPLETE (R205): both boundaries have passed. -/
def execFlushComplete (qid : Nat) (s : State) : Res :=
  .next <| if (getQ s qid).flushing ∧ flushDone (getQ s qid) then retrySquash (endFlush s qid) else s

/-- RESET (R214): QM_CMD OP 2, secure world only. -/
def execReset (secure : Bool) (qid : Nat) (s : State) : Res :=
  .next <| hostAccess secure false (qmBase + 0x30) s fun s => qmCmd s fun s =>
    if ¬ qValid s qid then qmResult s 1
    else if ¬ secure then qmResult s 2
    else retrySquash (qmResult (resetQueue s qid) 0)

/-- REBUILD (R219): QM_CMD OP 3, secure world only; QID is ignored. -/
def execRebuild (secure : Bool) (s : State) : Res :=
  .next <| hostAccess secure false (qmBase + 0x30) s fun s => qmCmd s fun s => if ¬ secure then qmResult s 2 else qmResult (enterRebuild s 4) 0

/-! ### The pool (R215 to R219) -/

/-- POOL_COUNT_CHECK (R215): the check made once per 1 ms: free admitted cells and cells held by graph queues add up to the
admitted cells there are. -/
def execPoolCountCheck (s : State) : Res :=
  .next <| if s.pool.st = .run ∧ freeAdmitted s + heldBy s false ≠ admittedCells s then enterRebuild s 3 else s

/-- R218: a test failure the pool cannot repair. -/
def poolService (s : State) : State := raise (service s 2) (qmBase + 0x20) 5

/-- R216, R218: TEST ends: the ping-pong cells and pointer memories have been tested; a queue whose ping-pong cells failed stays
not VALID. -/
def poolTested (s : State) : State :=
  let s := { s with pool := { s.pool with st := .build } }
  if s.pool.badQueues.isEmpty ∧ ¬ s.pool.ptrMemBad then s
  else poolService { s with queues := s.queues.map fun p =>
    if s.pool.badQueues.contains p.1 then (p.1, { p.2 with cfg := { p.2.cfg with valid := false } }) else p }

/-- R216, R218: BUILD ends: every other cell is tested and linked; up to 64 failing admitted cells are replaced by firmware
cells. -/
def poolBuilt (s : State) : State :=
  let s := { s with pool := { s.pool with st := .run, retired := min 64 s.pool.weak } }
  if 64 < s.pool.weak then poolService s else s

/-- POOL_TEST_END (R216, R218). -/
def execPoolTestEnd (s : State) : Res := .next (if s.pool.st = .test then poolTested s else s)

/-- POOL_BUILD_END (R216, R218). -/
def execPoolBuildEnd (s : State) : Res := .next (if s.pool.st = .build then poolBuilt s else s)

/-- R215, R219: the cells whose OWNER names a queue. -/
def taggedCells (q : Queue) : Nat := heldPool q + q.orphans + q.tagOff

/-- R219: whether the cells tagged with a queue differ from those it holds; a queue that was reset is not judged. -/
def tagsDiffer (q : Queue) : Bool := !q.resetting && taggedCells q != heldPool q

/-- REBUILD_SWEEP_END (R214, R219): queues that differ are reset, the cells of reset queues are reclaimed, the holding list is
merged, and the pool returns to RUN. -/
def execRebuildSweepEnd (s : State) : Res :=
  .next <| if s.pool.st ≠ .rebuild then s
  else
    let s := ((s.queues.filter fun p => tagsDiffer p.2).map Prod.fst).foldl resetQueue s
    let s := mapQueues s fun q => { q with resetting := false, orphans := 0, tagOff := 0 }
    { s with pool := { s.pool with st := .run, lost := 0, held0 := 0, held0Fw := 0 } }

end Sys2Proof.Machine
end

