-- ==== Sys2Proof/Machine/UnitMem.lean ====
section
/-!
DEFINITION. A unit's memory accesses on behalf of a task, as the firewalls (R552 to R554), the eve rule (R167, R169,
R180, R685) and the error codes (R273, R338) treat them, and the report of a unit error (R175, R274, R338).
-/
namespace Sys2Proof.Machine

/-- Why an access of a unit did not go through. -/
inductive MemErr where
  /-- refused, unmapped, or an uncorrectable error, at an address -/
  | denied (a : Nat)
  | unmapped (a : Nat)
  | ecc (a : Nat)
  /-- the access squashed the task's generation (R180) -/
  | squashed
  /-- the write is an effect that waits at the dating gate, for a data generation (R169, R173) -/
  | gate (gen : Nat)
  /-- the unit waits for queue credit (R199) -/
  | wait
  deriving DecidableEq, Repr

/-- Whether an access waits at the dating gate. -/
def MemErr.gated : MemErr → Bool
  | .gate _ => true
  | _ => false

/-- The address at which an access failed. -/
def MemErr.addr : MemErr → Nat
  | .denied a => a
  | .unmapped a => a
  | .ecc a => a
  | _ => 0

/-- Whether one of the cells of an access holds an uncorrectable error. -/
def cellBad (s : State) (a n : Nat) : Bool := s.memBad.any fun c => decide (a / 64 ≤ c ∧ c ≤ (a + n - 1) / 64)

/-- The first byte of an access that lies on a page for which `p` holds: where the access fails. -/
def firstOn (p : Nat → Bool) (a n : Nat) : Nat :=
  match (pagesOf a n).find? p with
  | some q => max a (4096 * q)
  | none => a

/-- Where the firewall refuses an access (R552). -/
def refusedAt (s : State) (u : Nat) (sc write : Bool) (a n : Nat) : Nat :=
  let no (tbl : List (Nat × Region)) (o : Nat) : Bool := (fwDecide tbl u (unitWorld s u) sc write o 1).isSome
  match spaceOf a with
  | .dram => firstOn (fun q => no s.fwl.dram (4096 * q)) a n
  | .som => firstOn (fun q => no s.fwl.som (4096 * q - Config.somBase)) a n
  | _ => a

/-- Where an access leaves every memory. -/
def unmappedAt (a n : Nat) : Nat := firstOn (fun q => spaceOf (4096 * q) == .none) a n

/-- Where an access meets a cell with an uncorrectable error. -/
def badAt (s : State) (a n : Nat) : Nat :=
  match s.memBad.filter fun c => decide (a / 64 ≤ c ∧ c ≤ (a + n - 1) / 64) with
  | [] => a
  | c :: t => max a (64 * t.foldl min c)

/-- R685: a diary entry names a poisoned page that dated work read. -/
def poisonEntry (s : State) (u a : Nat) : State :=
  diary s 0x30 2 (unitWorld s u) { unit := u, addr := 4096 * pageOf a }

/-- A read of `n` bytes by unit `u` for work of data generation `gen`: the bytes with the generation they bring. -/
def unitRead (s : State) (u : Nat) (sc : Bool) (gen a n : Nat) : State × Except MemErr (List Byte × Nat) :=
  match access s u sc false a n with
  | (s, .denied) => (s, .error (.denied (refusedAt s u sc false a n)))
  | (s, .nohost) => (s, .error (.denied a))
  | (s, .unmapped) => (s, .error (.unmapped (unmappedAt a n)))
  | (s, .ok) =>
    if spaceOf a = .host then
      ({ s with hostReads := s.hostReads + 1 },
        .ok ((List.range n).map fun i => Config.hostByte s.hostReads (a - 2 ^ 63 + i), gen))
    else if poisoned s a n then
      let p := firstOn (fun q => tagOf s q == 0xFF) a n
      if eff s gen ≠ 0 then (squashGen s gen 0xC 0xFFFF 0xFFFF, .error .squashed) else (poisonEntry s u p, .error (.ecc p))
    else if cellBad s a n then (s, .error (.ecc (badAt s a n)))
    else
      let (s, g) := readTags s gen a n
      (s, .ok (peek s a n, g))

/-- A write of bytes by unit `u` for work of data generation `gen`. -/
def unitWrite (s : State) (u : Nat) (sc : Bool) (gen a : Nat) (l : List Byte) : State × Except MemErr Unit :=
  if gated s u gen a l.length then (s, .error (.gate gen))
  else match access s u sc true a l.length with
    | (s, .denied) => (s, .error (.denied (refusedAt s u sc true a l.length)))
    | (s, .nohost) => (s, .error (.denied a))
    | (s, .unmapped) => (s, .error (.unmapped (unmappedAt a l.length)))
    | (s, .ok) =>
      if spaceOf a = .host then (emit s (.hostWrite (b2n (unitWorld s u)) (a - 2 ^ 63) l), .ok ())
      else if poisoned s a l.length ∧ eff s gen ≠ 0 then (squashGen s gen 0xC 0xFFFF 0xFFFF, .error .squashed)
      else
        let s := if eff s gen = 0 then s else writeTags s gen a l.length
        let s := { s with memBad := s.memBad.filter fun c => !(decide (a ≤ 64 * c) && decide (64 * c + 64 ≤ a + l.length)) }
        (poke s a l, .ok ())

/-- The task of an entry with an error met by its unit. -/
def setErr (s : State) (e : Nat) (err : UnitErr) : State :=
  match getTask s e with
  | some t => if t.err.isSome then s else setTask s e { t with err := some err }
  | none => s

/-- R173, R180: what a unit does when an access of its stage does not go through: it waits at the gate, is gone with the
generation of its data, or has met an error with the code its chapter gives. -/
def memFail (s : State) (e : Nat) (m : MemErr) (code : MemErr → Nat) (fetch : Bool) (addr : Nat) : State :=
  match m with
  | .squashed => match getTask s e with
    | some t => if t.onUnits then squashTask s e t else s
    | none => s
  | .wait => s
  | .gate g => match getTask s e with
    | some t => stopAtGate s e t g
    | none => s
  | m => setErr s e { code := code m, fetch := fetch, addr := addr }

/-- A chain of accesses: it stops at the first that fails. -/
def bindMem {α β : Type} (r : State × Except MemErr α) (f : State → α → State × Except MemErr β) :
    State × Except MemErr β :=
  match r with
  | (s, .ok a) => f s a
  | (s, .error m) => (s, .error m)

/-- Rows of bytes read one after another: the bytes of each, with the generation of all. -/
def unitReadRows (s : State) (u : Nat) (sc : Bool) (gen : Nat) : List (Nat × Nat) →
    State × Except MemErr (List (List Byte) × Nat)
  | [] => (s, .ok ([], gen))
  | (a, n) :: t =>
    bindMem (unitRead s u sc gen a n) fun s r =>
      bindMem (unitReadRows s u sc r.2 t) fun s q => (s, .ok (r.1 :: q.1, q.2))

/-- Rows of bytes written one after another. -/
def unitWriteRows (s : State) (u : Nat) (sc : Bool) (gen : Nat) : List (Nat × List Byte) → State × Except MemErr Unit
  | [] => (s, .ok ())
  | (a, l) :: t => bindMem (unitWrite s u sc gen a l) fun s _ => unitWriteRows s u sc gen t

/-- The data generation of a task replaced. -/
def setData (s : State) (e g : Nat) : State :=
  match getTask s e with
  | some t => setTask s e { t with dataGen := g }
  | none => s

end Sys2Proof.Machine
end

