-- ==== Sys2Proof/Machine/Dma.lean ====
section
/-!
DEFINITION. The DMA clusters (spec/09_dma.md, R255 to R279). A channel is named by its instance 8k + c. Its task holds
its progress; IDLE is a channel without a task, GATE a task at the dating gate, HALT a member of `dmaHalt`.
-/
namespace Sys2Proof.Machine

/-- A task's DMA progress replaced. -/
def setRun (s : State) (e : Nat) (d : DmaRun) : State :=
  match getTask s e with
  | some t => setTask s e { t with dma := some d }
  | none => s

/-! ### Parameter blocks and descriptors (R258 to R264) -/

/-- R263: whether a queue can be an endpoint or a pace for a unit. -/
def endpointOk (s : State) (u qid : Nat) : Bool :=
  qValid s qid && (getQ s qid).cfg.world == unitWorld s u

/-- R264: the reading of a parameter block. -/
def dmaBlock (l : List Byte) : DmaRun :=
  let p := leAt l 10 1
  { first := leAt l 0 8, dlimit := leAt l 8 2, pmode := p % 4, pstart := bit 2 p, long := bit 3 p, pqid := leAt l 12 2,
    high := leAt l 16 4, low := leAt l 20 4, cur := leAt l 0 8, dbegin := leAt l 0 8 }

/-- R264: the checks of a parameter block that need no machine state. -/
def dmaBlockOk (l : List Byte) : Bool :=
  let d := dmaBlock l
  d.first % 8 == 0 && d.dlimit != 0 && d.pmode != 3 && leAt l 10 1 < 16 && leAt l 11 1 == 0 && leAt l 14 2 == 0
    && (slice l 24 40).all (· == 0) && (d.pmode == 0 || (d.long && decide (d.low < d.high)))

/-- R264, R266: a channel accepts a task: its block is checked and the pacing state chosen. PARK is a bit of descriptors, which
only LONG tasks honour (R259, R268). -/
def dmaAccept (s : State) (e : Nat) : State :=
  match getTask s e with
  | none => s
  | some t =>
    let u := nth 0 t.units 0
    let d := dmaBlock t.block
    let q := (getQ s d.pqid).cfg
    let paced := d.pmode == 0 || (endpointOk s u d.pqid && q.mode != .multicast && decide (d.high ≤ q.depth))
    if dmaBlockOk t.block && paced then
      setTask s e { t with dma := some { d with st := if d.pmode ≠ 0 ∧ ¬ d.pstart then .pace else .run } }
    else setTask s e { t with dma := some d, err := some { code := 0x0A, addr := d.first } }

/-- R261: the error a descriptor is refused with, 0 for none. -/
def descCheck (l : List Byte) : Nat :=
  let q := dSmode l == 2 || dDmode l == 2
  let al (m v : Nat) : Bool := m == 2 || v % 64 == 0
  if ¬ (al (dSmode l) (dSrc l) && al (dSmode l) (dSstride l) && al (dDmode l) (dDst l) && al (dDmode l) (dDstride l)
      && (q || dLen l % 64 == 0) && dNext l % 8 == 0) then 0x01
  else if dCtl l ≥ 2 ^ 23 ∨ leAt l 44 4 ≠ 0 ∨ leAt l 56 4 ≠ 0 ∨ dSmode l = 3 ∨ dDmode l = 3 ∨ 5 ≤ bits 11 9 (dCtl l)
      ∨ 20 < dSwrap l ∨ 20 < dDwrap l ∨ dLines l = 0 ∨ (dSmode l = 2 ∧ dDmode l = 2)
      ∨ (dSmode l = 2 ∧ 2 ^ 16 ≤ dSrc l) ∨ (dDmode l = 2 ∧ 2 ^ 16 ≤ dDst l) ∨ (q ∧ dLines l ≠ 1) then 0x02
  else 0

/-- R263: whether a task on units takes packets as receiver `r` of queue `q`: the source of a channel's present descriptor, or an
`LDQ` of its tensor program. -/
def takesFrom (s : State) (q r : Nat) (t : Task) : Bool :=
  t.onUnits && ((match t.dma with
    | some d => !d.desc.isEmpty && dSmode d.desc == 2 && dSrc d.desc == q && r == 0
    | none => false)
  || (t.ttype == 5 && t.units.any fun c => (getTc s c).core.prog.any fun w =>
      wOp w == 0x12 && wf w 47 32 == q && wf w 83 81 == r))

/-- R263: whether a task on units places packets on queue `q`: the destination of a channel's present descriptor, or the output
queue of a feature engine's stage. -/
def feeds (q : Nat) (t : Task) : Bool :=
  t.onUnits && ((match t.dma with
    | some d => !d.desc.isEmpty && dDmode d.desc == 2 && dDst d.desc == q
    | none => false)
  || (t.ttype == 2 && bit 1 (leAt t.block 7 1) && leAt t.block (if leAt t.block 0 2 = 3 then 52 else 10) 2 == q))

/-- R263: whether receiver `r` of queue `q` is held by other work than task `e`: a sequencer, a served stage or a unit (log entry
119). -/
def receiverHeld (s : State) (e q r : Nat) : Bool :=
  let x := nth {} (getQ s q).recvs r
  x.kind == 1 || x.kind == 2 || s.sched.tasks.any fun p => p.1 != e && takesFrom s q r p.2

/-- R71, R189, R263: whether the producer role of queue `q` is held by another unit than `u`, which works on task `e`: the one
producer of a lossy queue, the sequencer of a HOST queue, or a channel or engine whose stage names the queue (log entry 119). -/
def producerHeld (s : State) (u e q : Nat) : Bool :=
  (match (getQ s q).producer with
    | some p => p != u
    | none => false)
  || (s.graphs.any fun p => p.2.pl.hostQ == some q) || s.sched.tasks.any fun p => p.1 != e && feeds q p.2

/-- R263: an unusable queue endpoint: not VALID, of another world, multicast, or with its role held by another unit. -/
def queueCheck (s : State) (u e : Nat) (l : List Byte) : Nat :=
  let open_ (q : Nat) : Bool := endpointOk s u q && (getQ s q).cfg.mode != .multicast
  if (dSmode l = 2 ∧ ¬ (open_ (dSrc l) && !receiverHeld s e (dSrc l) 0))
    ∨ (dDmode l = 2 ∧ ¬ (open_ (dDst l) && !producerHeld s u e (dDst l))) then 0x09 else 0

/-- R260: `addr`. -/
def dmaAddr (a mode wrap off : Nat) : Nat :=
  if mode = 0 then (a + off) % 2 ^ 64
  else
    let size := 2 ^ (wrap + 12)
    let base := a / size * size
    base + (a - base + off) % size

/-- R260: bytes left before a circular wrap. -/
def dmaRoom (a mode wrap off n : Nat) : Nat :=
  if mode = 0 then n
  else
    let size := 2 ^ (wrap + 12)
    size - (a % size + off) % size

/-- R262: SWAP over bytes. -/
def dmaSwap (mode : Nat) : List Byte → List Byte
  | a :: b :: c :: d :: t =>
    (if mode = 1 then [b, a, d, c] else if mode = 2 then [d, c, b, a] else if mode = 3 then [c, d, a, b] else [a, b, c, d])
      ++ dmaSwap mode t
  | l => l

/-- R273: the error code of a failed access. -/
def dmaCode : MemErr → Nat
  | .denied _ => 0x05
  | .unmapped _ => 0x06
  | .ecc _ => 0x07
  | _ => 0

/-! ### Packet images (R263) -/

/-- R187: the side field of a queue word. -/
def sideField (gen : Nat) (last leap world : Bool) : Nat :=
  gen % 256 * 256 + 128 * b2n last + 64 * b2n world + 16 * b2n leap

/-- R263: the image of a packet: lead cell and data cells. -/
def packetImage (ws : List QWord) (leap : Bool) : List Byte :=
  let w0 := nth {} ws 0
  let lead := leBytes 2 ws.length ++ leBytes 2 (sideField w0.gen (ws.length == 1) leap w0.world)
  let data := wordsToBytes (ws.map fun w => w.data)
  lead ++ zeros 60 ++ data ++ zeros (64 * cdiv ws.length 8 - data.length)

/-- R263: the words of an image, if its lead cell is well formed for a destination queue. -/
def imageWords (lead : List Byte) (maxpkt : Nat) : Option Nat :=
  let n := leAt lead 0 2
  if n = 0 ∨ 8 * maxpkt < n ∨ leAt lead 2 2 ≠ 0 ∨ ¬ (slice lead 4 60).all (· == 0) then none else some n

/-- R263: every data cell of an image swapped, the lead cell left as it is. -/
def swapImage (mode : Nat) (l : List Byte) : List Byte := l.take 64 ++ dmaSwap mode (l.drop 64)

/-! ### The mover (R256, R257, R266) -/

/-- The state in which a task stands after the level was tested. -/
def paced (s : State) (d : DmaRun) : DmaRun :=
  if d.st = .park then d else { d with st := if paceRuns s d then .run else .pace }

/-- R257: the channel that cluster `k` serves: the highest rank, then round-robin after the one last served there. -/
def moverPick (s : State) (k : Nat) : Option Nat :=
  let ready := (List.range 8).filter fun c => burstReady s (8 * k + c)
  let rk (c : Nat) : Nat := ((chTask s (8 * k + c)).map fun x => rank x.2.1).getD 0
  let top := maxN (ready.map rk)
  let last := kvGet (fun _ => 7) s.dmaLast (256 * k + top)
  ((List.range 8).map fun j => (last + 1 + j) % 8).find? fun c => ready.contains c && rk c == top

/-- R260: the bytes of a burst on one memory side, from address `a` with `n` bytes wanted: it ends at a 4 KiB boundary and at a
circular wrap. -/
def sideBytes (base mode wrap off n : Nat) : Nat :=
  min (min n (4096 - dmaAddr base mode wrap off % 4096)) (dmaRoom base mode wrap off n)

/-- R279: a burst of channel `i` started. -/
def countBurst (s : State) (i : Nat) : State := inc s (dmaBase (i / 8) + 0x20)

/-- A burst of channel `i` that did not go through: one whose write is gated is not issued (R277). -/
def burstFails (s s' : State) (e i : Nat) (d : DmaRun) (m : MemErr) : State :=
  if m.gated then chRaise (memFail s e m dmaCode false 0) i 3 else memFail (countBurst s' i) e m dmaCode false d.cur

/-- R260, R263: one burst of a descriptor with a memory on each side: at most BURST bytes, ended early at the end of
the line, a 4 KiB boundary or a wrap. -/
def moveMemory (s : State) (e i : Nat) (t : Task) (d : DmaRun) : State :=
  let u := 64 + i
  let l := d.desc
  let so := d.line * dSstride l + d.off
  let ro := d.line * dDstride l + d.off
  let n := sideBytes (dDst l) (dDmode l) (dDwrap l) ro
    (sideBytes (dSrc l) (dSmode l) (dSwrap l) so (min (dBurst l) (dLen l - d.off)))
  match bindMem (unitRead s u t.sc t.dataGen (dmaAddr (dSrc l) (dSmode l) (dSwrap l) so) n) fun s r =>
      bindMem (unitWrite s u t.sc r.2 (dmaAddr (dDst l) (dDmode l) (dDwrap l) ro) (dmaSwap (dSwap l) r.1)) fun s _ => (s, .ok r.2) with
  | (s', .error m) => burstFails s s' e i d m
  | (s, .ok g) =>
    let s := incBy (countBurst (setData s e g) i) (chBase i + 0x44) (n / 64)
    let off := d.off + n
    let d := if off < dLen l then { d with off := off }
      else if d.line + 1 < dLines l then { d with off := 0, line := d.line + 1 }
      else { d with phase := .complete }
    setRun s e d

/-- R263: an image of a queue descriptor is over. -/
def imageDone (d : DmaRun) : DmaRun :=
  let d := { d with off := d.off + 1, buf := [] }
  if d.off < dLen d.desc then d else { d with phase := .complete }

/-- R279: the data cells of `n` bytes of an image: its lead cell is none. -/
def dataCells (lead : Bool) (n : Nat) : Nat := n / 64 - b2n lead

/-- R214, R256, R263: one burst from a queue: its next packet dequeued whole where the last one has been written, then up to BURST
bytes of its image written. An empty queue leaves the channel waiting. -/
def moveFromQueue (s : State) (e i : Nat) (t : Task) (d : DmaRun) : State :=
  let u := 64 + i
  let l := d.desc
  let q := dSrc l
  let s := usePtr s q
  let next : Option (State × Nat × List Byte) :=
    if ¬ d.buf.isEmpty then some (s, t.dataGen, d.buf)
    else (headWords (getQ s q) 0).map fun n =>
      let (s1, ws, leap) := deqPacket s q u 0 (n + 1)
      let (s1, g) := mergeAll s1 t.dataGen (ws.map QWord.gen)
      (s1, g, swapImage (dSwap l) (packetImage ws leap))
  match next with
  | none => s
  | some (s1, g, img) =>
    let n := sideBytes (dDst l) (dDmode l) (dDwrap l) d.pos (min (dBurst l) img.length)
    match unitWrite s1 u t.sc g (dmaAddr (dDst l) (dDmode l) (dDwrap l) d.pos) (img.take n) with
    | (s2, .error m) => burstFails s s2 e i d m
    | (s2, .ok _) =>
      let s2 := incBy (countBurst (setData s2 e g) i) (chBase i + 0x44) (dataCells d.buf.isEmpty n)
      let d := { d with pos := d.pos + n, buf := img.drop n }
      setRun s2 e (if d.buf.isEmpty then imageDone d else d)

/-- R263: an image that has been read whole enqueued, or waiting for credit. -/
def enqueueImage (s : State) (e i : Nat) (t : Task) (d : DmaRun) (n : Nat) : State :=
  let q := dDst d.desc
  let words := (bytesToWords (dmaSwap (dSwap d.desc) (d.buf.drop 64))).take n
  if (getQ s q).cfg.out ∧ eff s t.dataGen ≠ 0 then chRaise (memFail s e (.gate t.dataGen) dmaCode false 0) i 3
  else match enqUnit s q (64 + i) t.dataGen words with
    | (s', .waits) => s'
    | (s', _) => setRun s' e (imageDone d)

/-- R256, R263: one burst into a queue: the next bytes of an image read, its lead cell on its own (log entry 122), and its words
enqueued once it has been read whole. -/
def moveToQueue (s : State) (e i : Nat) (t : Task) (d : DmaRun) : State :=
  let u := 64 + i
  let l := d.desc
  match imageRead d with
  | some n => enqueueImage s e i t d n
  | none =>
    let want := if d.buf.isEmpty then 64 else min (dBurst l) (64 * (1 + cdiv (leAt d.buf 0 2) 8) - d.buf.length)
    let n := sideBytes (dSrc l) (dSmode l) (dSwrap l) d.pos want
    match unitRead s u t.sc t.dataGen (dmaAddr (dSrc l) (dSmode l) (dSwrap l) d.pos) n with
    | (s', .error m) => burstFails s s' e i d m
    | (s, .ok (b, g)) =>
      let s := incBy (countBurst (setData s e g) i) (chBase i + 0x44) (dataCells d.buf.isEmpty n)
      if d.buf.isEmpty ∧ (imageWords b (getQ s (dDst l)).cfg.maxpkt).isNone then setErr s e { code := 0x08, addr := d.cur }
      else
        let d := { d with pos := d.pos + n, buf := d.buf ++ b }
        let s := setRun s e d
        match getTask s e, imageRead d with
        | some t, some n => enqueueImage s e i t d n
        | _, _ => s

/-- The burst of channel `i`. -/
def chBurst (s : State) (i : Nat) : State :=
  match chTask s i with
  | none => s
  | some (e, t, d) =>
    let d := { d with fresh := false, st := .run }
    let s := setRun s e d
    let t := { t with dma := some d }
    if dSmode d.desc = 2 then moveFromQueue s e i t d
    else if dDmode d.desc = 2 then moveToQueue s e i t d
    else moveMemory s e i t d

/-- DMA_BURST_START (R257, R260, R266): the mover of cluster `k` tests the pacing of its channels and starts the burst
of the channel that stands first. -/
def execDmaBurstStart (k : Nat) (s : State) : Res :=
  let s := (List.range 8).foldl (fun s c =>
    match chTask s (8 * k + c) with
    | some (e, _, d) => if d.phase = .move then setRun s e (paced s d) else s
    | none => s) s
  .next <| match moverPick s k with
  | none => s
  | some c =>
    let rk := ((chTask s (8 * k + c)).map fun x => rank x.2.1).getD 0
    let s' := chBurst s (8 * k + c)
    if getR s' (dmaBase k + 0x20) = getR s (dmaBase k + 0x20) then s' else { s' with dmaLast := kvPut s'.dmaLast (256 * k + rk) c }

/-! ### Descriptors (R261, R268 to R272) -/

/-- DESCRIPTOR_FETCH (R261, R263, R271): channel `i` fetches and checks the descriptor it has come to. -/
def execDescriptorFetch (i : Nat) (s : State) : Res :=
  .next <| match chTask s i with
  | none => s
  | some (e, t, d) =>
    if d.phase ≠ .fetch ∨ d.st = .park then s
    else if d.dlimit < d.dcount + 1 then setErr s e { code := 0x03, addr := d.cur }
    else match unitRead s (64 + i) t.sc t.dataGen d.cur 64 with
      | (s, .error m) => memFail s e m dmaCode true d.cur
      | (s, .ok (l, g)) =>
        let c := if descCheck l ≠ 0 then descCheck l else queueCheck s (64 + i) e l
        let s := setData s e g
        let d := { d with desc := l, dcount := d.dcount + 1, line := 0, off := 0, pos := 0, buf := [],
                          phase := if dLen l = 0 then .complete else .move }
        let s := setRun s e d
        if c = 0 then s else setErr s e { code := c, addr := d.cur }

/-- R270: a read of NEXT issued: it clears the latch. -/
def readNext (s : State) (i : Nat) : State := { s with dmaLatch := s.dmaLatch.filter (· != i) }

/-- DESCRIPTOR_COMPLETE (R268, R270): the writes of a descriptor are visible: STATUS is written back, DONE is raised,
and the read of NEXT is issued, which clears a latched doorbell. -/
def execDescriptorComplete (i : Nat) (s : State) : Res :=
  .next <| match chTask s i with
  | none => s
  | some (e, t, d) =>
    if d.phase ≠ .complete ∨ d.st = .park then s
    else
      let wb := if bit 8 (dCtl d.desc) then unitWrite s (64 + i) t.sc t.dataGen (d.cur + 60) (leBytes 4 (2 ^ 31))
        else (s, .ok ())
      match wb with
      | (s', .error m) => if m.gated then chRaise (memFail s e m dmaCode false 0) i 3
          else memFail s' e m dmaCode false d.cur
      | (s, .ok _) =>
        let s := if bit 7 (dCtl d.desc) then chRaise s i 0 else s
        let s := inc s (chBase i + 0x40)
        let s := if s.dmaLatch.contains i then inc s (chBase i + 0x4C) else s
        setRun (readNext s i) e { d with phase := .next }

/-- NEXT_READ_RETURN (R268, R270, R271): the channel follows NEXT, completes its task, parks, or reads again when its
doorbell latch is set. -/
def execNextReadReturn (i : Nat) (s : State) : Res :=
  .next <| match chTask s i with
  | none => s
  | some (e, t, d) =>
    if d.phase ≠ .next then s
    else match unitRead s (64 + i) t.sc t.dataGen d.cur 8 with
      | (s, .error m) => memFail s e m dmaCode true d.cur
      | (s, .ok (l, g)) =>
        let s := setData s e g
        let nx := leNat l
        if nx ≠ 0 then
          if nx % 8 ≠ 0 then setErr s e { code := 0x01, fetch := true, addr := d.cur }
          else if nx = d.dbegin then setErr s e { code := 0x03, addr := d.cur }
          else if d.st = .park then
            setRun s e { d with st := .run, phase := .fetch, cur := nx, desc := [], dcount := 0, dbegin := nx, finish := false }
          else setRun s e { d with phase := .fetch, cur := nx, desc := [] }
        else if dPark d.desc && d.long then
          if d.st = .park ∧ d.finish then completeTask s e
          else if d.st = .park then setRun s e { d with phase := .complete }
          else if s.dmaLatch.contains i then readNext s i
          else chRaise (setRun s e { d with st := .park, phase := .complete }) i 2
        else completeTask s e

/-- DMA_CH_DOORBELL (R270): the latch is set while the channel is in RUN, PACE or GATE; in PARK the tail's NEXT is read
again; at an IDLE or HALT channel it is counted as spurious. -/
def execDmaChDoorbell (secure : Bool) (i : Nat) (s : State) : Res :=
  .next <| hostAccess secure (unitWorld s (64 + i)) (chBase i + 8) s fun s =>
  let s := inc s (chBase i + 0x48)
  if s.dmaHalt.contains i then inc s (chBase i + 0x4C)
  else match occupant s (64 + i) with
  | none => inc s (chBase i + 0x4C)
  | some (e, t) =>
    match t.dma with
    | some d =>
      if d.st = .park ∧ t.st = .running then setRun (readNext s i) e { d with phase := .next }
      else { s with dmaLatch := i :: s.dmaLatch.filter (· != i) }
    | none => inc s (chBase i + 0x4C)

/-- FINISH (R272, R278): ends a parked task with its completion update; while a read of NEXT is out, only if that returns 0. -/
def execFinish (secure : Bool) (i : Nat) (s : State) : Res :=
  .next <| hostAccess secure (unitWorld s (64 + i)) (chBase i + 4) s fun s =>
  match chTask s i with
  | some (e, _, d) =>
    if d.st ≠ .park then s else if d.phase = .next then setRun s e { d with finish := true } else completeTask s e
  | none => s

/-! ### Errors (R273 to R275) -/

/-- CLEAR (R274): a HALT channel returns to IDLE and DMA_CH_ERR is cleared. -/
def execClear (secure : Bool) (i : Nat) (s : State) : Res :=
  .next <| hostAccess secure (unitWorld s (64 + i)) (chBase i + 4) s fun s =>
  if s.dmaHalt.contains i then
    setR { s with dmaHalt := s.dmaHalt.filter (· != i) } (chBase i + 0x20) 0
  else s

/-- R274: a channel's error: STATUS, DMA_CH_ERR, the ERR interrupt, the diary, HALT, and the stage's window expired. -/
def dmaError (s : State) (i e : Nat) (t : Task) (x : UnitErr) : State :=
  let s := match t.dma with
    | some d => if ¬ x.fetch ∧ ¬ d.desc.isEmpty ∧ bit 8 (dCtl d.desc) ∧ x.code ≠ 0x0A then
        (unitWrite s (64 + i) t.sc t.dataGen (d.cur + 60) (leBytes 4 (2 ^ 30 + x.code))).1 else s
    | none => s
  failTask (haltChannel s i t x) e

/-- DMA_ERROR (R274): the error channel `i` has met takes its effects. -/
def execDmaError (i : Nat) (s : State) : Res :=
  .next <| match occupant s (64 + i) with
  | some (e, t) => match t.err with
    | some x => dmaError s i e t x
    | none => s
  | none => s

/-- R275: whether channel `i` has an access out: a burst, a descriptor fetch or a read of NEXT. -/
def accessOut (s : State) (i : Nat) (d : DmaRun) : Bool :=
  match d.phase with
  | .fetch => d.st != .park
  | .move => burstReady s i && (dDmode d.desc != 2 || (imageRead d).isNone)
  | .complete => false
  | .next => true

/-- DMA_TIMEOUT (R275): a burst, a descriptor fetch or a read of NEXT has had no response within DMA_TIMEOUT. -/
def execDmaTimeout (i : Nat) (s : State) : Res :=
  .next <| match chTask s i with
  | some (e, t, d) =>
    if accessOut s i d then
      dmaError s i e t { code := 0x04, fetch := d.phase != .move, addr := d.cur }
    else s
  | none => s

end Sys2Proof.Machine
end

