-- ==== Sys2Proof/Machine/Admission.lean ====
section
/-!
DEFINITION. Admission and the almanac (spec/05_admission_and_deadlines.md, R132 to R156): the capacities of R133, the
charges of R139, the procedure of R140 with its verdict record, and the order in which graphs are shed and restored.
All arithmetic is on unsigned 64-bit integers, as R139 and R140 say.
-/
namespace Sys2Proof.Machine

/-- A graph of a set with its sequencer. -/
abbrev SetOf := List (Nat × Graph)

/-- An unsigned 64-bit integer (R139). -/
def u64 (n : Nat) : Nat := n % 2 ^ 64

/-- cdiv of R139 in unsigned 64-bit arithmetic. -/
def cdiv64 (a b : Nat) : Nat := u64 (a + b - 1) / b

/-- R132: F, the sustained clock of a cooling class in MHz: C45, C60, C75. -/
def classClock (c : Nat) : Nat := if c = 0 then 600 else if c = 1 then 800 else 1000

/-- R138: the three kinds of graph. -/
inductive GraphKind where
  | lantern | best | timed
  deriving DecidableEq, Repr

/-- R138: the kind of the graph of sequencer `n`. -/
def kindOf (n : Nat) (g : Graph) : GraphKind :=
  if n = 17 then .lantern else if g.hdr.deadline = 0 then .best else .timed

/-- R138: the activation interval T in µs. -/
def interval (g : Graph) : Nat := g.hdr.period * g.hdr.decim

/-- R152: the WCET of a line under a class, effective at a tensor-core clock of `f` MHz. -/
def wcetOf (c f : Nat) (l : CostLine) : Nat :=
  let w := nth 0 l.wcet c
  if (l.type = 5 ∨ l.type = 9) ∧ f < classClock c then cdiv64 (w * classClock c) f else w

/-- R139: CHK of a graph in µs. -/
def chkOf (g : Graph) : Nat := cdiv64 (g.hdr.maxrec * g.nrule * 1302) 1000

/-- R139: the rate form. -/
def rate (n : Nat) (g : Graph) (x : Nat) : Nat :=
  if kindOf n g = .best then 0 else cdiv64 (u64 (x * 1000000)) (interval g)

/-- The sum of a figure over the cost lines that satisfy a condition. -/
def sumLines (g : Graph) (p : CostLine → Bool) (f : CostLine → Nat) : Nat := u64 (sumN ((g.lines.filter p).map f))

/-- TGT of a cost line. -/
def CostLine.tgt (l : CostLine) : Nat := 64 * l.type + l.inst

/-- R139: whether a line names a pinned instance. -/
def pinnedLine (l : CostLine) : Bool := l.type == 9 || (l.inst != 0x3F && (l.type ≤ 4 || l.type == 6 || l.type == 7))

/-- R139: the charge of a graph for the resource of a refusal code of R144. -/
def charge (n : Nat) (g : Graph) (code c f : Nat) : Nat :=
  let time (ty : Nat) := rate n g (sumLines g (fun l => l.type == ty) (wcetOf c f))
  if code = 0x03 then
    rate n g (sumLines g (fun l => l.type == 5 || l.type == 9) fun l => l.cores * wcetOf c f l)
  else if code ≤ 0x08 then time (code - 0x04)
  else if code = 0x09 then time 6
  else if code = 0x0A then time 7
  else if code = 0x0B then rate n g (chkOf g)
  else if code = 0x0D then g.som
  else if code = 0x0E then g.dram
  else if code = 0x0F then rate n g (sumLines g (fun _ => true) CostLine.dramb)
  else if code = 0x10 then rate n g (sumLines g (fun _ => true) CostLine.rows)
  else if code = 0x11 then
    if kindOf n g = .best then 0 else g.hdr.eveslots * sumLines g (fun _ => true) CostLine.gthr
  else if code = 0x12 then g.cells
  else if code = 0x13 then 4 * g.hdr.nflag
  else rate n g (sumLines g (fun l => l.type == 8 && l.inst == code - 0x14) CostLine.pix)

/-- R139: the charge of a graph for a pinned instance. -/
def chargeInst (n : Nat) (g : Graph) (u c f : Nat) : Nat :=
  rate n g (sumLines g (fun l => pinnedLine l && l.tgt == u) (wcetOf c f))

/-- R145: the charges held for a graph under a class: those of the resources in the order of their codes, and those of its pinned
instances by TGT. -/
def chargesHeld (n : Nat) (g : Graph) (c : Nat) : List Nat × List (Nat × Nat) :=
  let codes := ((List.range 19).map (· + 3)).filter (· != 0x0C)
  let tgts := sortL ((g.lines.filter pinnedLine).map CostLine.tgt).eraseDups fun a b => decide (a ≤ b)
  (codes.map fun k => charge n g k c (classClock c), tgts.map fun u => (u, chargeInst n g u c (classClock c)))

/-- R133: the almanac. -/
def almanac (code c : Nat) : Nat :=
  let by3 (a b d : Nat) := if c = 0 then a else if c = 1 then b else d
  if code = 0x03 ∨ code = 0x0A then 60800000
  else if code ≤ 0x06 ∨ code = 0x09 then 3800000
  else if code ≤ 0x08 then 7600000
  else if code = 0x0B then 960000
  else if code = 0x0C then 950000
  else if code = 0x0D then 96468992
  else if code = 0x0E then (if Config.variant = 1 then 135291469824 else 66571993088)
  else if code = 0x0F then by3 280000000000 360000000000 436800000000
  else if code = 0x10 then by3 600000000 780000000 960000000
  else if code = 0x11 then 7680
  else if code = 0x12 then 245760
  else if code = 0x13 then 61440
  else if code = 0x14 then by3 1200000000 1600000000 2000000000
  else by3 600000000 800000000 1000000000

/-- What admission finds (R143): a refusal code with the sequencer named, or 0 when the set is admitted. -/
structure Verdict where
  code   : Nat
  seq    : Nat
  detail : Nat := 0
  demand : Nat := 0
  cap    : Nat := 0
  deriving DecidableEq, Repr

/-- R143: the verdict record. -/
def Verdict.bytes (v : Verdict) (c : Nat) : List Byte :=
  let short := if v.code = 0 ∨ v.code = 0x17 then 0 else v.demand - v.cap
  leBytes 1 v.code ++ leBytes 1 v.seq ++ leBytes 1 c ++ leBytes 1 0 ++ leBytes 2 v.detail ++ leBytes 2 0
    ++ leBytes 8 v.demand ++ leBytes 8 v.cap ++ leBytes 8 short

/-- Pools of the response-time test (R140): STR FLW FTR WRP PYR TC GTH DMA CDC CHK, with their units. -/
def poolUnits : List Nat := [4, 4, 4, 8, 8, 64, 4, 64, 1, 1]

/-- Whether a line runs on pool `k` of R140. -/
def onPool (k : Nat) (l : CostLine) : Bool := if k = 5 then l.type == 5 || l.type == 9 else l.type == k && k < 9

/-- R140: `work`. -/
def work (g : Graph) (k c f : Nat) : Nat :=
  if k = 9 then chkOf g
  else sumLines g (onPool k) fun l => if k = 5 then l.cores * wcetOf c f l else wcetOf c f l

/-- R140: `block`. -/
def blockTime (s : SetOf) (i : Graph) (k c f : Nat) : Nat :=
  let b := if s.any fun p => p.1 == 17 then 50 else 0
  if k = 5 ∨ k = 6 ∨ k = 7 then max b 2
  else maxN (b :: s.flatMap fun p =>
    if kindOf p.1 p.2 = .best ∨ (kindOf p.1 p.2 = .timed ∧ p.2.hdr.prio < i.hdr.prio) then
      (p.2.lines.filter (onPool k)).map (wcetOf c f) else [])

/-- R140: the interference `w` on pool `k` in a window of `r` µs. -/
def interference (s : SetOf) (n : Nat) (i : Graph) (k c f r : Nat) : Nat :=
  let others := s.filter fun p => kindOf p.1 p.2 = .timed && !(p.1 == n && p.2 == i) && decide (i.hdr.prio ≤ p.2.hdr.prio)
  let u := nth 1 poolUnits k
  u64 (sumN (others.map fun p => u64 (cdiv64 r (interval p.2) * cdiv64 (work p.2 k c f) u))
    + (if i.hdr.eveslots = 2 then u64 ((cdiv64 r (interval i) - 1) * cdiv64 (work i k c f) u) else 0))

/-- R140: the fixed point of a pool, or the first value above the deadline. -/
def fixpoint (s : SetOf) (n : Nat) (i : Graph) (k c f base : Nat) : Nat → Nat → Nat
  | 0, r => r
  | m + 1, r =>
    let rn := u64 (base + interference s n i k c f r)
    if rn = r ∨ i.hdr.deadline < rn then rn else fixpoint s n i k c f base m rn

/-- R140: `response`, for the graph of sequencer `n`. -/
def response (s : SetOf) (n : Nat) (i : Graph) (c f : Nat) : Nat :=
  u64 ((List.range 10).foldl (fun total k =>
    let path (l : CostLine) := onPool k l && bit 0 l.lflags
    let own := if k = 9 then chkOf i else sumLines i path (wcetOf c f)
    if own = 0 then total
    else
      let m := if k = 9 then 0 else (i.lines.filter path).length
      let base := u64 (own + (if k = 9 then 21 else m * blockTime s i k c f))
      u64 (total + m + fixpoint s n i k c f base (i.hdr.deadline + 2) base)) 20)

/-- R140: the first capacity check that fails, among codes that `which` selects, naming sequencer `cand`. -/
def capacityFail (s : SetOf) (cand c f : Nat) (which : Nat → Bool) : Option Verdict :=
  ((List.range 19).map (· + 3)).findSome? fun code =>
    if ¬ which code then none
    else if code = 0x0C then
      let us := sortL ((s.flatMap fun p => (p.2.lines.filter pinnedLine).map CostLine.tgt).eraseDups)
        fun a b => decide (a ≤ b)
      us.findSome? fun u =>
        let d := u64 (sumN (s.map fun p => chargeInst p.1 p.2 u c f))
        if almanac 0x0C c < d then some ⟨0x0C, cand, u, d, almanac 0x0C c⟩ else none
    else
      let d := u64 (sumN (s.map fun p => charge p.1 p.2 code c f))
      if almanac code c < d then some ⟨code, cand, 0, d, almanac code c⟩ else none

/-- Graphs by PRIO descending, then sequencer ascending (R140). -/
def byPrio (s : SetOf) : SetOf :=
  sortL s fun a b => decide (b.2.hdr.prio < a.2.hdr.prio ∨ (a.2.hdr.prio = b.2.hdr.prio ∧ a.1 ≤ b.1))

/-- R140: the first timed graph whose response time exceeds its deadline. -/
def deadlineFail (s : SetOf) (c f : Nat) : Option Verdict :=
  (byPrio (s.filter fun p => kindOf p.1 p.2 = .timed)).findSome? fun p =>
    let rt := response s p.1 p.2 c f
    if p.2.hdr.deadline < rt then some ⟨0x16, p.1, 0, rt, p.2.hdr.deadline⟩ else none

/-- R140: `admitted`, at the declared class's own clock, with the set in sequencer order and the candidate's sequencer
(0xFF when there is none). -/
def admitted (shedding : Bool) (s : SetOf) (cand c : Nat) : Verdict :=
  let f := classClock c
  let s := sortL s fun a b => decide (a.1 ≤ b.1)
  let window := s.findSome? fun p => p.2.wins.findSome? fun w =>
    let t := ((p.2.lines.find? fun l => l.stage == w.1).map (wcetOf c f)).getD 0
    if w.2 < t then some (⟨0x01, p.1, w.1, t, w.2⟩ : Verdict) else none
  let slots := s.findSome? fun p =>
    let b := u64 (p.2.hdr.eveslots * interval p.2)
    if kindOf p.1 p.2 = .timed ∧ b < p.2.hdr.deadline then some (⟨0x02, p.1, 0, p.2.hdr.deadline, b⟩ : Verdict) else none
  if shedding then ⟨0x17, cand, 0, 0, 0⟩
  else ((window.orElse fun _ => slots).orElse fun _ =>
    (capacityFail s cand c f fun _ => true).orElse fun _ => deadlineFail s c f).getD ⟨0, cand, 0, 0, 0⟩

/-- The loaded graphs with their sequencers: READY, RUNNING or DRAINING (R140). -/
def loadedSet (s : State) : SetOf := s.graphs.map fun p => (p.1 / 2, p.2)

/-- Whether the module is shedding (R151). -/
def shedding (s : State) : Bool := s.graphs.any fun p => p.2.shed

/-- R149: the check that both graphs of a replacement fit at once: SOM, DRAM, flag words, queue cells, in that order. -/
def bothFit (s : SetOf) (cand c : Nat) : Verdict :=
  ([0x0D, 0x0E, 0x13, 0x12].findSome? fun r => capacityFail s cand c (classClock c) fun k => k == r).getD ⟨0, cand, 0, 0, 0⟩

/-! ### Shedding and restoring (R152 to R156) -/

/-- R153: whether a set passes every time and rate check and the response-time test at a clock. -/
def fitsAt (s : SetOf) (c f : Nat) : Bool :=
  (capacityFail s 0 c f fun k => !(k == 0x0D || k == 0x0E || k == 0x11 || k == 0x12 || k == 0x13)).isNone
    && (deadlineFail s c f).isNone

/-- R153: the order in which one graph is shed before another among timed graphs: those without SAFETY first, then
lowest PRIO, then the most recently admitted. -/
def shedBefore (a b : Nat × Graph) : Bool :=
  let sa := b2n a.2.safety
  let sb := b2n b.2.safety
  decide (sa < sb ∨ (sa = sb ∧ (a.2.hdr.prio < b.2.hdr.prio ∨ (a.2.hdr.prio = b.2.hdr.prio ∧ b.2.order ≤ a.2.order))))

/-- R156: a shedding or restoring step recorded: 0x22 SHED or 0x23 RESTORE with its step of R153. -/
def shedEntry (s : State) (kind key step : Nat) : State :=
  match (s.graphs.find? fun p => p.1 == key).map Prod.snd with
  | none => s
  | some g => raise (diary s kind 1 (unitWorld s (176 + key / 2))
      { seqn := key / 2, graph := g.hdr.gid, detail := step, aux := s.clock.cur }) (mgcBase + 0x10) 7

/-- The shed mark of the graph at a key. -/
def setShed (s : State) (key : Nat) (b : Bool) : State :=
  { s with graphs := s.graphs.map fun p => if p.1 = key then (p.1, { p.2 with shed := b }) else p }

/-- The graphs that are not shed. -/
def liveSet (s : State) : SetOf := (s.graphs.filter fun p => !p.2.shed).map fun p => (p.1 / 2, p.2)

/-- R153: the step of a shed graph. -/
def shedStep (key : Nat) (g : Graph) : Nat :=
  if kindOf (key / 2) g = .best then 1 else if g.safety then 3 else 2

/-- R153: graphs shed one after another until the rest passes at the present clock. -/
def shedLoop : Nat → State → State
  | 0, s => s
  | m + 1, s =>
    if fitsAt (liveSet s) s.cls s.clock.cur then s
    else
      let live := s.graphs.filter fun p => !p.2.shed
      let best := live.filter fun p => kindOf (p.1 / 2) p.2 = .best
      if ¬ best.isEmpty then shedLoop m (best.foldl (fun s p => shedEntry (setShed s p.1 true) 0x22 p.1 1) s)
      else
        match sortL (live.filter fun p => kindOf (p.1 / 2) p.2 = .timed) shedBefore with
        | p :: _ => shedLoop m (shedEntry (setShed s p.1 true) 0x22 p.1 (shedStep p.1 p.2))
        | [] => s

/-- R152, R153: shedding evaluated at the present clock. -/
def shed (s : State) : State := if s.clock.cur < classClock s.cls then shedLoop 41 s else s

/-- R155: the next graph to restore: the reverse of the shedding order, best-effort graphs last. -/
def restoreNext (s : State) : Option Nat :=
  let sh := s.graphs.filter fun p => p.2.shed
  let timed := sortL (sh.filter fun p => kindOf (p.1 / 2) p.2 = .timed) fun a b => shedBefore b a
  (timed.head?.orElse fun _ => sh.head?).map Prod.fst

/-- R155: one restoring step, if the set with the graph passes at the present clock. -/
def restoreOne (s : State) : State :=
  match restoreNext s with
  | none => s
  | some k =>
    let s' := setShed s k false
    if fitsAt (liveSet s') s.cls s.clock.cur then
      shedEntry s' 0x23 k (((s.graphs.find? fun p => p.1 == k).map fun p => shedStep k p.2).getD 0)
    else s

end Sys2Proof.Machine
end

