-- ==== Sys2Proof/Machine/Effects.lean ====
section
/-!
DEFINITION. What graph commands and class changes do at the moment they take effect: GRAPH_START (R76, R93), GRAPH_STOP
and GRAPH_REPLACE (R76 to R78), and the tensor-core clock's changes of frequency (R148, R567).
-/
namespace Sys2Proof.Machine

/-! ### Tensor-core clock (R148, R567) -/

/-- The frequency the clock has once every change requested so far is complete. -/
def goalClock (s : State) : Nat := s.clock.waiting.getD (s.clock.target.getD s.clock.cur)

/-- R567: a change of frequency requested; one requested while another is in progress waits for it. -/
def requestClock (s : State) (f : Nat) : State :=
  if goalClock s = f then s
  else if s.clock.target.isSome then { s with clock := { s.clock with waiting := some f } }
  else { s with clock := { s.clock with target := some f } }

/-- R148: the clock moves for a class change from a class of clock `oldF`. Shedding is evaluated with the new F once the clock has
moved, which is at once where it stays. -/
def moveForClass (s : State) (oldF : Nat) : State :=
  let f := classClock s.cls
  let g := goalClock s
  let s := { s with
    clock := { s.clock with fromF := none },
    health := { s.health with atFSince := if s.clock.cur = f then some (s.health.atFSince.getD (now s)) else none } }
  let s := if g = oldF ∨ f < g then requestClock s f else s
  if s.clock.target.isSome then s else shed s

/-! ### Graphs -/

/-- The running graph of a sequencer with its context. -/
def runningGraph (s : State) (n : Nat) : Option (Nat × Graph) :=
  [(getSeq s n).newCtx, 1 - (getSeq s n).newCtx].findSome? fun c =>
    (getGraph s n c).bind fun g => if g.st = .running then some (c, g) else none

/-- R309: the stream whose graph pipeline `n` works for: the primary's, for the partner of a captured pair. -/
def pipeStream (s : State) (n : Nat) : Nat :=
  match (kvGet (fun _ => ({} : Pipe)) s.pipes n).cap with
  | some c =>
    let r := (kvGet (fun _ => 0) c 0x1C).toNat
    if bit 31 r ∧ bit 30 r then bits 19 16 r else n
  | none => n

/-- R131: the counters of a sequencer, which clear at GRAPH_START. -/
def seqCounters : List Nat := [0x20, 0x24, 0x28, 0x2C, 0x30, 0x34]

/-- R93: a context set up for its graph: all of its state, its last fault and halt code among it (log entry 121). -/
def startContext (s : State) (n c : Nat) : State := setCtx s n c { rst := .run }

/-- One pipeline, and one replaced. -/
def getPipe (s : State) (n : Nat) : Pipe := kvGet (fun _ => {}) s.pipes n
def setPipe (s : State) (n : Nat) (p : Pipe) : State := { s with pipes := kvPut s.pipes n p }

/-- R180: poisoned pages of a graph's surfaces that are not PERSLOT return to tag 0. -/
def clearShared (s : State) (g : Graph) : State :=
  let pages := (g.pl.surfaces.filter fun f => bit 0 f.attr && !bit 2 f.attr).flatMap fun f => pagesOf f.addr f.size
  { s with tags := s.tags.filter fun p => !(p.2 == 0xFF && pages.contains p.1) }

/-- R541: no lantern set has any progress. -/
def clearSets (s : State) : State :=
  let sets := s.chk.sets.map fun p => (p.1, { p.2 with next := 0, done := 0, judged := false })
  { s with chk := { s.chk with sets := sets } }

/-- R537, R544: the lantern cycles count from the graph's GRAPH_START. -/
def lanternRestart (s : State) : State :=
  clearSets { s with chk := { s.chk with cycle := false, nextCycle := some (now s) } }

/-- R76, R93: a GRAPH_START takes effect: the graph is RUNNING, its context begins issuing and the sequencer's counters clear (R131), its DECIM count begins, its
DEGRADED mark clears (R213), its checker history empties (R530), its shared surfaces lose their poison (R180) and its
pipelines restart their temporal filters (R293). -/
def startEffect (s : State) (n c : Nat) (g : Graph) : State :=
  let s := cancelDoze (setGraph s n c { g with st := .running, startAt := none })
  let s := startContext s n c
  let s := seqCounters.foldl (fun s o => setR s (seqBase n + o) 0) s
  let s := setSeq s n { getSeq s n with newCtx := c, decim := 0, prev := none }
  let s := setR s (qmBase + 0x40) (clearBit n (getR s (qmBase + 0x40)))
  let s := { s with chk := { s.chk with hist := s.chk.hist.filter fun p => p.1 / 8 != n } }
  let s := if n = 17 then lanternRestart s else s
  let s := clearShared s g
  (List.range 16).foldl (fun s m =>
    if pipeStream s m = n then setPipe s m { getPipe s m with restart := true } else s) s

/-- R76: a GRAPH_STOP takes effect: the graph takes no more frames and is DRAINING. -/
def stopEffect (s : State) (n c : Nat) (g : Graph) : State :=
  setGraph s n c { g with st := .draining, stopAt := none }

/-- R78: a GRAPH_REPLACE takes effect: the new graph runs every frame opened from now on, the old one drains. -/
def takeEffect (s : State) (n c : Nat) (g : Graph) : State :=
  let s := cancelDoze (setGraph s n c { g with st := .running, takeAt := none })
  let s := match getGraph s n (1 - c) with
    | some o => if o.st = .running then setGraph s n (1 - c) { o with st := .draining, stopAt := none } else s
    | none => s
  let s := startContext s n c
  clearShared (setSeq s n { getSeq s n with newCtx := c, decim := 0 }) g

/-- R76: the effective times of a sequencer's graphs that have come are honoured, while the module is in RUN. -/
def dueEffects (s : State) (n : Nat) : State :=
  (if s.power.st = .run then [0, 1] else []).foldl (fun s c =>
    match getGraph s n c with
    | none => s
    | some g =>
      let due := fun (t : Option Nat) => (t.map fun t => decide (t ≤ now s)).getD false
      if due g.startAt ∧ g.st = .ready then startEffect s n c g
      else if due g.takeAt then takeEffect s n c g
      else if due g.stopAt then stopEffect s n c g
      else s) s

/-- GRAPH_START_TAKES_EFFECT (R76, R93): of a graph that is READY; the three effects wait while the module is not in RUN. -/
def execGraphStartTakesEffect (n c : Nat) (s : State) : Res :=
  .next <| match getGraph s n c with
  | some g => match g.startAt with
    | some t => if g.st = .ready ∧ s.power.st = .run then startEffect (advance s t) n c g else s
    | none => s
  | none => s

/-- GRAPH_STOP_TAKES_EFFECT (R76, R77). -/
def execGraphStopTakesEffect (n c : Nat) (s : State) : Res :=
  .next <| match getGraph s n c with
  | some g => match g.stopAt with
    | some t => if s.power.st = .run then stopEffect (advance s t) n c g else s
    | none => s
  | none => s

/-- GRAPH_REPLACE_TAKEOVER (R78): of the graph in context `c` that is to take over. -/
def execGraphReplaceTakeover (n c : Nat) (s : State) : Res :=
  .next <| match getGraph s n c with
  | some g => match g.takeAt with
    | some t => if s.power.st = .run then takeEffect (advance s t) n c g else s
    | none => s
  | none => s

end Sys2Proof.Machine
end

