-- ==== Sys2Proof/Machine/Fence.lean ====
section
/-!
DEFINITION. Work taken from units that are fenced or reset (R90, R421, R582), and the fence itself (R593).
-/
namespace Sys2Proof.Machine

/-- Work removed from a unit with nothing left to squash: a dated remainder, or work of a generation committed. -/
def dropWork (s : State) (e : Nat) (t : Task) : State := removeTask s e t

/-- R90, R177, R421: tasks, each with the unit that held it, squashed in one clock as work on fenced units; they are gone
afterwards whatever their generations were. -/
def squashWorks (s : State) (l : List (Nat × Task × Nat)) : State :=
  let s := squashGens s (l.map fun x => (x.2.1.gen, 9, 0, x.2.2))
  l.foldl (fun s x => dropWork s x.1 x.2.1) s

/-- The tasks whose saved contexts core `c` holds in its store, and which would resume from them. -/
def storeTasks (s : State) (c : Nat) : List (Nat × Task × Nat) :=
  ((getTc s c).store.filter (savedLive s)).filterMap fun x => (getTask s x.entry).map fun t => (x.entry, t, c)

/-- R421, R430: the context-store slots of a core discarded, with the tasks that would resume from them. -/
def discardStore (s : State) (c : Nat) : State :=
  let lost := storeTasks s c
  squashWorks (setTc s c { getTc s c with store := [] }) lost

/-- R90, R582: frames in an image pipeline squashed in their slots and discarded. -/
def dropFrames (s : State) (n w : Nat) : State :=
  let p := getPipe s n
  let held := (p.cur.toList ++ p.ended).filterMap IspFrame.slot
  squashSlots (setPipe s n { p with cur := none, ended := [], hold := none }) held (9, 0, w)

/-- R421, R582: the work on a set of units squashed, each task with the lowest-numbered unit of the set that held it. A task
not yet delivered to its units is no work there: its dispatch is rejected (R235, R253). -/
def squashUnits (s : State) (us : List Nat) : State :=
  let mine := s.sched.tasks.filter fun p => p.2.onUnits && p.2.st != .placed && p.2.units.any us.contains
  let on := mine.map fun p =>
    (p.1, p.2, ((us.filter p.2.units.contains).foldl (fun a u => some (min u (a.getD u))) none).getD 0)
  let cores := us.filter fun u => decide (u < 64)
  let lost := cores.flatMap (storeTasks s)
  let s := cores.foldl (fun s u => setTc s u { getTc s u with store := [] }) s
  let s := squashWorks s (on ++ lost)
  us.foldl (fun s u => if 160 ≤ u ∧ u < 176 then dropFrames s (u - 160) u else s) s

/-- R593: a unit fenced for a cause: 1 R420, 2 lantern, 3 no answer, 4 command; at its third fence it is retired. -/
def fenceUnit (s : State) (u cause : Nat) : State :=
  let r := getUnit s u
  if r.mstate = .fenced ∨ r.mstate = .retired then s
  else
    let s := squashUnits (bumpEpoch s u) [u]
    let r := getUnit s u
    let life := decide (3 ≤ r.fences + 1)
    let s := setUnit s u { r with mstate := if life then .retired else .fenced, fences := r.fences + 1 }
    let s := raise s (mgcBase + 0x10) 2
    let s := diary (inc s (mgcBase + 0x48)) (if life then 0x84 else 0x82) 3 (unitWorld s u) { unit := u, code := cause, detail := r.epoch }
    service s 0

/-- R540, R593: the management processor fences the units of failed lantern sets. -/
def lanternFences (s : State) : State :=
  s.chk.fences.foldl (fun s u => fenceUnit s u 2) { s with chk := { s.chk with fences := [] } }

/-- The tasks of a served stage removed with it. -/
def dropChildren (s : State) (e : Nat) : State := (children s e).foldl (fun s k => removeTask s k.1 k.2) s

/-- R338, R429, R490: the stage a task belongs to ended by an error: a served stage with all its tasks. -/
def failStage (s : State) (e : Nat) : State :=
  match (getTask s e).bind Task.parent with
  | some p => failTask (dropChildren s p) p
  | none => lanternFences (failTask s e)

end Sys2Proof.Machine
end

