-- ==== Sys2Proof/Machine/Engine.lean ====
section
/-!
DEFINITION. What the vision, gather and codec engines share: the register block of a unit, the running stage it works
on, slot addresses (R319), frame info as an input (R333), the end of a stage's work, and the report of an error or a
timeout (R338). A stage computes its results and puts them out in order; one that stops at the dating gate goes on from there.
-/
namespace Sys2Proof.Machine

/-- The stage that runs on unit `u` and whose work is still to be done. -/
def engTask (s : State) (u : Nat) : Option (Nat × Task) :=
  match occupant s u with
  | some (e, t) => if t.st = .running ∧ t.err.isNone ∧ ¬ t.worked then some (e, t) else none
  | none => none

/-- The error a stage stops with: its code and address. -/
abbrev EngErr := Sum MemErr (Nat × Nat)

/-- R337 and its like: the code of a failed access, where DENIED, UNMAPPED and ECC follow `first`. -/
def memCode (first : Nat) : MemErr → Nat
  | .denied _ => first
  | .unmapped _ => first + 1
  | _ => first + 2

/-- R319: the address field at offset `o` of a block with its slot step at offset `so`. -/
def slotAddr (l : List Byte) (o so slot : Nat) : Nat := (leAt l o 8 + slot * leAt l so 4) % 2 ^ 64

/-- A memory step of an engine: its failure ends the stage's work. -/
def mem {α β : Type} (r : State × Except MemErr α) (f : State → α → State × Except EngErr β) :
    State × Except EngErr β :=
  match r with
  | (s, .ok a) => f s a
  | (s, .error m) => (s, .error (.inl m))

/-- One output of unit `u` for a stage of data generation `gen`: done, with the generation from then on, or what stops it. -/
def putOut (s : State) (u : Nat) (sc : Bool) (gen : Nat) (fin : State → Nat → State) : EngOut → State × Except EngErr Nat
  | .write a l => mem (unitWrite s u sc gen a l) fun s _ => (s, .ok gen)
  | .read a n => mem (unitRead s u sc gen a n) fun s r => (s, .ok r.2)
  | .packet q ws =>
    if (getQ s q).cfg.out ∧ eff s gen ≠ 0 then (s, .error (.inl (.gate gen)))
    else match enqUnit s q u gen ws with
      | (s, .waits) => (s, .error (.inl .wait))
      | (s, _) => (s, .ok gen)
  | .count a n => (incBy s a n, .ok gen)
  | .raise a i => (Sys2Proof.Machine.raise s a i, .ok gen)
  | .hold => if eff s gen = 0 then (s, .ok gen) else (s, .error (.inl (.gate gen)))
  | .finish k => (fin s k, .ok gen)
  | .fail c a => (s, .error (.inr (c, a)))

/-- The outputs of a stage one after another: those that are left, with the generation, where one stops the unit. -/
def putOuts (u : Nat) (sc : Bool) (fin : State → Nat → State) :
    List EngOut → State → Nat → State × List EngOut × Nat × Option EngErr
  | [], s, gen => (s, [], gen, none)
  | o :: t, s, gen =>
    match putOut s u sc gen fin o with
    | (s, .ok g) => putOuts u sc fin t s g
    | (s, .error x) => (s, o :: t, gen, some x)

/-- The task of an entry changed, if the entry still holds it. -/
def updTask (s : State) (e order : Nat) (f : Task → Task) : State :=
  match getTask s e with
  | some x => if x.order = order then setTask s e (f x) else s
  | none => s

/-- What stops the work of a stage: the gate with its interrupt `bit`, a wait, or an error with the code that `codes` gives a
failed access. -/
def engineStop (s : State) (u e bit : Nat) (codes : MemErr → Nat) : EngErr → State
  | .inl m =>
    let s := if m.gated ∧ u < 196 then raise s (engBase u + 0x20) bit else s
    memFail s e m codes false m.addr
  | .inr (c, a) => setErr s e { code := c, addr := a }

/-- A computed stage puts its outputs out, in order; after the last one its work is `done`. What stops it leaves the rest for its
next step (R173). -/
def engineOut (s : State) (u e bit : Nat) (t : Task) (codes : MemErr → Nat) (fin : State → Nat → State)
    (done : State → State) (l : List EngOut) : State :=
  match putOuts u t.sc fin l s t.dataGen with
  | (s, rest, g, none) => done (updTask s e t.order fun x => { x with outs := some rest, dataGen := g })
  | (s, rest, g, some x) => engineStop (updTask s e t.order fun x => { x with outs := some rest, dataGen := g }) u e bit codes x

/-- R338, R341: the work of a stage is done: counted, with DONE; the codec counts its pictures itself. -/
def engineDone (s : State) (u e order : Nat) : State :=
  let s := updTask s e order fun x => { x with worked := true }
  if 196 ≤ u then s else raise (inc s (engBase u + 0x40)) (engBase u + 0x20) 0

/-- The work of unit `u` for its stage: `w` checks, reads and computes, and answers the outputs with the data generation; they
follow in order. A stage that was stopped among them goes on where it stopped (R173, log entry 29). -/
def engineWork (s : State) (u : Nat) (codes : MemErr → Nat) (fin : State → Nat → Task → Nat → State)
    (w : State → Nat → Task → State × Except EngErr (List EngOut × Nat)) : State :=
  match engTask s u with
  | none => s
  | some (e, t) =>
    let out (s : State) (t : Task) (l : List EngOut) : State :=
      engineOut s u e 3 t codes (fun s k => fin s e t k) (fun s => engineDone s u e t.order) l
    match t.outs with
    | some l => out s t l
    | none => match w s e t with
      | (s, .ok (l, g)) => out s { t with dataGen := g } l
      | (s, .error x) => engineStop s u e 3 codes x

/-- Units without an effect of their own among a stage's outputs. -/
def noFinish (s : State) (_ : Nat) (_ : Task) (_ : Nat) : State := s

/-- Rows of bytes as outputs. -/
def rowOuts (l : List (Nat × List Byte)) : List EngOut := l.map fun p => .write p.1 p.2

/-- R325, R335: the scratch that a stage has used: `n` bytes of its own partial results, whose values are no part of its outputs
(log entry 57), written page by page and read back. -/
def scratchOuts (a n use : Nat) : List EngOut :=
  let pages := List.range (cdiv n 4096)
  (pages.map fun p => .write (a + 4096 * p) ((List.range (min 4096 (n - 4096 * p))).map fun i => Config.freeByte use (4096 * p + i)))
    ++ pages.map fun p => .read (a + 4096 * p) (min 4096 (n - 4096 * p))

/-- A unit error recorded and reported: the error registers, the count and ERR, the diary entry, and the stage ended
(R338). -/
def reportError (s : State) (u e : Nat) (t : Task) (code addr : Nat) : State :=
  failStage (engineErr s u e t { code := code, addr := addr }) e

/-- R333: the frame info at an address, when it is one of a frame: its FSTAT, LINES and PLINES. -/
def frameInfoOf (l : List Byte) (frame : Nat) : Option (Nat × Nat × Nat) :=
  if leAt l 0 2 = 0x0010 ∧ leAt l 60 4 = crc32c (l.take 60) ∧ leAt l 4 4 = frame % 2 ^ 32 then
    some (leAt l 3 1, leAt l 18 2, leAt l 36 2)
  else none

/-- Row `y` of bytes as pixels of `bpp` bytes. -/
def rowPixels (bpp w : Nat) (l : List Byte) : List Nat := (List.range w).map fun x => leAt l (x * bpp) bpp

/-- The rows of a plane: address and length of each. -/
def planeRows (base stride h n : Nat) : List (Nat × Nat) := (List.range h).map fun y => (base + y * stride, n)

/-- A use of free bytes: its number, and the state that has counted it. -/
def freshUse (s : State) : State × Nat := ({ s with uses := s.uses + 1 }, s.uses)

/-- All of a list of field tests. -/
def allOk (l : List Bool) : Bool := l.all id

/-- Bytes that a block keeps reserved: `n` bytes from `o`. -/
def rsv (l : List Byte) (o n : Nat) : Bool := (slice l o n).all (· == 0)

end Sys2Proof.Machine
end

