-- ==== Sys2Proof/Machine/Flow.lean ====
section
/-!
DEFINITION. The optical-flow engines (spec/12_flow_and_feature_engines.md): block and checks (R343, R344), costs and
search (R345 to R347), invalid vectors (R348, R349), outputs and frame info (R350 to R352), scratch (R354).
-/
namespace Sys2Proof.Machine

/-- A flow parameter block (R343). -/
structure FlwBlk where
  nlev : Nat
  fb : Bool
  bslot : Bool
  olev : Nat
  bpp : Nat
  fbt : Nat
  uniq : Nat
  w0 : Nat
  h0 : Nat
  gthr : Nat
  rmarg : Nat
  maxgap : Nat
  srch : Nat

/-- R343: a block read. -/
def flwBlk (l : List Byte) : FlwBlk where
  nlev := leAt l 2 1
  fb := bit 0 (leAt l 3 1)
  bslot := bit 1 (leAt l 3 1)
  olev := bits 4 2 (leAt l 3 1)
  bpp := if leAt l 4 1 = 4 then 2 else 1
  fbt := leAt l 5 1
  uniq := leAt l 6 2
  w0 := leAt l 8 2
  h0 := leAt l 10 2
  gthr := leAt l 12 2
  rmarg := leAt l 14 1
  maxgap := leAt l 15 1
  srch := leAt l 16 2

/-- R344: the slot of image B. -/
def FlwBlk.slotB (b : FlwBlk) (slot : Nat) : Nat := if b.bslot then (slot + 3) % 4 else slot

/-- R354: the scratch a slot needs. -/
def FlwBlk.scratch (b : FlwBlk) : Nat :=
  let v := if b.fb then 2 else 1
  let area (l : Nat) := b.w0 / 2 ^ l * (b.h0 / 2 ^ l)
  let coarse := sumN ((List.range (b.nlev - 1 - b.olev)).map fun k => 4 * v * area (b.olev + 1 + k))
  cdiv (coarse + (if b.fb then 4 * area b.olev else 0)) 4096 * 4096

/-- R342, R344: whether a block of a slot passes the acceptance checks. -/
def flwBlockOk (l : List Byte) (slot : Nat) : Bool :=
  let b := flwBlk l
  let t := b.nlev - 1
  let lev := (List.range (b.nlev - b.olev)).map (b.olev + ·)
  let all6 := List.range 6
  let wo := b.w0 / 2 ^ b.olev
  let al (a : Nat) : Bool := a % 64 == 0
  let opt (o so sl : Nat) : Bool := leAt l o 8 == 0 || al (slotAddr l o so sl)
  allOk [leAt l 0 2 == 2, decide (1 ≤ b.nlev ∧ b.nlev ≤ 6), decide (leAt l 3 1 < 32), decide (b.olev < b.nlev),
    leAt l 4 1 == 2 || leAt l 4 1 == 4, decide (b.uniq ≤ 1023), decide (1 ≤ b.maxgap),
    decide (2 ≤ b.srch ∧ b.srch ≤ 16384), rsv l 18 6, rsv l 164 4, rsv l 180 12,
    b.w0 % 2 ^ t == 0, b.h0 % 2 ^ t == 0, decide (b.w0 ≤ 8192 ∧ b.h0 ≤ 8192),
    lev.all fun k => decide (32 ≤ b.w0 / 2 ^ k ∧ 16 ≤ b.h0 / 2 ^ k),
    al (slotAddr l 24 40 slot), al (slotAddr l 32 44 (b.slotB slot)), all6.all fun k => al (leAt l (72 + 4 * k) 4),
    lev.all fun k => al (leAt l (48 + 4 * k) 4) && decide (b.w0 / 2 ^ k * b.bpp ≤ leAt l (72 + 4 * k) 4),
    al (slotAddr l 96 104 slot), al (leAt l 108 4), decide (4 * wo ≤ leAt l 108 4),
    opt 112 120 slot, al (leAt l 124 4), leAt l 112 8 == 0 || decide (wo ≤ leAt l 124 4),
    al (slotAddr l 128 136 slot), opt 144 160 slot, opt 152 160 (b.slotB slot), opt 168 176 slot,
    decide (b.scratch ≤ leAt l 140 4)]

/-- An image of one level in 8-bit units. -/
structure FlwImg where
  w : Nat
  h : Nat
  rows : List (List Nat)

/-- The code of a pixel, 0 outside, where no measured result looks. -/
def FlwImg.px (f : FlwImg) (x y : Int) : Int :=
  if 0 ≤ x ∧ 0 ≤ y then ((nth 0 (nth [] f.rows y.toNat) x.toNat : Nat) : Int) else 0

/-- R345, R348: fewer than 3 pixels from an edge. -/
def FlwImg.edge (f : FlwImg) (x y : Int) : Bool :=
  decide (x < 3 ∨ y < 3 ∨ (f.w : Int) - 1 - x < 3 ∨ (f.h : Int) - 1 - y < 3)

/-- R345: the 24-bit census code, bit by bit. -/
def flwCensus (f : FlwImg) (x y : Int) : List Bool :=
  (List.range 5).flatMap fun (j : Nat) => (List.range 5).filterMap fun (i : Nat) =>
    if i = 2 ∧ j = 2 then none else some (decide (f.px (x + i - 2) (y + j - 2) < f.px x y))

/-- R345: the cost of vector `(dx, dy)`. -/
def flwCost (a b : FlwImg) (x y dx dy : Int) : Nat :=
  if b.edge (x + dx) (y + dy) then 255
  else sumN ((List.range 3).flatMap fun (j : Nat) => (List.range 3).map fun (i : Nat) =>
    let qx := x + i - 1
    let qy := y + j - 1
    ((flwCensus a qx qy).zip (flwCensus b (qx + dx) (qy + dy))).countP fun p => p.1 != p.2)

/-- R348: where a pixel is counted. -/
inductive FlwKind where
  | valid | border | edge | text | fb | fill
  deriving DecidableEq, Repr

/-- The outcome at a pixel: its kind, its vector's codes and its confidence. -/
structure FlwPix where
  kind : FlwKind := .border
  vx : Int := 0
  vy : Int := 0
  conf : Nat := 0

/-- R327 with costs of the neighbours along one axis. -/
def flwSub (sm sp best : Option Nat) : Int :=
  match sm, sp, best with
  | some m, some p, some b =>
    let den : Int := (m : Int) + p - 2 * b
    if den ≤ 0 then 0
    else
      let num : Int := 16 * ((m : Int) - p)
      clampI (-16) 16 (num.sign * ((num.natAbs + den / 2) / den))
  | _, _, _ => 0

/-- R348: the gradient energy of a pixel. -/
def flwEnergy (f : FlwImg) (x y : Int) : Nat :=
  let sum (dx dy : Int) : Nat := sumN ((List.range 5).flatMap fun (j : Nat) => (List.range 5).map fun (i : Nat) =>
    let px := x + i - 2
    let py := y + j - 2
    (f.px (px + dx) (py + dy) - f.px (px - dx) (py - dy)).natAbs)
  min (sum 1 0) (sum 0 1)

/-- R346: the centre from a line of results of the level above: the nearest valid one at or left of `x`, then right. -/
def flwCentre (line : List FlwPix) (x : Nat) : Int × Int :=
  let ok (p : FlwPix) : Bool := p.kind == .valid
  match ((line.take (x + 1)).reverse.find? ok).orElse fun _ => (line.drop (x + 1)).find? ok with
  | some p => ((2 * p.vx + 16) / 32, (2 * p.vy + 16) / 32)
  | none => (0, 0)

/-- R345 to R348: the outcome at pixel `(x, y)` of image `a` against `b` around centre `c`; `out` at the output level. -/
def flwPixel (k : FlwBlk) (a b : FlwImg) (out : Bool) (x y : Nat) (c : Int × Int) : FlwPix :=
  let cost (dx dy : Int) : Nat := flwCost a b x y (c.1 + dx) (c.2 + dy)
  let offs : List (Int × Int) := (List.range 17).flatMap fun (j : Nat) => (List.range 17).map fun (i : Nat) =>
    ((i : Int) - 8, (j : Int) - 8)
  let cs := offs.map fun o => (o, cost o.1 o.2)
  if a.edge x y ∨ cs.all fun p => p.2 == 255 then {}
  else
    let w := cs.foldl (fun m p => if p.2 < m.2 then p else m) (nth ((0, 0), 255) cs 0)
    let o := w.1
    let best := w.2
    let far := (cs.filter fun p => decide (1 < (p.1.1 - o.1).natAbs ∨ 1 < (p.1.2 - o.2).natAbs)).map Prod.snd
    let s2 := far.foldl min 255
    let at' (dx dy : Int) : Option Nat := if dx.natAbs ≤ 8 ∧ dy.natAbs ≤ 8 then some (cost dx dy) else none
    if out ∧ (o.1.natAbs = 8 ∨ o.2.natAbs = 8) then { kind := .edge }
    else if s2 * 1024 ≤ best * (1024 + k.uniq) ∧ flwEnergy a x y < k.gthr then { kind := .text }
    else {
      kind := .valid,
      vx := (c.1 + o.1) * 32 + flwSub (at' (o.1 - 1) o.2) (at' (o.1 + 1) o.2) (some best),
      vy := (c.2 + o.2) * 32 + flwSub (at' o.1 (o.2 - 1)) (at' o.1 (o.2 + 1)) (some best),
      conf := min 255 (max 1 (256 * (s2 - best) / (s2 + 1))) }

/-- One level of a field, from the level above. -/
def flwLevel (k : FlwBlk) (a b : FlwImg) (out : Bool) (above : Option (List (List FlwPix))) : List (List FlwPix) :=
  (List.range a.h).map fun y => (List.range a.w).map fun x =>
    let c := match above with
      | none => (0, 0)
      | some f => flwCentre (nth [] f (y / 2)) (x / 2)
    flwPixel k a b out x y c

/-- R346: a field from the top level down by `n` levels. -/
def flwField (k : FlwBlk) (a b : Nat → FlwImg) : Nat → List (List FlwPix)
  | 0 => flwLevel k (a (k.nlev - 1)) (b (k.nlev - 1)) (k.nlev - 1 == k.olev) none
  | n + 1 =>
    let l := k.nlev - 2 - n
    flwLevel k (a l) (b l) (l == k.olev) (some (flwField k a b n))

/-- R349: the forward-backward check. -/
def flwCheck (k : FlwBlk) (back : List (List FlwPix)) (y x : Nat) (p : FlwPix) : FlwPix :=
  if p.kind ≠ .valid then p
  else
    let qx := (x : Int) + (p.vx + 16) / 32
    let qy := (y : Int) + (p.vy + 16) / 32
    if qx < 0 ∨ qy < 0 then { kind := .fb }
    else match (nth [] back qy.toNat)[qx.toNat]? with
      | some b =>
        if b.kind = .valid ∧ (p.vx + b.vx).natAbs + (p.vy + b.vy).natAbs ≤ k.fbt then p else { kind := .fb }
      | none => { kind := .fb }

/-- R345 to R349: the output field. -/
def flwCompute (k : FlwBlk) (a b : Nat → FlwImg) : List (List FlwPix) :=
  let f := flwField k a b (k.nlev - 1 - k.olev)
  if ¬ k.fb then f
  else
    let back := flwField k b a (k.nlev - 1 - k.olev)
    f.zipIdx.map fun r => r.1.zipIdx.map fun p => flwCheck k back r.2 p.2 p.1

/-- Reads of one image: the levels searched. -/
def flwRead (s : State) (u : Nat) (t : Task) (gen : Nat) (l : List Byte) (base : Nat) :
    State × Except MemErr ((Nat → FlwImg) × Nat) :=
  let k := flwBlk l
  let lev := (List.range (k.nlev - k.olev)).map (k.olev + ·)
  let rows := lev.flatMap fun j =>
    planeRows (base + leAt l (48 + 4 * j) 4) (leAt l (72 + 4 * j) 4) (k.h0 / 2 ^ j) (k.w0 / 2 ^ j * k.bpp)
  bindMem (unitReadRows s u t.sc gen rows) fun s r =>
    let first (j : Nat) : Nat := sumN ((lev.filter (· < j)).map fun i => k.h0 / 2 ^ i)
    let img (j : Nat) : FlwImg := {
      w := k.w0 / 2 ^ j, h := k.h0 / 2 ^ j,
      rows := ((r.1.drop (first j)).take (k.h0 / 2 ^ j)).map fun row =>
        (rowPixels k.bpp (k.w0 / 2 ^ j) row).map (· / 2 ^ (8 * (k.bpp - 1))) }
    (s, .ok (img, r.2))

/-- R351: the summary of a stage on engine `i`. -/
def flwSummary (l : List Byte) (t : Task) (i sflags frameB rowlim : Nat) (px : List FlwPix) : List Byte :=
  let k := flwBlk l
  let cnt (c : FlwKind) : Nat := px.countP fun p => p.kind == c
  let v := px.filter fun p => p.kind == .valid
  withCrc (leBytes 2 0x21 ++ leBytes 1 t.stream ++ leBytes 1 sflags ++ leBytes 4 t.frame ++ leBytes 4 frameB
    ++ leBytes 4 v.length ++ leBytes 4 (cnt .border) ++ leBytes 4 (cnt .edge) ++ leBytes 4 (cnt .text)
    ++ leBytes 4 (cnt .fb) ++ leBytes 4 (cnt .fill) ++ leBytes 2 rowlim
    ++ leBytes 2 (if v.length = 0 then 0 else 256 * sumN (v.map FlwPix.conf) / v.length)
    ++ leBytes 8 (wrap 64 (sumI (v.map FlwPix.vx))) ++ leBytes 8 (wrap 64 (sumI (v.map FlwPix.vy)))
    ++ leBytes 1 i ++ leBytes 1 k.nlev ++ leBytes 1 k.olev ++ leBytes 1 0)

/-- R350, R351: the outputs of a stage, with the rows from `rowlim` on forced invalid. -/
def flwOuts (u : Nat) (t : Task) (sflags frameB rowlim : Nat) (px : List (List FlwPix)) : List EngOut :=
  let l := t.block
  let px := px.zipIdx.map fun r =>
    if rowlim ≤ r.2 then r.1.map fun p => if p.kind = .valid then { kind := .fill } else p else r.1
  let vec (p : FlwPix) : List Byte :=
    if p.kind = .valid then leBytes 2 (wrap 16 p.vx) ++ leBytes 2 (wrap 16 p.vy) else leBytes 4 0x80008000
  let lines := px.zipIdx.flatMap fun r =>
    (slotAddr l 96 104 t.slot + r.2 * leAt l 108 4, r.1.flatMap vec) ::
      (if leAt l 112 8 = 0 then []
        else [(slotAddr l 112 120 t.slot + r.2 * leAt l 124 4,
          r.1.flatMap fun p => leBytes 1 (if p.kind = .valid then p.conf else 0))])
  let sum := if leAt l 168 8 = 0 then []
    else [(slotAddr l 168 176 t.slot, flwSummary l t (u - 136) sflags frameB rowlim px.flatten)]
  rowOuts (lines ++ sum)

/-- R352: a frame info read where its field enables it: FSTAT and LINES, with its FRAME. -/
def infoAt (s : State) (u : Nat) (t : Task) (gen : Nat) (l : List Byte) (o so slot : Nat) (own : Bool) :
    State × Except EngErr (Option (Nat × Nat × Nat) × Nat) :=
  if leAt l o 8 = 0 then (s, .ok (none, gen))
  else
    let a := slotAddr l o so slot
    mem (unitRead s u t.sc gen a 64) fun s r =>
      let fr := leAt r.1 4 4
      match frameInfoOf r.1 (if own then t.frame else fr) with
      | some (st, n, _) => (s, .ok (some (st, n, fr), r.2))
      | none => (s, .error (.inr (2, a)))

/-- R342 to R352: the work of a flow stage on engine `i`. -/
def flwStage (i : Nat) (s : State) (_ : Nat) (t : Task) : State × Except EngErr (List EngOut × Nat) :=
  let u := 136 + i
  let l := t.block
  if ¬ flwBlockOk l t.slot then (s, .error (.inr (1, t.pblk)))
  else
    let k := flwBlk l
    match infoAt s u t t.dataGen l 144 160 t.slot true with
    | (s, .error e) => (s, .error e)
    | (s, .ok (fa, g)) =>
      match infoAt s u t g l 152 160 (k.slotB t.slot) false with
      | (s, .error e) => (s, .error e)
      | (s, .ok (fb, g)) =>
        let ho := k.h0 / 2 ^ k.olev
        let frameB := (fb.map fun p => p.2.2).getD 0xFFFFFFFF
        let gap := (t.frame + 2 ^ 32 - frameB) % 2 ^ 32
        let info := 4 * b2n (fa.isSome || fb.isSome)
        if fb.isSome ∧ (gap = 0 ∨ k.maxgap < gap) then
          let px := List.replicate ho (List.replicate (k.w0 / 2 ^ k.olev) ({ kind := .fill } : FlwPix))
          (s, .ok (flwOuts u t (info + 1) frameB ho px ++ [.count (engBase u + 0x50) 1, .raise (engBase u + 0x20) 2], g))
        else
          let bad := ((fa.toList ++ fb.toList).filter fun p => bit 0 p.1 || bit 2 p.1).map fun p => p.2.1
          let n := bad.foldl min (nth 0 bad 0)
          let lim := !bad.isEmpty
          let rowlim := if lim then min ho (n * ho / k.srch - k.rmarg) else ho
          mem (flwRead s u t g l (slotAddr l 24 40 t.slot)) fun s a =>
            mem (flwRead s u t a.2 l (slotAddr l 32 44 (k.slotB t.slot))) fun s b =>
              let (s, x) := freshUse s
              (s, .ok (scratchOuts (slotAddr l 128 136 t.slot) k.scratch x
                ++ flwOuts u t (info + 2 * b2n lim) frameB rowlim (flwCompute k a.1 b.1), b.2))

/-- FLOW_STAGE (R342 to R352, R354): engine `i` checks its block and computes its stage. -/
def execFlowStage (i : Nat) (s : State) : Res :=
  .next (engineWork s (136 + i) (memCode 4) noFinish (flwStage i))

end Sys2Proof.Machine
end

