-- ==== Sys2Proof/Machine/Feature.lean ====
section
/-!
DEFINITION. The feature engines (spec/12_flow_and_feature_engines.md): detection (R355 to R361), feature lists, queue
packets and summary (R362 to R364), matching (R365 to R368) and the pattern registers (R361, R372).
-/
namespace Sys2Proof.Machine

/-! ### Packets of a stage (R363) -/

/-- R363: entries cut into packets of at most `n`, each with its header, and the closing packet. -/
def listPackets (frame n total : Nat) : Nat → Nat → List (List Word) → List (List Word)
  | 0, idx, _ => [[BitVec.ofNat 64 (frame * 2 ^ 32 + idx % 65536 * 65536), BitVec.ofNat 64 total]]
  | fuel + 1, idx, es =>
    if es.isEmpty then listPackets frame n total 0 idx []
    else
      let k := min n es.length
      (BitVec.ofNat 64 (frame * 2 ^ 32 + idx % 65536 * 65536 + k) :: (es.take n).flatten)
        :: listPackets frame n total fuel (idx + 1) (es.drop n)

/-- R263, R355: whether a feature engine's output queue can be used: `words` is its largest packet. -/
def ftrQueueOk (s : State) (u e qid words : Nat) : Bool :=
  endpointOk s u qid && (getQ s qid).cfg.mode != .multicast && !producerHeld s u e qid
    && decide (cdiv words 8 ≤ (getQ s qid).cfg.maxpkt)

/-! ### Detection (R355 to R361) -/

/-- R355: the width, height, threshold and arc of a detection block. -/
def detW (l : List Byte) : Nat := leAt l 8 2
def detH (l : List Byte) : Nat := leAt l 10 2
def detBpp (l : List Byte) : Nat := if leAt l 3 1 = 4 then 2 else 1
def detDesc (l : List Byte) : Bool := bit 0 (leAt l 7 1)
def detQout (l : List Byte) : Bool := bit 1 (leAt l 7 1)

/-- R355: whether a detection block of a slot passes the acceptance checks. -/
def detBlockOk (l : List Byte) (slot : Nat) : Bool :=
  let r (lo hi o n : Nat) : Bool := decide (lo ≤ leAt l o n ∧ leAt l o n ≤ hi)
  let al (a : Nat) : Bool := a % 64 == 0
  let opt (o so : Nat) : Bool := leAt l o 8 == 0 || al (slotAddr l o so slot)
  allOk [leAt l 0 2 == 3, r 9 12 2 1, leAt l 3 1 == 2 || leAt l 3 1 == 4, r 1 255 4 2, r 0 7 6 1, r 0 3 7 1,
    r 64 8192 8 2, r 64 8192 10 2, r 4 8 12 1, r 1 64 13 1, r 1 64 14 2, r 1 65536 16 4, r 0 255 20 2, r 2 16384 22 2,
    rsv l 54 2, rsv l 68 4, rsv l 84 44, al (slotAddr l 24 32 slot), al (leAt l 36 4), opt 40 48, opt 56 64, opt 72 80,
    decide (detW l * detBpp l ≤ leAt l 36 4), leAt l 40 8 != 0 || detQout l]

/-- R356: the circle. -/
def ftrCircle : List (Int × Int) :=
  [(0, -3), (1, -3), (2, -2), (3, -1), (3, 0), (3, 1), (2, 2), (1, 3), (0, 3), (-1, 3), (-2, 2), (-3, 1), (-3, 0),
   (-3, -1), (-2, -2), (-1, -3)]

/-- R356: whether `arc` consecutive members of a cycle all hold. -/
def cyclicRun (arc : Nat) (l : List Bool) : Bool :=
  (List.range l.length).any fun i => (List.range arc).all fun j => nth false l ((i + j) % l.length)

/-- R356: the score of a pixel, 0 when it is not tested or no corner. -/
def cornerScore (f : FlwImg) (arc thr rowlim : Nat) (x y : Int) : Nat :=
  if x < 16 ∨ y < 16 ∨ (f.w : Int) - 16 ≤ x ∨ (f.h : Int) - 16 ≤ y ∨ (rowlim : Int) ≤ y then 0
  else
    let c := f.px x y
    let q := ftrCircle.map fun o => f.px (x + o.1) (y + o.2) - c
    if cyclicRun arc (q.map fun d => decide ((thr : Int) < d)) || cyclicRun arc (q.map fun d => decide (d < -(thr : Int)))
    then max (sumN (q.map fun d => (d - (thr : Int)).toNat)) (sumN (q.map fun d => (-d - (thr : Int)).toNat))
    else 0

/-- R357: whether a corner survives suppression, in either of the rule's two cases (log entry 123). -/
def survives (sc : Int → Int → Nat) (x y : Int) : Bool :=
  let v := sc x y
  v != 0 && ((([(-1, -1), (0, -1), (1, -1), (-1, 0)] : List (Int × Int)).all fun o => decide (sc (x + o.1) (y + o.2) < v))
    || ([(1, 0), (-1, 1), (0, 1), (1, 1)] : List (Int × Int)).all fun o => decide (sc (x + o.1) (y + o.2) ≤ v))

/-- R357: the surviving corners in raster order: x, y and score. -/
def corners (f : FlwImg) (arc thr rowlim : Nat) : List (Nat × Nat × Nat) :=
  let rows := (List.range f.h).map fun (y : Nat) => (List.range f.w).map fun (x : Nat) => cornerScore f arc thr rowlim x y
  let sc (x y : Int) : Nat := if x < 0 ∨ y < 0 then 0 else nth 0 (nth [] rows y.toNat) x.toNat
  (List.range f.h).flatMap fun (y : Nat) => (List.range f.w).filterMap fun (x : Nat) =>
    if survives sc x y then some (x, y, sc x y) else none

/-- R358: the corners kept, cell by cell, and the number that the cell limit dropped. -/
def keepCells (w h k cap : Nat) (l : List (Nat × Nat × Nat)) : List (Nat × Nat × Nat) × Nat :=
  let side := 2 ^ k
  let cells := (List.range (cdiv h side)).flatMap fun j => (List.range (cdiv w side)).map fun i =>
    sortL (l.filter fun p => p.1 / side == i && p.2.1 / side == j) fun a b => decide (b.2.2 ≤ a.2.2)
  (cells.flatMap fun c => c.take cap, sumN (cells.map fun c => c.length - cap))

/-- R359: cosines of the bins over a quarter turn, to 60 fraction bits, and R360: to 14. -/
def cosQ60 : List Int := [1152921504606846976, 1130768441178740757, 1065160580698383124, 958619196450722178,
  815238614083298888, 640528868967736374, 441203958630471860, 224923827593068887, 0]
def cosQ14 : List Int := [16384, 16069, 15137, 13623, 11585, 9102, 6270, 3196, 0]

/-- The cosine of bin `k` from a quarter-turn table. -/
def binCos (q : List Int) (k : Nat) : Int :=
  let k := k % 32
  if k ≤ 8 then nth 0 q k else if k ≤ 16 then -nth 0 q (16 - k) else if k ≤ 24 then -nth 0 q (k - 16)
  else nth 0 q (32 - k)

/-- The sine of bin `k`. -/
def binSin (q : List Int) (k : Nat) : Int := binCos q (k + 24)

/-- R359: the bin nearest a direction. -/
def orientBin (m10 m01 : Int) : Nat :=
  let dot (k : Nat) : Int := m10 * binCos cosQ60 k + m01 * binSin cosQ60 k
  (List.range 32).foldl (fun b k => if dot b < dot k then k else b) 0

/-- R359: ORIENT of a feature. -/
def orientOf (f : FlwImg) (x y : Nat) : Nat :=
  let disc : List (Int × Int) := (List.range 31).flatMap fun (j : Nat) => (List.range 31).filterMap fun (i : Nat) =>
    let dx := (i : Int) - 15
    let dy := (j : Int) - 15
    if dx * dx + dy * dy ≤ 225 then some (dx, dy) else none
  orientBin (sumI (disc.map fun o => o.1 * f.px (x + o.1) (y + o.2)))
    (sumI (disc.map fun o => o.2 * f.px (x + o.1) (y + o.2)))

/-- R360: a point rotated by a bin. -/
def rotBin (k : Nat) (p : Int × Int) : Int × Int :=
  let c := binCos cosQ14 k
  let s := binSin cosQ14 k
  ((p.1 * c - p.2 * s + 8192) / 16384, (p.1 * s + p.2 * c + 8192) / 16384)

/-- R360: a 5 × 5 box sum. -/
def box5 (f : FlwImg) (x y : Int) : Int :=
  sumI ((List.range 5).flatMap fun (j : Nat) => (List.range 5).map fun (i : Nat) => f.px (x + i - 2) (y + j - 2))

/-- R372: a pattern pair of unit `i` as FTR_PAT holds it. -/
def patPair (s : State) (i k : Nat) : (Int × Int) × (Int × Int) :=
  let v := getN s (ftrBase i + 0x1000 + 4 * k)
  ((sext 8 (bits 7 0 v), sext 8 (bits 15 8 v)), (sext 8 (bits 23 16 v), sext 8 (bits 31 24 v)))

/-- R361: whether the pattern of unit `i` can be used. -/
def patternOk (s : State) (i : Nat) : Bool :=
  let inside (p : Int × Int) : Bool := decide (p.1 * p.1 + p.2 * p.2 ≤ 169)
  (List.range 256).all fun k =>
    let p := patPair s i k
    inside p.1 && inside p.2 && p.1 != p.2

/-- R360: the 32 bytes of a descriptor. -/
def descriptor (s : State) (i : Nat) (f : FlwImg) (x y orient : Nat) : List Byte :=
  let b (k : Nat) : Nat :=
    let p := patPair s i k
    let a := rotBin orient p.1
    let c := rotBin orient p.2
    b2n (decide (box5 f (x + a.1) (y + a.2) < box5 f (x + c.1) (y + c.2)))
  (List.range 32).map fun j => BitVec.ofNat 8 (sumN ((List.range 8).map fun m => b (8 * j + m) * 2 ^ m))

/-- R362: a feature entry. -/
def featureBytes (s : State) (i : Nat) (l : List Byte) (f : FlwImg) (p : Nat × Nat × Nat) : List Byte :=
  let desc := detDesc l
  let o := if desc then orientOf f p.1 p.2.1 else 0xFF
  leBytes 2 p.1 ++ leBytes 2 p.2.1 ++ leBytes 2 p.2.2 ++ leBytes 1 o ++ leBytes 1 (leAt l 6 1)
    ++ (if desc then descriptor s i f p.1 p.2.1 o else zeros 32)

/-- R355 to R364: the work of a detection stage on engine `i`; a match block is not its. -/
def detStage (i : Nat) (s : State) (e : Nat) (t : Task) : State × Except EngErr (List EngOut × Nat) :=
  let u := 140 + i
  let l := t.block
  if leAt l 0 2 = 4 then (s, .error (.inl .wait))
  else if ¬ detBlockOk l t.slot then (s, .error (.inr (1, t.pblk)))
  else
    let qid := leAt l 52 2
    let batch := leAt l 14 2
    if detQout l ∧ ¬ ftrQueueOk s u e qid (1 + 5 * batch) then (s, .error (.inr (7, qid)))
    else if detDesc l ∧ ¬ patternOk s i then (s, .error (.inr (8, t.pblk)))
    else match infoAt s u t t.dataGen l 56 64 t.slot true with
      | (s, .error x) => (s, .error x)
      | (s, .ok (fi, g)) =>
        let w := detW l
        let h := detH l
        let bpp := detBpp l
        let short := (fi.map fun p => bit 0 p.1 || bit 2 p.1).getD false
        let lines := (fi.map fun p => p.2.1).getD 0
        let rowlim := if short then min h (lines * h / leAt l 22 2 - leAt l 20 2) else h
        mem (unitReadRows s u t.sc g (planeRows (slotAddr l 24 32 t.slot) (leAt l 36 4) h (w * bpp))) fun s r =>
          let f : FlwImg := {
            w := w, h := h,
            rows := r.1.map fun row => (rowPixels bpp w row).map (· / 2 ^ (8 * (bpp - 1))) }
          let all := corners f (leAt l 2 1) (leAt l 4 2) rowlim
          let (kept, ncap) := keepCells w h (leAt l 12 1) (leAt l 13 1) all
          let feats := kept.take (leAt l 16 4)
          let nover := kept.length - feats.length
          let es := feats.map (featureBytes s i l f)
          let pk := if detQout l then listPackets t.frame batch es.length es.length 0 (es.map bytesToWords) else []
          let wr := if leAt l 40 8 = 0 then []
            else es.zipIdx.map fun p => (slotAddr l 40 48 t.slot + 40 * p.2, p.1)
          let sum := if leAt l 72 8 = 0 then [] else [(slotAddr l 72 80 t.slot,
            withCrc (leBytes 2 0x22 ++ leBytes 1 t.stream
              ++ leBytes 1 (b2n short + 2 * b2n fi.isSome + 4 * b2n (detQout l) + 8 * b2n (detDesc l))
              ++ leBytes 4 t.frame ++ leBytes 4 es.length ++ leBytes 4 all.length ++ leBytes 4 ncap
              ++ leBytes 4 nover ++ leBytes 4 pk.length ++ leBytes 2 rowlim ++ leBytes 1 (leAt l 6 1)
              ++ leBytes 1 i ++ leBytes 2 w ++ leBytes 2 h ++ zeros 24))]
          let cut := if ncap + nover = 0 then [] else [.count (engBase u + 0x50) 1, .raise (engBase u + 0x20) 2]
          (s, .ok (rowOuts wr ++ pk.map (EngOut.packet qid) ++ rowOuts sum ++ cut, r.2))

/-- FEATURE_DETECT_STAGE (R342, R355 to R364): engine `i` checks its block and detects. -/
def execFeatureDetectStage (i : Nat) (s : State) : Res :=
  .next (engineWork s (140 + i) (memCode 4) noFinish (detStage i))

/-! ### Matching (R365 to R368) -/

/-- R365: whether a match block of a slot passes the acceptance checks. -/
def matchBlockOk (l : List Byte) (slot : Nat) : Bool :=
  let r (lo hi o n : Nat) : Bool := decide (lo ≤ leAt l o n ∧ leAt l o n ≤ hi)
  let sb := if bit 2 (leAt l 7 1) then (slot + 3) % 4 else slot
  let al (a : Nat) : Bool := a % 64 == 0
  let opt (o so : Nat) : Bool := leAt l o 8 == 0 || al (slotAddr l o so slot)
  allOk [leAt l 0 2 == 4, r 1 255 2 2, r 0 256 4 2, r 0 7 7 1, r 1 1024 8 2, r 1 64 12 2,
    rsv l 14 2, rsv l 28 4, rsv l 44 4, rsv l 68 4, rsv l 84 4, rsv l 100 28,
    al (slotAddr l 16 24 slot), al (slotAddr l 32 40 sb), al (slotAddr l 48 64 slot), al (slotAddr l 56 64 sb),
    opt 72 80, opt 88 96, leAt l 72 8 != 0 || bit 1 (leAt l 7 1)]

/-- A feature as the matcher reads it. -/
structure Feat where
  x : Int
  y : Int
  orient : Nat
  desc : List Byte

/-- R362: an entry read. -/
def featOf (l : List Byte) : Feat where
  x := leAt l 0 2
  y := leAt l 2 2
  orient := leAt l 6 1
  desc := slice l 8 32

/-- Set bits of a byte. -/
def popByte (b : Byte) : Nat := (List.range 8).countP fun i => b.getLsbD i

/-- The Hamming distance of two descriptors. -/
def hamming (a b : List Byte) : Nat := sumN ((a.zip b).map fun p => popByte (p.1 ^^^ p.2))

/-- R366: the candidates of a feature among a list, with their distances, in index order, before the limit. -/
def candidatesOf (rad : Nat) (a : Feat) (bs : List Feat) : List (Nat × Nat) :=
  if a.orient = 0xFF then []
  else bs.zipIdx.filterMap fun p =>
    let b := p.1
    if b.orient ≠ 0xFF ∧ (a.x - b.x) * (a.x - b.x) + (a.y - b.y) * (a.y - b.y) ≤ (rad * rad : Nat) then
      some (p.2, hamming a.desc b.desc)
    else none

/-- R366: the best candidate and the second distance of a candidate list. -/
def bestOf (l : List (Nat × Nat)) : Option ((Nat × Nat) × Option Nat) :=
  match l with
  | [] => none
  | h :: t =>
    let b := t.foldl (fun m p => if p.2 < m.2 then p else m) h
    let rest := (l.filter fun p => p.1 != b.1).map Prod.snd
    some (b, rest.head?.map fun x => rest.foldl min x)

/-- R366: whether a best candidate is accepted. -/
def accepted (maxd marg : Nat) (b : (Nat × Nat) × Option Nat) : Bool :=
  decide (b.1.2 ≤ maxd) && (b.2.map fun d => decide (b.1.2 + marg ≤ d)).getD true

/-- R367: the match word of feature `i` of A. -/
def matchWord (i : Nat) (m : Option Nat) (best : Option ((Nat × Nat) × Option Nat)) : Word :=
  let d1 := (best.map fun b => b.1.2).getD 0x1FF
  let d2 := (best.bind fun b => b.2).getD 0x1FF
  BitVec.ofNat 64 (i % 2 ^ 16 + 2 ^ 16 * (m.getD 0 % 2 ^ 16) + 2 ^ 32 * d1 + 2 ^ 41 * d2 + 2 ^ 63 * b2n m.isNone)

/-- R365: a feature summary accepted: its NF and FRAME. -/
def featSummary (l : List Byte) (own : Option Nat) : Option (Nat × Nat) :=
  if leAt l 0 2 = 0x22 ∧ leAt l 60 4 = crc32c (l.take 60) ∧ (own.map fun f => leAt l 4 4 == f % 2 ^ 32).getD true then
    some (leAt l 8 4, leAt l 4 4)
  else none

/-- R365 to R368: the work of a match stage on engine `i`; a detection block is not its. -/
def matchStage (i : Nat) (s : State) (e : Nat) (t : Task) : State × Except EngErr (List EngOut × Nat) :=
  let u := 140 + i
  let l := t.block
  if leAt l 0 2 ≠ 4 then (s, .error (.inl .wait))
  else if ¬ matchBlockOk l t.slot then (s, .error (.inr (1, t.pblk)))
  else
    let fl := leAt l 7 1
    let qid := leAt l 10 2
    let batch := leAt l 12 2
    let sb := if bit 2 fl then (t.slot + 3) % 4 else t.slot
    if bit 1 fl ∧ ¬ ftrQueueOk s u e qid (1 + batch) then (s, .error (.inr (7, qid)))
    else
      let aa := slotAddr l 48 64 t.slot
      let ba := slotAddr l 56 64 sb
      mem (unitRead s u t.sc t.dataGen aa 64) fun s ra => mem (unitRead s u t.sc ra.2 ba 64) fun s rb =>
        match featSummary ra.1 (some t.frame), featSummary rb.1 none with
        | none, _ => (s, .error (.inr (2, aa)))
        | _, none => (s, .error (.inr (2, ba)))
        | some (na, _), some (nb, frameB) =>
          let rows (base n : Nat) : List (Nat × Nat) := (List.range n).map fun k => (base + 40 * k, 40)
          mem (unitReadRows s u t.sc rb.2 (rows (slotAddr l 16 24 t.slot) na)) fun s la =>
            mem (unitReadRows s u t.sc la.2 (rows (slotAddr l 32 40 sb) nb)) fun s lb =>
              let as_ := la.1.map featOf
              let bs := lb.1.map featOf
              let rad := leAt l 2 2
              let maxc := leAt l 8 2
              let ca := as_.map fun a => candidatesOf rad a bs
              let cb := if bit 0 fl then bs.map fun b => candidatesOf rad b as_ else []
              let ba := ca.map fun c => bestOf (c.take maxc)
              let bb := cb.map fun c => bestOf (c.take maxc)
              let ok (k : Nat) (b : Option ((Nat × Nat) × Option Nat)) : Option Nat := b.bind fun b =>
                if accepted (leAt l 4 2) (leAt l 6 1) b ∧ (¬ bit 0 fl ∨
                    ((nth none bb b.1.1).map fun r => r.1.1 == k).getD false) then some b.1.1 else none
              let ms := ba.zipIdx.map fun p => ok p.2 p.1
              let ws := ba.zipIdx.map fun p => matchWord p.2 (nth none ms p.2) p.1
              let excess (c : List (List (Nat × Nat))) : Nat := sumN (c.map fun x => x.length - maxc)
              let pairs (c : List (List (Nat × Nat))) : Nat := sumN (c.map fun x => min maxc x.length)
              let pk := if bit 1 fl then listPackets t.frame batch na ws.length 0 (ws.map fun w => [w]) else []
              let wr := if leAt l 72 8 = 0 then []
                else ws.zipIdx.map fun p => (slotAddr l 72 80 t.slot + 8 * p.2, leBytes 8 p.1.toNat)
              let sum := if leAt l 88 8 = 0 then [] else [(slotAddr l 88 96 t.slot,
                withCrc (leBytes 2 0x23 ++ leBytes 1 t.stream ++ leBytes 1 (fl % 4) ++ leBytes 4 t.frame
                  ++ leBytes 4 frameB ++ leBytes 4 na ++ leBytes 4 nb
                  ++ leBytes 4 (ms.countP Option.isSome) ++ leBytes 4 (excess ca) ++ leBytes 4 (pairs ca)
                  ++ leBytes 4 (pairs cb) ++ leBytes 1 i ++ zeros 23))]
              (s, .ok (rowOuts wr ++ pk.map (EngOut.packet qid) ++ rowOuts sum, lb.2))

/-- FEATURE_MATCH_STAGE (R342, R365 to R368): engine `i` checks its block and matches list A against list B. -/
def execFeatureMatchStage (i : Nat) (s : State) : Res :=
  .next (engineWork s (140 + i) (memCode 4) noFinish (matchStage i))

/-! ### The pattern (R361, R372) -/

/-- PATTERN_WRITE (R361, R371, R372): a write to FTR_PAT[k] of engine `i` from a world: discarded with PATBUSY while the
engine holds a stage, and ignored once the unit is locked. -/
def execPatternWrite (secure : Bool) (i k : Nat) (v : Reg) (s : State) : Res :=
  .next <| hostAccess secure (unitWorld s (140 + i)) (ftrBase i + 0x1000 + 4 * k) s fun s =>
    if (occupant s (140 + i)).isSome then raise s (ftrBase i + 0x20) 4
    else if flag s (ftrBase i + 8) 0 then s
    else setR s (ftrBase i + 0x1000 + 4 * k) v

end Sys2Proof.Machine
end

