-- ==== Sys2Proof/Machine/Num.lean ====
section
/-!
DEFINITION. The number formats and their arithmetic (spec/02_number_formats.md): exact values, decoding and encoding of
every format (R24 to R32, R34), rounding modes (R45), conversions (R33, R35, R39, R46), NaN rules (R27), and IEEE
arithmetic with one rounding.
-/
namespace Sys2Proof.Machine

/-- An exact value of a float format: ± m · 2^e, an infinity, or a NaN with its sign and its payload as the 23 mantissa
bits of FP32. -/
inductive FV where
  | fin (neg : Bool) (m : Nat) (e : Int)
  | inf (neg : Bool)
  | nan (neg : Bool) (payload : Nat)
  deriving DecidableEq, Repr

/-- The numeric status flags of R47, as bits: 1 SAT, 2 NV, 4 OVF, 8 SEN. -/
abbrev NFlags := Nat

/-- R27: the canonical quiet NaN. -/
def FV.qnan : FV := .nan false 0x400000

/-- Whether a value is a NaN, an infinity or a zero; its sign. -/
def FV.isNan : FV → Bool
  | .nan _ _ => true
  | _ => false
def FV.isInf : FV → Bool
  | .inf _ => true
  | _ => false
def FV.isZero : FV → Bool
  | .fin _ m _ => m == 0
  | _ => false
def FV.sign : FV → Bool
  | .fin n _ _ => n
  | .inf n => n
  | .nan n _ => n

/-- The negation and the magnitude of a value; a NaN keeps its sign (R27; log entry 111). -/
def FV.negate : FV → FV
  | .fin n m e => .fin (!n) m e
  | .inf n => .inf (!n)
  | .nan n p => .nan n p
def FV.absv : FV → FV
  | .fin _ m e => .fin false m e
  | .inf _ => .inf false
  | .nan n p => .nan n p

/-- An integer as a value. -/
def FV.ofInt (i : Int) : FV := .fin (decide (i < 0)) i.natAbs 0

/-- R45: rounding modes: nearest with ties to even, toward zero, nearest with ties away. -/
inductive RMode where
  | rne | rtz | rna
  deriving DecidableEq, Repr

/-- R45: the mode of a code; none for the reserved one. -/
def RMode.ofCode (c : Nat) : Option RMode :=
  if c = 0 then some .rne else if c = 1 then some .rtz else if c = 2 then some .rna else none

/-- A quotient `n / d` of naturals rounded. -/
def roundDiv (r : RMode) (n d : Nat) : Nat :=
  let q := n / d
  let t := 2 * (n % d)
  match r with
  | .rtz => q
  | .rna => if d ≤ t then q + 1 else q
  | .rne => if d < t ∨ (d = t ∧ q % 2 = 1) then q + 1 else q

/-- m · 2^e rounded to a multiple of 2^q, as that multiple. -/
def roundAt (r : RMode) (m : Nat) (e q : Int) : Nat :=
  if q ≤ e then m * 2 ^ (e - q).toNat else roundDiv r m (2 ^ (q - e).toNat)

/-- The exponent of the leading bit of m · 2^e. -/
def topBit (m : Nat) (e : Int) : Int := (Nat.log2 m : Int) + e

/-- A float format: exponent and mantissa widths, bias, the largest finite code, and whether it has infinity and NaN as
IEEE gives them, NaN only (E4M3), or neither. -/
structure FFmt where
  ew   : Nat
  mw   : Nat
  bias : Nat
  maxc : Nat
  /-- 0 neither; 1 E4M3; 2 IEEE -/
  kind : Nat

def FFmt.fp32 : FFmt := ⟨8, 23, 127, 0x7F7FFFFF, 2⟩
def FFmt.bf16 : FFmt := ⟨8, 7, 127, 0x7F7F, 2⟩
def FFmt.fp16 : FFmt := ⟨5, 10, 15, 0x7BFF, 2⟩
def FFmt.e5m2 : FFmt := ⟨5, 2, 15, 0x7B, 2⟩
def FFmt.e4m3 : FFmt := ⟨4, 3, 7, 0x7E, 1⟩
def FFmt.e2m1 : FFmt := ⟨2, 1, 1, 0x7, 0⟩
def FFmt.e3m2 : FFmt := ⟨3, 2, 3, 0x1F, 0⟩

/-- The value of a code. -/
def FFmt.dec (f : FFmt) (c : Nat) : FV :=
  let neg := bit (f.ew + f.mw) c
  let e := c / 2 ^ f.mw % 2 ^ f.ew
  let m := c % 2 ^ f.mw
  if f.kind = 2 ∧ e = 2 ^ f.ew - 1 then
    if m = 0 then .inf neg else .nan neg (m * 2 ^ (23 - f.mw))
  else if f.kind = 1 ∧ c % 2 ^ (f.ew + f.mw) = 0x7F then .nan neg 0x700000
  else if e = 0 then .fin neg m (1 - (f.bias : Int) - f.mw)
  else .fin neg (2 ^ f.mw + m) ((e : Int) - f.bias - f.mw)

/-- R27: the code of a NaN: its payload truncated, the canonical NaN where nothing of it is left. -/
def FFmt.nanCode (f : FFmt) (neg : Bool) (payload : Nat) : Nat :=
  let s := b2n neg * 2 ^ (f.ew + f.mw)
  if f.kind = 1 then s + 0x7F
  else
    let p := payload / 2 ^ (23 - f.mw)
    let e := (2 ^ f.ew - 1) * 2 ^ f.mw
    if p = 0 then e + 2 ^ (f.mw - 1) else s + e + p

/-- R42, R46: a value rounded once into a format. A finite overflow gives infinity with OVF (`sat` false) or the largest
finite value with SAT; a conversion of infinity to a format without it saturates. -/
def FFmt.enc (f : FFmt) (r : RMode) (sat : Bool) (v : FV) : Nat × NFlags :=
  let s (neg : Bool) : Nat := b2n neg * 2 ^ (f.ew + f.mw)
  match v with
  | .nan n p => (f.nanCode n p, 0)
  | .inf n => if f.kind = 2 then (s n + (2 ^ f.ew - 1) * 2 ^ f.mw, 0) else (s n + f.maxc, 1)
  | .fin n m e =>
    if m = 0 then (s n, 0)
    else
      let q := max (topBit m e) (1 - (f.bias : Int)) - f.mw
      let c := ((q + f.mw + f.bias - 1).toNat) * 2 ^ f.mw + roundAt r m e q
      if c ≤ f.maxc then (s n + c, 0)
      else if sat ∨ f.kind ≠ 2 then (s n + f.maxc, 1)
      else (s n + (2 ^ f.ew - 1) * 2 ^ f.mw, 4)

/-- The sum of two finite values, exact; a zero sum is +0 unless both terms are −0. -/
def finAdd (n1 : Bool) (m1 : Nat) (e1 : Int) (n2 : Bool) (m2 : Nat) (e2 : Int) : FV :=
  let e := min e1 e2
  let i (n : Bool) (m : Nat) (x : Int) : Int :=
    let v : Int := (m * 2 ^ (x - e).toNat : Nat)
    if n then -v else v
  let t := i n1 m1 e1 + i n2 m2 e2
  if t = 0 then .fin (n1 && n2 && m1 == 0 && m2 == 0) 0 e else .fin (decide (t < 0)) t.natAbs e

/-- R27, R42: an exact sum; infinity minus infinity is NaN with NV. -/
def FV.add (a b : FV) : FV × NFlags :=
  match a, b with
  | .nan n p, _ => (.nan n p, 0)
  | _, .nan n p => (.nan n p, 0)
  | .inf x, .inf y => if x = y then (.inf x, 0) else (.qnan, 2)
  | .inf x, _ => (.inf x, 0)
  | _, .inf y => (.inf y, 0)
  | .fin n1 m1 e1, .fin n2 m2 e2 => (finAdd n1 m1 e1 n2 m2 e2, 0)

/-- R27: an exact difference; a NaN operand keeps its sign. -/
def FV.sub (a b : FV) : FV × NFlags :=
  match a, b with
  | .nan n p, _ => (.nan n p, 0)
  | _, .nan n p => (.nan n p, 0)
  | _, _ => a.add b.negate

/-- R27, R42: an exact product; zero times infinity is NaN with NV. -/
def FV.mul (a b : FV) : FV × NFlags :=
  match a, b with
  | .nan n p, _ => (.nan n p, 0)
  | _, .nan n p => (.nan n p, 0)
  | .inf x, .inf y => (.inf (x != y), 0)
  | .inf x, .fin y m _ => if m = 0 then (.qnan, 2) else (.inf (x != y), 0)
  | .fin x m _, .inf y => if m = 0 then (.qnan, 2) else (.inf (x != y), 0)
  | .fin n1 m1 e1, .fin n2 m2 e2 => (.fin (n1 != n2) (m1 * m2) (e1 + e2), 0)

/-- A quotient, exact but for a sticky last bit far below every format's precision. -/
def FV.div (a b : FV) : FV × NFlags :=
  match a, b with
  | .nan n p, _ => (.nan n p, 0)
  | _, .nan n p => (.nan n p, 0)
  | .inf _, .inf _ => (.qnan, 2)
  | .inf x, .fin y _ _ => (.inf (x != y), 0)
  | .fin x _ _, .inf y => (.fin (x != y) 0 0, 0)
  | .fin x m1 e1, .fin y m2 e2 =>
    if m2 = 0 then (if m1 = 0 then (.qnan, 2) else (.inf (x != y), 0))
    else
      let k := 64 + Nat.log2 m2
      let n := m1 * 2 ^ k
      (.fin (x != y) (2 * (n / m2) + b2n (n % m2 != 0)) (e1 - e2 - k - 1), 0)

/-- Comparison of finite or infinite values: `a < b`. -/
def FV.lt (a b : FV) : Bool :=
  match a, b with
  | .nan _ _, _ => false
  | _, .nan _ _ => false
  | .inf x, .inf y => x && !y
  | .inf x, _ => x
  | _, .inf y => !y
  | .fin n1 m1 e1, .fin n2 m2 e2 =>
    match finAdd n1 m1 e1 (!n2) m2 e2 with
    | .fin n m _ => n && m != 0
    | _ => false

/-- FP32 arithmetic under RNE on codes (R42, R45): sum, product, quotient. -/
def f32 (v : FV × NFlags) : Nat × NFlags :=
  let r := FFmt.fp32.enc .rne false v.1
  (r.1, r.2.lor v.2)
def f32add (a b : Nat) : Nat := (f32 ((FFmt.fp32.dec a).add (FFmt.fp32.dec b))).1
def f32sub (a b : Nat) : Nat := (f32 ((FFmt.fp32.dec a).sub (FFmt.fp32.dec b))).1
def f32mul (a b : Nat) : Nat := (f32 ((FFmt.fp32.dec a).mul (FFmt.fp32.dec b))).1
def f32div (a b : Nat) : Nat := (f32 ((FFmt.fp32.dec a).div (FFmt.fp32.dec b))).1

/-- An integer as an FP32 code, rounded once. -/
def f32ofInt (i : Int) : Nat := (FFmt.fp32.enc .rne false (FV.ofInt i)).1

/-- A value scaled by 2^k and rounded to an integer; none for NaN and infinity. -/
def FV.toInt (r : RMode) (k : Int) : FV → Option Int
  | .fin n m e =>
    let v : Int := (roundAt r m (e + k) 0 : Nat)
    some (if n then -v else v)
  | _ => none

/-- R46: a value to an integer range, scaled by 2^k: NaN gives 0 with NV, anything beyond saturates with SAT. -/
def toRange (r : RMode) (k lo hi : Int) (v : FV) : Int × NFlags :=
  match v with
  | .nan _ _ => (0, 2)
  | .inf n => (if n then lo else hi, 1)
  | v =>
    let i := (v.toInt r k).getD 0
    if i < lo then (lo, 1) else if hi < i then (hi, 1) else (i, 0)

/-- R39: a requantisation acc · m / 2^s in a mode, saturated to a range. -/
def requant (r : RMode) (acc m : Int) (s : Nat) (lo hi : Int) : Int × NFlags :=
  toRange r (-(s : Int)) lo hi (FV.ofInt (acc * m))

/-- A rational rounded to nearest, ties away from zero; the denominator is positive. -/
def roundAway (n d : Int) : Int := n.sign * ((2 * n.natAbs + d.natAbs) / (2 * d.natAbs) : Nat)

/-- The bits of an FP16 code as an FP32 code, exact. -/
def f16to32 (c : Nat) : Nat := (FFmt.fp32.enc .rne false (FFmt.fp16.dec c)).1

/-- An FP32 code rounded once to FP16, a finite overflow saturating. -/
def f32to16 (c : Nat) : Nat := (FFmt.fp16.enc .rne true (FFmt.fp32.dec c)).1

/-- FP32 terms summed in order, each sum rounded; the sum starts with the first term. -/
def f32sum : List Nat → Nat
  | [] => 0
  | h :: t => t.foldl f32add h

end Sys2Proof.Machine
end

