-- ==== Sys2Proof/Machine/Tile.lean ====
section
/-!
DEFINITION. Format codes and roles (R24, R25), the packing of elements (R28), MX blocks (R29 to R33), QF16 (R34 to R36),
and every conversion (R45, R46).
-/
namespace Sys2Proof.Machine

/-- R24: bits per element of a format code. -/
def fmtWidth (f : Nat) : Nat :=
  if f = 0 ∨ f = 0xB then 4 else if f = 0xC then 6 else if f = 5 ∨ f = 0xA then 32
  else if f = 3 ∨ f = 4 ∨ f = 8 ∨ f = 9 ∨ f = 0xE then 16 else 8

/-- R24: the class of a format. -/
inductive FClass where
  | int | float | mx
  deriving DecidableEq, Repr

/-- R24: the class of a format code. -/
def fmtClass (f : Nat) : FClass :=
  if f = 0xB ∨ f = 0xC ∨ f = 0xD then .mx else if 6 ≤ f ∧ f ≤ 0xA then .float else .int

/-- R24: a MAC operand. -/
def fmtMac (f : Nat) : Bool := f != 5 && f != 0xA && f < 0xF

/-- R24: a format the vector unit computes in. -/
def fmtVec (f : Nat) : Bool := f == 1 || f == 2 || f == 3 || f == 4 || f == 5 || f == 8 || f == 9 || f == 0xA || f == 0xE

/-- R34: SEN, UNS and FRAC of a qualifier. -/
def qSen (q : Nat) : Bool := bit 5 q
def qUns (q : Nat) : Bool := bit 4 q
def qFrac (q : Nat) : Nat := q % 16

/-- R35: a sentinel code. -/
def qSentinel (q c : Nat) : Bool := qSen q && (if qUns q then decide (0xFFFC ≤ c) else c == 0x8000)

/-- The range of an integer format (spec/02, Integer formats; R34). -/
def intLo (f q : Nat) : Int :=
  if f = 2 ∨ f = 4 ∨ (f = 0xE ∧ qUns q) then 0 else -((2 ^ (fmtWidth f - 1) : Nat) : Int)
def intHi (f q : Nat) : Int :=
  if f = 2 ∨ f = 4 ∨ (f = 0xE ∧ qUns q) then (2 ^ fmtWidth f : Nat) - 1 else (2 ^ (fmtWidth f - 1) : Nat) - 1

/-- An integer format's code as an integer (R36: QF16 by UNS). -/
def intVal (f q c : Nat) : Int := if intLo f q = 0 then (c : Int) else sext (fmtWidth f) c

/-- The float format of a code. -/
def fmtF (f : Nat) : FFmt :=
  if f = 6 then .e4m3 else if f = 7 then .e5m2 else if f = 8 then .fp16 else if f = 9 then .bf16 else .fp32

/-- R31: an MX element without its scale. -/
def mxElem (f c : Nat) : FV :=
  if f = 0xB then FFmt.e2m1.dec c else if f = 0xC then FFmt.e3m2.dec c
  else let i := sext 8 c
    .fin (decide (i < 0)) i.natAbs (-6)

/-- R29, R32: an MX element with its block's scale. -/
def mxVal (f c scale : Nat) : FV :=
  if scale = 0xFF then .qnan
  else match mxElem f c with
    | .fin n m e => .fin n m (e + scale - 127)
    | v => v

/-- R28: element `i` of packed bytes. -/
def elemCode (f : Nat) (l : List Byte) (i : Nat) : Nat :=
  let w := fmtWidth f
  leAt l (i * w / 8) ((i * w % 8 + w + 7) / 8) / 2 ^ (i * w % 8) % 2 ^ w

/-- R28: codes packed into bytes; the last byte is filled with zeros. -/
def packCodes (f : Nat) (l : List Nat) : List Byte :=
  let w := fmtWidth f
  let n := l.foldr (fun c a => a * 2 ^ w + c % 2 ^ w) 0
  leBytes ((l.length * w + 7) / 8) n

/-- An element of a tile as the arithmetic sees it. -/
inductive TV where
  | i (v : Int)
  | f (v : FV)
  deriving DecidableEq, Repr

/-- R24, R28 to R36: a stored element's value, without sentinels. -/
def elemVal (f q c scale : Nat) : TV :=
  match fmtClass f with
  | .int => .i (intVal f q c)
  | .float => .f ((fmtF f).dec c)
  | .mx => .f (mxVal f c scale)

/-- The number an element stands for: a QF16 code with its fraction (R34). -/
def elemNumber (f q c scale : Nat) : FV :=
  match elemVal f q c scale with
  | .i v => if f = 0xE then .fin (decide (v < 0)) v.natAbs (-(qFrac q : Int)) else FV.ofInt v
  | .f v => v

/-- R46: a number converted to a format that is not MX, with its flags; between integer formats as log entry 113 says. -/
def convTo (r : RMode) (f q : Nat) (v : FV) : Nat × NFlags :=
  match fmtClass f with
  | .int =>
    let x := toRange r (if f = 0xE then qFrac q else 0) (intLo f q) (intHi f q) v
    (wrap (fmtWidth f) x.1, x.2)
  | _ => (fmtF f).enc r true v

/-- R35, R46: an element converted, with its flags and its lane of the mask. -/
def convElem (r : RMode) (f q c scale g gq : Nat) : Nat × NFlags × Nat :=
  if f = 0xE ∧ qSentinel q c ∧ fmtClass g = .float then
    (if g = 0xA then 0x7FC00000 ||| c else (fmtF g).nanCode false 0x400000, 8, 0)
  else
    let x := convTo r g gq (elemNumber f q c scale)
    (x.1, x.2, 1)

/-- R33: the largest exponent of an MX element, its format's largest finite value and its format. -/
def mxEmax (f : Nat) : Int := if f = 0xB then 2 else if f = 0xC then 4 else 0

/-- R33: an element V / 2^e rounded and clamped. -/
def mxQuant (f : Nat) (e : Int) (v : FV) : Nat :=
  match v with
  | .fin n m x =>
    if f = 0xD then
      let i : Int := (roundAt .rne m (x - e + 6) 0 : Nat)
      wrap 8 (clampI (-127) 127 (if n then -i else i))
    else ((if f = 0xB then FFmt.e2m1 else FFmt.e3m2).enc .rne true (.fin n m (x - e))).1
  | _ => 0

/-- R33: a zero that carries a sign, where the element format has one. -/
def mxZero (f : Nat) (v : FV) : Nat := if f = 0xD then 0 else b2n v.sign * 2 ^ (fmtWidth f - 1)

/-- R33: a block quantised: its scale, its codes and its flags. -/
def mxBlock (f : Nat) (vs : List FV) : Nat × List Nat × NFlags :=
  if vs.any fun v => v.isNan || v.isInf then (0xFF, vs.map fun _ => 0, 2)
  else
    let tops := vs.filterMap fun v => match v with
      | .fin _ m e => if m = 0 then none else some (topBit m e)
      | _ => none
    match tops with
    | [] => (0, vs.map (mxZero f), 0)
    | t :: _ =>
      let e := maxI t tops - mxEmax f
      let sat : NFlags := if 127 < e then 1 else 0
      let e := clampI (-127) 127 e
      ((e + 127).toNat, vs.map (mxQuant f e), sat)

/-- The blocks of 32 of a row. -/
def blocks32 {α : Type} : Nat → List α → List (List α)
  | 0, _ => []
  | n + 1, l => l.take 32 :: blocks32 n (l.drop 32)

/-- R33: a row quantised: its scales, codes and flags. -/
def mxRow (f : Nat) (vs : List FV) : List Nat × List Nat × NFlags :=
  let bs := (blocks32 (cdiv vs.length 32) vs).map (mxBlock f)
  (bs.map Prod.fst, bs.flatMap fun b => b.2.1, bs.foldl (fun a b => a.lor b.2.2) 0)

/-! ### Integer arithmetic of tensor and sequencer programs (R98, R447) -/

/-- R98, R447: FN codes 0 to 12. -/
def scalarAlu (fn : Nat) (x y : Reg) : Reg :=
  let k := y.toNat % 32
  if fn = 0 then x + y else if fn = 1 then x - y else if fn = 2 then x &&& y else if fn = 3 then x ||| y
  else if fn = 4 then x ^^^ y else if fn = 5 then x <<< k else if fn = 6 then x >>> k
  else if fn = 7 then x.sshiftRight k
  else if fn = 8 then (if x.toInt ≤ y.toInt then x else y) else if fn = 9 then (if x.toInt ≤ y.toInt then y else x)
  else if fn = 0xA then (if x.toNat ≤ y.toNat then x else y) else if fn = 0xB then (if x.toNat ≤ y.toNat then y else x)
  else x * y

end Sys2Proof.Machine
end

