-- ==== Sys2Proof/Machine/TcCore.lean ====
section
/-!
DEFINITION. What every tensor instruction shares (spec/14_tensor_cores.md, spec/15_tensor_instruction_set.md): the
registers and tile descriptors (R434 to R440), instruction words and their encodings (R442, R446), tile memory with its
segments and dirty bytes (R403 to R406), faults (R419, R420, R429, R467), dispatch (R436, R438), contexts (R422 to
R425), and the issue of an instruction by one of a core's two units (R407, R443 to R445).
-/
namespace Sys2Proof.Machine

/-! ### Registers -/

/-- Scalar register `i`: s0 reads 0 (R434). -/
def TcUnit.gs (u : TcUnit) (i : Nat) : Reg := if i = 0 then 0 else kvGet (fun _ => 0) u.s i

/-- Address register `i`. -/
def TcUnit.ga (u : TcUnit) (i : Nat) : Word := kvGet (fun _ => 0) u.a i

/-- Tile descriptor `i`. -/
def TcUnit.gtd (u : TcUnit) (i : Nat) : BitVec 128 := kvGet (fun _ => 0) u.td i

/-- Scalar register `i` written; a write to s0 is discarded (R434). -/
def TcUnit.setS (u : TcUnit) (i : Nat) (v : Reg) : TcUnit := if i = 0 then u else { u with s := kvPut u.s i v }

/-- Address register `i` written. -/
def TcUnit.setA (u : TcUnit) (i : Nat) (v : Word) : TcUnit := { u with a := kvPut u.a i v }

/-- Tile descriptor `i` written. -/
def TcUnit.setTd (u : TcUnit) (i : Nat) (v : BitVec 128) : TcUnit := { u with td := kvPut u.td i v }

/-! ### Instruction words (R442, R446) -/

/-- R446: the fields of an opcode; none for an undefined one. -/
def opFields (op : Nat) : Option (List (Nat × Nat)) :=
  if op = 0x00 ∨ op = 0x01 then some []
  else if op = 0x02 then some [(115, 112), (95, 91), (90, 86), (80, 80), (79, 64), (31, 0)]
  else if op = 0x03 then some [(115, 112), (95, 91), (90, 86), (85, 81), (80, 80), (31, 0)]
  else if op = 0x04 then some [(115, 112), (103, 100), (99, 96), (95, 91), (31, 0)]
  else if op = 0x05 then some [(99, 96), (63, 0)]
  else if op = 0x06 then some [(115, 112), (80, 80), (63, 0)]
  else if op = 0x07 then some [(115, 112), (95, 91), (81, 81), (31, 0)]
  else if op = 0x08 then some [(99, 96), (95, 91), (80, 80), (15, 0)]
  else if op = 0x09 then some [(115, 112), (95, 91), (90, 86), (31, 0)]
  else if op = 0x10 ∨ op = 0x11 then some [(115, 112), (99, 96), (95, 91), (81, 81), (80, 80), (31, 0)]
  else if op = 0x12 then some [(115, 112), (83, 81), (80, 80), (47, 32)]
  else if op = 0x13 then some [(115, 112), (47, 32)]
  else if op = 0x14 then some [(115, 112), (111, 108), (99, 96), (47, 32)]
  else if op = 0x15 then some [(115, 112), (111, 108), (99, 96), (80, 80), (31, 0)]
  else if op = 0x20 then
    some [(115, 112), (111, 108), (107, 104), (103, 100), (81, 81), (80, 80), (79, 64), (63, 48)]
  else if op = 0x21 then
    some [(115, 112), (111, 108), (107, 104), (95, 91), (90, 86), (85, 85), (84, 83), (82, 82), (81, 81), (80, 80), (5, 0)]
  else if op = 0x22 then
    some [(115, 112), (111, 108), (107, 104), (103, 100), (95, 91), (88, 88), (87, 86), (85, 80)]
  else if op = 0x23 then some [(115, 112), (111, 108), (83, 80)]
  else if op = 0x24 ∨ op = 0x25 then some [(95, 91), (80, 80), (55, 48), (31, 0)]
  else if op = 0x26 then some [(95, 91), (82, 81), (80, 80), (55, 48), (31, 0)]
  else if op = 0x28 then some [(81, 80)]
  else none

/-- R442: a control, fetch-side or execute-side opcode. -/
def opCtl (op : Nat) : Bool := decide (op < 0x10)
def opFetch (op : Nat) : Bool := decide (0x10 ≤ op ∧ op < 0x20)
def opExec (op : Nat) : Bool := decide (0x20 ≤ op ∧ op < 0x30)

/-- R442: the queue bits an opcode may carry. -/
def opQueueBits (op : Nat) : List (Nat × Nat) :=
  if opFetch op then [(119, 119), (116, 116)] else if opExec op then [(118, 118), (117, 117)] else []

/-- R446, R447, R448, R460 to R462: a field that uses a reserved encoding and raises ENC. -/
def encResv (w : BitVec 128) : Bool :=
  let op := wOp w
  (op == 0x02 && decide (6 ≤ wf w 115 112)) || (op == 0x03 && decide (13 ≤ wf w 115 112))
    || (op == 0x04 && decide (3 ≤ wf w 115 112)) || (op == 0x23 && decide (8 ≤ wf w 83 80))
    || (op == 0x26 && wf w 82 81 == 3) || (op == 0x28 && decide (2 ≤ wf w 81 80))

/-- R442, R446: a defined opcode with every bit the table does not name 0 and no reserved encoding. -/
def encOk (w : BitVec 128) : Bool :=
  match opFields (wOp w) with
  | none => false
  | some fs =>
    let named := ((127, 120) :: opQueueBits (wOp w) ++ fs).foldl
      (fun a f => a.lor ((2 ^ (f.1 + 1 - f.2) - 1) * 2 ^ f.2)) 0
    w.toNat.lor named == named && !encResv w

/-- R468: the checks of a program word against its program's length, its graph's flags and the queues it may name. -/
def tcWordOk (len nflag : Nat) (queueOk : Nat → Bool) (w : BitVec 128) : Bool :=
  let op := wOp w
  encOk w && (op != 0x02 || decide (wf w 79 64 < len))
    && (!(op == 0x24 || op == 0x25 || op == 0x26) || decide (wf w 55 48 < nflag))
    && (!(op == 0x12 || op == 0x13 || op == 0x14) || queueOk (wf w 47 32))

/-- R432: the instructions of a program. -/
def tcProgram : Nat → List Byte → List (BitVec 128)
  | 0, _ => []
  | n + 1, l => BitVec.ofNat 128 (leNat (l.take 16)) :: tcProgram n (l.drop 16)

/-! ### Tile descriptors (R439, R440) -/

/-- A tile descriptor read. -/
structure Td where
  auxStride : Nat
  auxBase : Nat
  sparse : Bool
  qual : Nat
  fmt : Nat
  stride : Nat
  cols : Nat
  rows : Nat
  base : Nat

/-- R439: the fields of a descriptor. -/
def tdOf (v : BitVec 128) : Td where
  auxStride := wf v 127 117
  auxBase := wf v 116 96
  sparse := wf v 94 94 == 1
  qual := wf v 93 88
  fmt := wf v 87 84
  stride := wf v 83 64
  cols := wf v 61 48
  rows := wf v 42 32
  base := wf v 20 0

/-- R439: the reserved bits of a descriptor. -/
def tdResv (v : BitVec 128) : Bool := wf v 95 95 == 0 && wf v 63 62 == 0 && wf v 47 43 == 0 && wf v 31 21 == 0

/-- R440: bytes of a row, and of its auxiliary plane. -/
def Td.rowBytes (t : Td) : Nat := (if t.sparse then t.cols / 2 else t.cols) * fmtWidth t.fmt / 8
def Td.auxBytes (t : Td) : Nat :=
  if t.sparse then t.cols / 8 else if fmtClass t.fmt = .mx then cdiv t.cols 32 else 0

/-- R440: bytes of every row, as address and length, of the tile or of its auxiliary plane. -/
def Td.spans (t : Td) : List (Nat × Nat) := (List.range t.rows).map fun r => (t.base + r * t.stride, t.rowBytes)
def Td.auxSpans (t : Td) : List (Nat × Nat) := (List.range t.rows).map fun r => (t.auxBase + r * t.auxStride, t.auxBytes)

/-- R440: the fault of a descriptor, 0 for none. -/
def tdCheck (v : BitVec 128) : Nat :=
  let t := tdOf v
  if t.rows = 0 ∨ t.cols = 0 ∨ t.cols * fmtWidth t.fmt % 8 ≠ 0
      ∨ ((t.sparse ∨ fmtClass t.fmt = .mx) ∧ t.cols % 32 ≠ 0) then 0x09
  else if t.base % 16 ≠ 0 ∨ t.stride % 16 ≠ 0 ∨ t.auxBase % 16 ≠ 0 then 0x0B
  else if 0x200000 < t.base + (t.rows - 1) * t.stride + t.rowBytes
      ∨ (t.auxBytes ≠ 0 ∧ 0x200000 < t.auxBase + (t.rows - 1) * t.auxStride + t.auxBytes) then 0x0A
  else if t.fmt = 0xF ∨ ¬ tdResv v then 0x03
  else 0

/-! ### Why an instruction does not complete -/

/-- What stops an instruction: a fault with its code and address (R429, R467); a wait, with what the core already did;
the dating gate; or a squash of its own generation (R180). -/
inductive TcStop where
  | fault (code addr : Nat)
  | wait (k : TCore)
  | gate
  | squashed
  deriving DecidableEq, Repr

/-- What an instruction answers: the machine and the core after it. -/
abbrev TcRes (α : Type) := State × Except TcStop α

/-- A step of an instruction: what stops it ends the instruction. -/
def tbind {α β : Type} (r : TcRes α) (f : State → α → TcRes β) : TcRes β :=
  match r with
  | (s, .ok a) => f s a
  | (s, .error e) => (s, .error e)

/-- A condition that raises a fault when it does not hold. -/
def tcNeed {β : Type} (s : State) (ok : Bool) (code : Nat) (f : TcRes β) : TcRes β :=
  if ok then f else (s, .error (.fault code 0))

/-- R440: a descriptor used. -/
def tcTd {β : Type} (s : State) (v : BitVec 128) (f : Td → TcRes β) : TcRes β :=
  if tdCheck v = 0 then f (tdOf v) else (s, .error (.fault (tdCheck v) 0))

/-- R467: the code of a failed memory access. -/
def tcMem {α : Type} (r : State × Except MemErr α) : TcRes α :=
  match r with
  | (s, .ok a) => (s, .ok a)
  | (s, .error (.denied a)) => (s, .error (.fault 0x21 a))
  | (s, .error (.unmapped a)) => (s, .error (.fault 0x22 a))
  | (s, .error (.ecc a)) => (s, .error (.fault 0x24 a))
  | (s, .error (.gate _)) => (s, .error .gate)
  | (s, .error .squashed) => (s, .error .squashed)
  | (s, .error .wait) => (s, .error .squashed)

/-! ### Tile memory (R403 to R406) -/

/-- The byte at a tile-memory address; what the task has not written is free (R404). -/
def tmByte (k : TCore) (a : Nat) : Byte :=
  match k.tm.find? fun p => p.1 == a with
  | some (_, x) => x.b
  | none => Config.freeByte k.tmUse a

/-- The words of 8 bytes that spans touch. -/
def tmWords (l : List (Nat × Nat)) : List Nat :=
  (l.flatMap fun p => if p.2 = 0 then [] else (List.range ((p.1 + p.2 - 1) / 8 + 1 - p.1 / 8)).map (p.1 / 8 + ·)).eraseDups

/-- R403: bytes read from tile memory by core `c`: a single-bit error is corrected and counted, an uncorrectable one
faults. -/
def tmRead (s : State) (c : Nat) (k : TCore) (l : List (Nat × Nat)) : TcRes (List (List Byte)) :=
  let h := getTc s c
  let ws := tmWords l
  if ws.any h.badWords.contains then (s, .error (.fault 0x81 0))
  else
    let n := (ws.filter h.softWords.contains).length
    let s := if n = 0 then s
      else incBy (setTc s c { h with softWords := h.softWords.filter fun w => !ws.contains w }) (tcBase c + 0x64) n
    (s, .ok (l.map fun p => (List.range p.2).map fun i => tmByte k (p.1 + i)))

/-- Bytes stored in tile memory. -/
def tmStore (k : TCore) (a : Nat) (l : List Byte) (seg : Nat) (home : Nat → Option Nat) : TCore :=
  { k with tm := l.zipIdx.foldl (fun m x => kvPut m (a + x.2) ⟨x.1, seg, home x.2⟩) k.tm }

/-- R405: segments that still hold a byte. -/
def liveSegs (k : TCore) : List Nat := k.segs.filter fun g => k.tm.any fun p => p.2.seg == g

/-- R406: dirty bytes held. -/
def dirtyBytes (k : TCore) : Nat := k.tm.countP fun p => p.2.seg == 0

/-- R405, R406: a new segment: its number, with the oldest of 256 made dirty first; none when the dirty bytes would pass
their limit. -/
def newSeg (k : TCore) : Option (TCore × Nat) :=
  let live := liveSegs k
  let k := { k with segs := live }
  let k := if live.length < 256 then k
    else
      let old := nth 0 live 0
      { k with segs := live.drop 1,
               tm := k.tm.map fun p => if p.2.seg = old then (p.1, { p.2 with seg := 0, home := none }) else p }
  if 16384 < dirtyBytes k then none
  else some ({ k with segs := k.segs ++ [k.segNext], segNext := k.segNext + 1 }, k.segNext)

/-- Errors in the words of tile memory that core `c` writes are gone. -/
def tmHeal (s : State) (c : Nat) (l : List (Nat × Nat)) : State :=
  let h := getTc s c
  let ws := tmWords l
  setTc s c { h with badWords := h.badWords.filter fun w => !ws.contains w,
                     softWords := h.softWords.filter fun w => !ws.contains w }

/-- R405: rows of bytes moved by a transfer of core `c` become clean, each row with its home address, or none for bytes their
segment keeps. -/
def tmClean (s : State) (c : Nat) (k : TCore) (rows : List (Nat × List Byte × Option Nat)) : TcRes TCore :=
  match newSeg k with
  | none => (s, .error (.fault 0x85 0))
  | some (k, g) =>
    (tmHeal s c (rows.map fun r => (r.1, r.2.1.length)), .ok (rows.foldl (fun k r => tmStore k r.1 r.2.1 g fun i => r.2.2.map (· + i)) k))

/-- Whether two spans share a byte. -/
def spanHit (a b : Nat × Nat) : Bool := decide (a.1 < b.1 + b.2 ∧ b.1 < a.1 + a.2)

/-- The execute unit waits with a write: `limit` tells the limit on dirty bytes from bytes that a store has yet to read. -/
def dirtyStop (k : TCore) (limit : Bool) : TCore := { k with exec := { k.exec with waiting := true }, dirtyWait := limit }

/-- R405, R406, R445: rows written by the execute unit of core `c`: it waits while an earlier store has not read the
bytes, or while the dirty bytes would pass 16 KiB and a store is pending; with none pending TC_RECORD is raised. -/
def tmDirty (s : State) (c : Nat) (k : TCore) (rows : List (Nat × List Byte)) : TcRes TCore :=
  if rows.any fun r => k.srcs.any fun l => l.2.any fun p => spanHit (r.1, r.2.length) p then (s, .error (.wait (dirtyStop k false)))
  else
    let k' := rows.foldl (fun k r => tmStore k r.1 r.2 0 fun _ => none) k
    if 16384 < dirtyBytes k' then
      if k.srcs.isEmpty then (s, .error (.fault 0x85 0)) else (s, .error (.wait (dirtyStop k true)))
    else
      (tmHeal s c (rows.map fun r => (r.1, r.2.length)), .ok k')

/-! ### Numeric status (R47) -/

/-- R47: flags raised by work on core `c` of data generation `d`: held while the generation lives. -/
def raiseNum (s : State) (c d : Nat) (f : NFlags) : State :=
  if f = 0 then s
  else if eff s d = 0 then setR s (tcBase c + 0x28) (getR s (tcBase c + 0x28) ||| reg f)
  else { s with nstat := s.nstat ++ [(eff s d, c, f)] }

/-! ### Faults (R419, R420, R429) -/

/-- R420: events of the last `w` nanoseconds, with the one that happens now. -/
def recent (s : State) (w : Nat) (l : List Nat) : List Nat := (l.filter fun x => decide (now s ≤ x + w)) ++ [now s]

/-- R418, R420, R603: a retry of a tile on core `c`: counted and judged; the RETRY entry at most once per second. -/
def tcRetry (s : State) (c : Nat) : State :=
  let s := raise (inc s (tcBase c + 0x58)) (tcBase c + 0x20) 2
  let h := getTc s c
  let esc := getN s (tcBase c + 0x40)
  let l := recent s (bits 31 16 esc * 1000000000) h.retries
  let due := match h.retryTime with
    | some x => decide (x + 1000000000 ≤ now s)
    | none => true
  let s := if due then diary s 0x32 1 (unitWorld s c) { unit := c, aux := h.retryNew + 1 } else s
  let s := setTc s c { h with retries := l, retryNew := if due then 0 else h.retryNew + 1,
                              retryTime := if due then some (now s) else h.retryTime }
  if bits 7 0 esc ≤ l.length then fenceUnit s c 1 else s

/-- R429, R431: a fault recorded in core `c`. -/
def faultRegs (s : State) (c gen code pc addr : Nat) : State :=
  let b := tcBase c
  let s := setR s (b + 0x30) (reg (2 ^ 31 + gen % 256 * 256 + code))
  let s := setR (setR (setR s (b + 0x34) (reg (16 * pc))) (b + 0x38) (reg addr)) (b + 0x3C) (reg (addr / 2 ^ 32))
  raise s (b + 0x20) 1

/-- R429: the faults that squash a generation. -/
def squashingFault (code : Nat) : Bool := code == 0x80 || code == 0x81 || code == 0x83 || code == 0x84

/-- R419, R420, R429: a fault of the task of entry `e` met by core `c`. -/
def tcFault (s : State) (c e : Nat) (t : Task) (d code pc addr : Nat) : State :=
  let g := if eff s t.gen = 0 then eff s d else eff s t.gen
  let s := faultRegs s c g code pc addr
  if squashingFault code then
    let s := inc s (tcBase c + 0x5C)
    let s := diary s (if t.remainder then 0x33 else 0x31) 2 (unitWorld s c)
      { unit := c, code := code, detail := g, stream := t.stream, frame := t.frame }
    let h := getTc s c
    let l := recent s 3600000000000 h.faults
    let s := setTc s c { h with faults := l }
    let s := dropWork (squashGen s g 5 0 c) e t
    let s := match t.lid with
      | some l => lanternFences (lanternFail s l 3 (lanternCycle s))
      | none => s
    if 2 ≤ l.length then fenceUnit s c 1 else s
  else failStage (errEntry s t c code addr) e

/-! ### Dispatch and contexts (R422 to R425, R436, R438) -/

/-- R436: the registers at dispatch. -/
def tcRegs (t : Task) (served ordered : Bool) (c pos n : Nat) : TcUnit :=
  let fw := t.src == 0xFF
  { s := (([(1, if fw then 0 else t.frame),
      (2, if fw then 0 else t.stream % 16 + 16 * (t.slot % 4) + 64 * b2n served + 128 * b2n ordered),
      (3, pos), (4, n), (5, t.index), (6, c)]).map fun p => (p.1, reg p.2)),
    a := [(0, BitVec.ofNat 64 t.pblk)] }

/-- R438: whether a tensor block passes the checks of dispatch; `recvs` is how many receivers its SQID has. -/
def tcBlockOk (l : List Byte) (recvs : Nat) : Bool :=
  let fl := leAt l 3 1
  let serve := bit 0 fl
  allOk [leAt l 0 2 == 7, decide (1 ≤ leAt l 2 1 ∧ leAt l 2 1 ≤ 16), decide (fl < 4), rsv l 7 1, rsv l 10 54,
    serve || !bit 1 fl, if serve then leAt l 8 2 != 0 && decide (leAt l 6 1 < recvs) else leAt l 8 2 == 0]

/-- The position after `i` at which a unit's next instruction stands: instructions of the other unit are passed. The
count of entries and of instructions passed goes with it; `note` sees each one passed. -/
def tcSkip (prog : List (BitVec 128)) (mine : Nat → Bool) (note : TCore → BitVec 128 → TCore) :
    Nat → TCore → TcUnit → TCore × TcUnit
  | 0, k, u => (k, u)
  | n + 1, k, u =>
    match prog[u.pc]? with
    | none => (k, u)
    | some w =>
      if opCtl (wOp w) ∨ mine (wOp w) ∨ ¬ (opFetch (wOp w) ∨ opExec (wOp w)) then (k, u)
      else tcSkip prog mine note n (note k w) { u with pc := u.pc + 1, passed := u.passed + 1, other := u.other + 1 }

/-- R445: the tile-memory bytes that a store, `STQ`, `GISS` or procession pass reads, with the registers as they stand at
its place; none for another instruction. -/
def srcSpans (u : TcUnit) (w : BitVec 128) : Option (List (Nat × Nat)) :=
  let td (hi lo : Nat) : Td := tdOf (u.gtd (wf w hi lo))
  let op := wOp w
  if op = 0x11 then some (if wf w 81 81 = 1 then (td 115 112).auxSpans else (td 115 112).spans)
  else if op = 0x13 then some [((td 115 112).base, (td 115 112).rows * (td 115 112).stride)]
  else if op = 0x14 then some (td 115 112).spans
  else if op = 0x15 ∧ wf w 80 80 = 0 then some (td 111 108).spans
  else none

/-- R445: the execute unit passes a store: recorded until the fetch unit has run it. -/
def noteExec (u : TcUnit) (k : TCore) (w : BitVec 128) : TCore :=
  match srcSpans u w with
  | none => k
  | some l => if k.ahead = 0 then { k with srcs := k.srcs ++ [(wOp w != 0x15, l)] } else { k with ahead := k.ahead - 1 }

/-- R445: the fetch unit has run an instruction: a store's source is read. -/
def noteFetch (k : TCore) (u : TcUnit) (w : BitVec 128) : TCore :=
  match srcSpans u w with
  | none => k
  | some _ => if k.srcs.isEmpty then { k with ahead := k.ahead + 1 } else { k with srcs := k.srcs.drop 1 }

/-- Instructions of the other unit ahead of a unit are passed. -/
def tcSettle (k : TCore) (x : Bool) : TCore :=
  let u := k.unit x
  let (k, u) := if x then tcSkip k.prog opExec (noteExec u) 4096 k u else tcSkip k.prog opFetch (fun k _ => k) 4096 k u
  k.setUnit x u

/-- The bytes of a task's program (R62, R225): its placement, found by its entry address. -/
def tcProgBytes (s : State) (t : Task) : Nat :=
  (((getGraph s t.src t.ctx).bind fun g => g.pl.tcprogs.find? fun p => p.2.1 == t.entry).map fun p => p.2.2).getD 0

/-- Receivers that a queue identifier has. -/
def qRecvs (s : State) (q : Nat) : Nat := if qValid s q then (getQ s q).recvs.length else 0

/-- R433, R436, R438, R464: a task starts on its cores: program and block read, registers set; a block that fails its
checks raises PBLK before the first instruction. -/
def tcDispatch (s : State) (e : Nat) : State :=
  match getTask s e with
  | none => s
  | some t =>
    let n := t.units.length
    let prog := tcProgram (tcProgBytes s t / 16) (peek s t.entry (tcProgBytes s t))
    let fl := leAt t.block 3 1
    let s := t.units.zipIdx.foldl (fun s p =>
      let (s, use) := freshUse s
      let regs := tcRegs t (t.parent.isSome) (bit 1 fl) p.1 p.2 n
      let k : TCore := { prog := prog, pos := p.2, n := n, param := t.block, fetch := regs, exec := regs, tmUse := use,
                         d := t.dataGen }
      let s := setR s (tcBase p.1 + 0x30) (clearBit 31 (getR s (tcBase p.1 + 0x30)))
      setTc s p.1 { getTc s p.1 with core := tcSettle (tcSettle k false) true }) s
    if t.lid.isSome ∨ tcBlockOk t.block (qRecvs s (leAt t.block 4 2)) then s
    else tcFault s (nth 0 t.units 0) e t t.dataGen 0x0F 0 t.pblk

/-- R422, R424: core `c` saves the context of a task that is preempted. Loads in flight keep their segments, shards in
the link are dropped with the step that waits for them, and the oldest slot goes to DRAM while six or more are used. A
preemption that finds no free slot waits for a write-back. -/
def tcSave (s : State) (c e : Nat) (t : Task) : State :=
  let h := getTc s c
  let used := h.store.filter (savedLive s)
  let store := used ++ [⟨e, t.order, h.core.pos, h.core⟩]
  let dram := h.dram.filter (savedLive s)
  let move := decide (6 ≤ store.length ∧ dram.length < 256)
  let s := setTc s c { h with store := if move then store.drop 1 else store,
                              dram := if move then dram ++ store.take 1 else dram }
  inc (if 8 ≤ used.length then inc s (tcBase c + 0x84) else s) (tcBase c + 0x7C)

/-- R425: a byte of a saved context restored: a clean byte with a home is read again from there. -/
def refillByte (s : State) (x : TileByte) : TileByte :=
  match x.home with
  | some a => { x with b := memGet s.mem a }
  | none => x

/-- R425: whether every home of a context can be read by core `c` (TC_MEMERR otherwise). -/
def refillOk (s : State) (c : Nat) (t : Task) (k : TCore) : Bool :=
  k.tm.all fun p => match p.2.home with
    | some a => (access s c t.sc false a 1).2 == .ok && !poisoned s a 1 && !cellBad s a 1
    | none => true

/-- R425: core `c` takes up position `pos` of a preempted task from the context saved for it. -/
def tcRestore (s : State) (e : Nat) (c pos : Nat) : State :=
  match getTask s e with
  | none => s
  | some t =>
    let mine (x : TcSaved) : Bool := x.entry == e && x.order == t.order && x.pos == pos
    match s.tcs.findSome? fun p => (p.2.store ++ p.2.dram).find? mine with
    | none => s
    | some x =>
      let s := { s with tcs := s.tcs.map fun p =>
        (p.1, { p.2 with store := p.2.store.filter (!mine ·), dram := p.2.dram.filter (!mine ·) }) }
      let h := getTc s c
      if h.ctxBad then tcFault (setTc s c { h with ctxBad := false }) c e t x.ctx.d 0x84 x.ctx.exec.pc 0
      else if ¬ refillOk s c t x.ctx then tcFault s c e t x.ctx.d 0x86 x.ctx.exec.pc 0
      else
        let n := x.ctx.tm.countP fun p => p.2.home.isSome
        incBy (setTc s c { h with core := { x.ctx with tm := x.ctx.tm.map fun p => (p.1, refillByte s p.2) } })
          (tcBase c + 0x80) (cdiv n 64)

/-- R425: every core of a resumed task restored. -/
def tcResume (s : State) (e : Nat) (us : List Nat) : State :=
  us.zipIdx.foldl (fun s p => tcRestore s e p.1 p.2) s

/-! ### Issue (R407, R442 to R444) -/

/-- The running task of core `c`. -/
def tcTask (s : State) (c : Nat) : Option (Nat × Task) :=
  match occupant s c with
  | some (e, t) => if t.st = .running then some (e, t) else none
  | none => none

/-- R443: whether the front end has delivered a unit's next instruction: no buffer holds more than 32 entries. -/
def tcDelivered (k : TCore) (x : Bool) : Bool := decide ((k.unit x).other ≤ (k.unit (!x)).issued + 32)

/-- R407: a token popped from the queue a unit reads; none when it is empty. -/
def popToken (k : TCore) (x : Bool) : Option TCore :=
  if x then (if k.fq = 0 then none else some { k with fq := k.fq - 1 })
  else (if k.xq = 0 then none else some { k with xq := k.xq - 1 })

/-- R407: a token pushed on the queue a unit writes. -/
def pushToken (k : TCore) (x : Bool) : TCore := if x then { k with xq := k.xq + 1 } else { k with fq := k.fq + 1 }

/-- An instruction done by a unit: its token, its place in program order, and the way to its next instruction, which
is `next` where a branch was taken. -/
def tcDone (k : TCore) (x : Bool) (w : BitVec 128) (next : Nat) : TCore :=
  let u := k.unit x
  let k := if x then k else noteFetch k u w
  let k := if pushesToken w x then pushToken k x else k
  let ctl := opCtl (wOp w)
  let u := { u with pc := next, passed := u.passed + 1, issued := u.issued + 1, granted := false, waiting := false,
                    other := u.other + b2n ctl }
  tcSettle ({ k with dirtyWait := k.dirtyWait && !x }.setUnit x u) x

/-- What an instruction of core `c` answered, taken into the machine. -/
def tcCommit (s : State) (c e : Nat) (t : Task) (k0 : TCore) (pc : Nat) (r : TcRes TCore) : State :=
  match r with
  | (s, .ok k) => setTc s c { getTc s c with core := k }
  | (s', .error (.wait k)) => setTc s' c { getTc s' c with core := k }
  | (_, .error .gate) => raise (stopAtGate s e t k0.d) (tcBase c + 0x20) 3
  | (s', .error .squashed) => s'
  | (s', .error (.fault code a)) => tcFault s' c e t k0.d code pc a

/-- R407, R435, R443: unit `x` of core `c` issues its next instruction, if that has one of the opcodes `op` and can
issue; `f` does its work. -/
def tcIssue (c : Nat) (x : Bool) (op : Nat)
    (f : State → Nat → Task → TCore → BitVec 128 → TcRes TCore) (s : State) : State :=
  match tcTask s c with
  | none => s
  | some (e, t) =>
    let k := (getTc s c).core
    let u := k.unit x
    match k.prog[u.pc]? with
    | none => s
    | some w =>
      if wOp w ≠ op ∨ k.ended ∨ ¬ tcDelivered k x ∨ (pushesToken w x ∧ ¬ tokenRoom k x) then s
      else if ¬ encOk w then tcFault s c e t k.d 0x01 u.pc 0
      else if needsToken w x ∧ ¬ u.granted then
        match popToken k x with
        | none => setTc s c { getTc s c with core := k.setUnit x { u with waiting := true } }
        | some k =>
          let k := k.setUnit x { u with granted := true }
          tcCommit s c e t k u.pc (f s e t k w)
      else tcCommit s c e t k u.pc (f s e t k w)

/-- An instruction of a unit that only computes: its effect on the unit's own registers. -/
def tcCtl (x : Bool) (g : TcUnit → BitVec 128 → Except TcStop TcUnit) (s : State) (_e : Nat) (_t : Task) (k : TCore)
    (w : BitVec 128) : TcRes TCore :=
  match g (k.unit x) w with
  | .ok u => (s, .ok (tcDone (k.setUnit x u) x w (u.pc + 1)))
  | .error z => (s, .error z)

end Sys2Proof.Machine
end

