-- ==== Sys2Proof/Machine/TcCtl.lean ====
section
/-!
DEFINITION. The control instructions of Xazo-T (R447 to R450, R463), which each unit applies to its own copy of the
registers at its own place in the program (R435). `x` names the unit: true for execute, false for fetch.
-/
namespace Sys2Proof.Machine

/-- A 32-bit field or register as a signed number. -/
def s32 (v : Nat) : Int := sext 32 v

/-- TC_NOP (R446): the unit passes a NOP; a word with an undefined opcode raises ENC (R467). -/
def execTcNop (c : Nat) (x : Bool) (s : State) : Res :=
  .next <| match tcTask s c with
  | none => s
  | some (e, t) =>
    let k := (getTc s c).core
    match k.prog[(k.unit x).pc]? with
    | some w =>
      if (opFields (wOp w)).isNone then tcFault s c e t k.d 0x01 (k.unit x).pc 0
      else tcIssue c x 0x00 (tcCtl x fun u _ => .ok u) s
    | none => s

/-- R448: whether a comparison of COND 0 to 5 holds. -/
def tcCond (cond : Nat) (a b : Reg) : Bool :=
  if cond = 0 then a == b else if cond = 1 then a != b else if cond = 2 then decide (a.toInt < b.toInt)
  else if cond = 3 then decide (b.toInt ≤ a.toInt) else if cond = 4 then decide (a.toNat < b.toNat)
  else decide (b.toNat ≤ a.toNat)

/-- R448: a branch on a scalar comparison. -/
def tcBrWork (x : Bool) (s : State) (_ : Nat) (_ : Task) (k : TCore) (w : BitVec 128) : TcRes TCore :=
  let u := k.unit x
  let b := if wf w 80 80 = 1 then reg (wf w 31 0) else u.gs (wf w 90 86)
  if ¬ tcCond (wf w 115 112) (u.gs (wf w 95 91)) b then (s, .ok (tcDone k x w (u.pc + 1)))
  else if k.prog.length ≤ wf w 79 64 then (s, .error (.fault 0x02 0))
  else (s, .ok (tcDone k x w (wf w 79 64)))

/-- TC_BR (R448): a branch on a scalar comparison; a unit that stands past the last instruction raises PC here. -/
def execTcBr (c : Nat) (x : Bool) (s : State) : Res :=
  .next <| match tcTask s c with
  | none => s
  | some (e, t) =>
    let k := (getTc s c).core
    if (k.prog[(k.unit x).pc]?).isNone ∧ ¬ k.ended then tcFault s c e t k.d 0x02 (k.unit x).pc 0
    else tcIssue c x 0x02 (tcBrWork x) s

/-- R447: a scalar operation. -/
def saluWork (u : TcUnit) (w : BitVec 128) : Except TcStop TcUnit :=
  let b := if wf w 80 80 = 1 then reg (wf w 31 0) else u.gs (wf w 85 81)
  .ok (u.setS (wf w 95 91) (scalarAlu (wf w 115 112) (u.gs (wf w 90 86)) b))

/-- SALU (R447). -/
def execSalu (c : Nat) (x : Bool) (s : State) : Res := .next (tcIssue c x 0x03 (tcCtl x saluWork) s)

/-- R447: an address operation. -/
def aaluWork (u : TcUnit) (w : BitVec 128) : Except TcStop TcUnit :=
  let sb := (u.gs (wf w 95 91)).toInt
  let imm := s32 (wf w 31 0)
  let add : Int := if wf w 115 112 = 0 then imm else if wf w 115 112 = 1 then sb else sb * imm
  .ok (u.setA (wf w 99 96) (u.ga (wf w 103 100) + BitVec.ofInt 64 add))

/-- AALU (R447). -/
def execAalu (c : Nat) (x : Bool) (s : State) : Res := .next (tcIssue c x 0x04 (tcCtl x aaluWork) s)

/-- R447: an address register set to an immediate. -/
def movaWork (u : TcUnit) (w : BitVec 128) : Except TcStop TcUnit :=
  .ok (u.setA (wf w 99 96) (BitVec.ofNat 64 (wf w 63 0)))

/-- MOVA (R447). -/
def execMova (c : Nat) (x : Bool) (s : State) : Res := .next (tcIssue c x 0x05 (tcCtl x movaWork) s)

/-- R449: half of a tile descriptor register set. -/
def tdsetWork (u : TcUnit) (w : BitVec 128) : Except TcStop TcUnit :=
  let old := (u.gtd (wf w 115 112)).toNat
  let v := if wf w 80 80 = 1 then wf w 63 0 * 2 ^ 64 + old % 2 ^ 64 else old / 2 ^ 64 * 2 ^ 64 + wf w 63 0
  .ok (u.setTd (wf w 115 112) (BitVec.ofNat 128 v))

/-- TDSET (R449). -/
def execTdset (c : Nat) (x : Bool) (s : State) : Res := .next (tcIssue c x 0x06 (tcCtl x tdsetWork) s)

/-- R449: the base or the auxiliary base of a tile descriptor moved. -/
def tdoffWork (u : TcUnit) (w : BitVec 128) : Except TcStop TcUnit :=
  let old := (u.gtd (wf w 115 112)).toNat
  let lo := if wf w 81 81 = 1 then 96 else 0
  let now : Int := (bits (lo + 20) lo old : Nat)
  let new := now + (u.gs (wf w 95 91)).toInt + s32 (wf w 31 0)
  if new < 0 ∨ 0x1FFFFF < new then .error (.fault 0x0A 0)
  else .ok (u.setTd (wf w 115 112) (BitVec.ofNat 128 (old - now.toNat * 2 ^ lo + new.toNat * 2 ^ lo)))

/-- TDOFF (R449). -/
def execTdoff (c : Nat) (x : Bool) (s : State) : Res := .next (tcIssue c x 0x07 (tcCtl x tdoffWork) s)

/-- R450: a parameter word loaded. -/
def pldWork (x : Bool) (s : State) (e : Nat) (t : Task) (k : TCore) (w : BitVec 128) : TcRes TCore :=
  tcCtl x (fun u w =>
    let off := wf w 15 0
    let n := if wf w 80 80 = 1 then 8 else 4
    if off % n ≠ 0 ∨ k.param.length < off + n then .error (.fault 0x0E 0)
    else if n = 8 then .ok (u.setA (wf w 99 96) (BitVec.ofNat 64 (leAt k.param off 8)))
    else .ok (u.setS (wf w 95 91) (reg (leAt k.param off 4)))) s e t k w

/-- PLD (R450). -/
def execPld (c : Nat) (x : Bool) (s : State) : Res := .next (tcIssue c x 0x08 (pldWork x) s)

/-- R450, R463: both units stand at the same instruction of the program, with opcode `op`. -/
def tcJoined (k : TCore) (op : Nat) : Option (BitVec 128) :=
  match k.prog[k.fetch.pc]? with
  | some w => if wOp w = op ∧ k.fetch.pc = k.exec.pc ∧ k.fetch.passed = k.exec.passed ∧ ¬ k.ended then some w else none
  | none => none

/-- SLD (R450): once both units have reached it, a scalar is loaded from tile memory into both copies. -/
def execSld (c : Nat) (s : State) : Res :=
  .next <| match tcTask s c with
  | none => s
  | some (e, t) =>
    let k := (getTc s c).core
    match tcJoined k 0x09 with
    | none => s
    | some w =>
      let pc := k.exec.pc
      if ¬ encOk w then tcFault s c e t k.d 0x01 pc 0
      else tcCommit s c e t k pc <| tcTd s (k.exec.gtd (wf w 115 112)) fun td =>
        let a := (td.base : Int) + (k.exec.gs (wf w 90 86)).toInt + s32 (wf w 31 0)
        tcNeed s (decide (0 ≤ a ∧ a + 4 ≤ 0x200000)) 0x0A <|
          tbind (tmRead s c k [(a.toNat, 4)]) fun s b =>
            let v := reg (leNat b.flatten)
            let put (k : TCore) (x : Bool) : TCore :=
              tcDone (k.setUnit x ((k.unit x).setS (wf w 95 91) v)) x w (pc + 1)
            (s, .ok (put (put k false) true))

/-- TC_END (R444, R463): both units have reached END; when every core of the run has, the task completes or releases. -/
def execTcEnd (c : Nat) (s : State) : Res :=
  .next <| match tcTask s c with
  | none => s
  | some (e, t) =>
    let k := (getTc s c).core
    match tcJoined k 0x01 with
    | none => s
    | some w =>
      if ¬ encOk w then tcFault s c e t k.d 0x01 k.exec.pc 0
      else
        let s := setTc s c { getTc s c with core := { k with ended := true, fq := 0, xq := 0 } }
        if t.units.all fun u => (getTc s u).core.ended then
          completeTask (t.units.foldl (fun s u => raise s (tcBase u + 0x20) 0) s) e
        else s

end Sys2Proof.Machine
end

