-- ==== Sys2Proof/Machine/TcMem.lean ====
section
/-!
DEFINITION. The fetch-side instructions of Xazo-T (R451 to R455): loads and stores, queues, gather requests and the
procession. A transfer is done in the step that issues it (log entry 30).
-/
namespace Sys2Proof.Machine

/-- The fetch unit's instruction done. -/
def fetchDone (k : TCore) (w : BitVec 128) : TCore := tcDone k false w (k.fetch.pc + 1)

/-- The fetch unit waits at its instruction. -/
def fetchWait {α : Type} (s : State) (k : TCore) : TcRes α :=
  (s, .error (.wait { k with fetch := { k.fetch with waiting := true } }))

/-- Home rows of a transfer paired with the tile rows. -/
def homeRows (a stride : Nat) (l : List (Nat × Nat)) : List (Nat × Nat × Nat) :=
  l.zipIdx.map fun p => (p.1.1, p.1.2, (a + p.2 * stride) % 2 ^ 64)

/-- R405, R464: rows loaded from home into tile memory, with the generation they bring. -/
def loadRows (s : State) (c : Nat) (t : Task) (k : TCore) (rows : List (Nat × Nat × Nat)) : TcRes TCore :=
  tbind (tcMem (unitReadRows s c t.sc k.d (rows.map fun r => (r.2.2, r.2.1)))) fun s r =>
    tbind (tmClean s c k ((rows.zip r.1).map fun p => (p.1.1, p.2, some p.1.2.2))) fun s k =>
      (s, .ok { k with d := r.2 })

/-- R451: the rows an `LD` or `ST` moves, after its checks. -/
def ldstRows {β : Type} (s : State) (u : TcUnit) (w : BitVec 128) (f : List (Nat × Nat × Nat) → TcRes β) : TcRes β :=
  tcTd s (u.gtd (wf w 115 112)) fun td =>
    let a := (u.ga (wf w 99 96)).toNat
    let stride := if wf w 80 80 = 1 then wf w 31 0 else (u.gs (wf w 95 91)).toNat
    tcNeed s (a % 16 == 0 && stride % 16 == 0) 0x20 <|
      f ((homeRows a stride (if wf w 81 81 = 1 then td.auxSpans else td.spans)).filter fun r => r.2.1 != 0)

/-- R451: rows loaded from home. -/
def ldWork (c : Nat) (s : State) (_ : Nat) (t : Task) (k : TCore) (w : BitVec 128) : TcRes TCore :=
  ldstRows s k.fetch w fun rows =>
    tbind (loadRows s c t k rows) fun s k => (s, .ok (fetchDone k w))

/-- LD (R405, R444, R451, R464): core `c` loads descriptor rows from home. -/
def execLd (c : Nat) (s : State) : Res := .next (tcIssue c false 0x10 (ldWork c) s)

/-- R451: rows stored to home. -/
def stWork (c : Nat) (s : State) (_ : Nat) (t : Task) (k : TCore) (w : BitVec 128) : TcRes TCore :=
  ldstRows s k.fetch w fun rows =>
    tbind (tmRead s c k (rows.map fun r => (r.1, r.2.1))) fun s bs =>
      let out := rows.zip bs
      tbind (tcMem (unitWriteRows s c t.sc k.d (out.map fun p => (p.1.2.2, p.2)))) fun s _ =>
        tbind (tmClean s c k (out.map fun p => (p.1.1, p.2, some p.1.2.2))) fun s k => (s, .ok (fetchDone k w))

/-- ST (R405, R451, R464, R465): core `c` stores descriptor rows to home. -/
def execSt (c : Nat) (s : State) : Res := .next (tcIssue c false 0x11 (stWork c) s)

/-! ### Queues -/

/-- R263, R452: a queue a core can use as the source of packets: a served task takes its own whatever else its queue is. -/
def tcSource (s : State) (c e q r : Nat) (served : Bool) : Bool :=
  endpointOk s c q && (served || ((getQ s q).cfg.mode != .multicast && !receiverHeld s e q r))

/-- R263, R453: a queue a unit can use as the destination of packets. -/
def tcDest (s : State) (c e q : Nat) : Bool :=
  endpointOk s c q && (getQ s q).cfg.mode != .multicast && !producerHeld s c e q

/-- R241: siblings of a served task whose packets have not left the queue, up to and with the task itself, in order. -/
def untaken (s : State) (t : Task) : List (Nat × Task) :=
  sortL (s.sched.tasks.filter fun p => p.2.parent == t.parent && p.2.packet.isNone && decide (p.2.index ≤ t.index))
    fun a b => decide (a.2.index ≤ b.2.index)

/-- R241, R452: a served task's own packet: packets leave the queue in order, each kept for its task; none where a
squash or flush has removed it. -/
def takeServed (s : State) (e u q r : Nat) (t : Task) : State × Option (List QWord × Bool) :=
  match t.packet with
  | some p => (s, some p)
  | none =>
    let s := (untaken s t).foldl (fun s x =>
      match headWords (getQ s q) r with
      | none => s
      | some n =>
        let (s, ws, leap) := deqPacket s q u r (n + 1)
        setTask s x.1 { x.2 with packet := some (ws, leap), taken := true }) s
    (s, (getTask s e).bind Task.packet)

/-- R246, R469: a served task whose packet is gone is removed with it. -/
def dropServed (s : State) (e : Nat) (t : Task) : State := releaseServed s e t

/-- R193, R452: the image of the holiday item of a queue. -/
def holidayImage (q : Nat) (world : Bool) : List Byte :=
  leBytes 2 1 ++ leBytes 2 (32 + 64 * b2n world) ++ zeros 60 ++ leBytes 8 (q % 2 ^ 16) ++ zeros 56

/-- A packet image taken into tile memory, with the generations of its words merged (R464). -/
def takeImage (s : State) (c : Nat) (k : TCore) (w : BitVec 128) (base : Nat) (ws : List QWord) (img : List Byte) : TcRes TCore :=
  let (s, g) := mergeAll s k.d (ws.map QWord.gen)
  tbind (tmClean s c { k with d := g } [(base, img, none)]) fun s k => (s, .ok (fetchDone k w))

/-- R452: one packet dequeued. -/
def ldqWork (c : Nat) (s : State) (e : Nat) (t : Task) (k : TCore) (w : BitVec 128) : TcRes TCore :=
  tcTd s (k.fetch.gtd (wf w 115 112)) fun td =>
    let q := wf w 47 32
    let r := wf w 83 81
    let served := t.parent.isSome && q == leAt k.param 4 2 && r == leAt k.param 6 1
    tcNeed s (tcSource s c e q r served && decide (r < (getQ s q).recvs.length)) 0x11 <|
    tcNeed s (decide (64 * (1 + (getQ s q).cfg.maxpkt) ≤ td.rows * td.stride)) 0x13 <|
    if served then
      tcNeed s (!k.got) 0x12 <|
        match takeServed s e c q r t with
        | (s, some (ws, leap)) => takeImage s c { k with got := true } w td.base ws (packetImage ws leap)
        | (s, none) => (dropServed s e t, .error .squashed)
    else if packetsFor (getQ s q) (nth {} (getQ s q).recvs r) = 0 then
      if wf w 80 80 = 1 then fetchWait s k
      else takeImage s c k w td.base [] (holidayImage q (getQ s q).cfg.world)
    else
      let n := ((headFor (getQ s q) (nth {} (getQ s q).recvs r)).map fun p => p.words.length).getD 0
      let (s, ws, leap) := deqPacket s q c r (n + 1)
      takeImage s c k w td.base ws (packetImage ws leap)

/-- LDQ (R193, R452, R464): core `c` dequeues one packet into tile memory as a packet image. -/
def execLdq (c : Nat) (s : State) : Res := .next (tcIssue c false 0x12 (ldqWork c) s)

/-- R199, R200, R244, R453, R465: words enqueued by core `c` as one packet: it waits for its flow's turn and for credit,
and stops at the gate before an outside-bound queue. -/
def tcEnqueue (s : State) (c e : Nat) (t : Task) (k : TCore) (q : Nat) (words : List Word) : TcRes TCore :=
  if flowHeld s t ∨ s.flowWait.contains e then
    fetchWait (if s.flowWait.contains e then s else { s with flowWait := s.flowWait ++ [e] }) k
  else if (getQ s q).cfg.out ∧ eff s k.d ≠ 0 then (s, .error .gate)
  else match enqUnit s q c (eff s k.d) words with
    | (s, .waits) => fetchWait s k
    | (s, _) => (s, .ok k)

/-- R453: one packet enqueued. -/
def stqWork (c : Nat) (s : State) (e : Nat) (t : Task) (k : TCore) (w : BitVec 128) : TcRes TCore :=
  tcTd s (k.fetch.gtd (wf w 115 112)) fun td =>
    let q := wf w 47 32
    tcNeed s (tcDest s c e q) 0x11 <|
    tcNeed s (decide (td.base + 64 ≤ 0x200000)) 0x0A <|
    tbind (tmRead s c k [(td.base, 64)]) fun s lead =>
      match imageWords lead.flatten (getQ s q).cfg.maxpkt with
      | none => (s, .error (.fault 0x13 0))
      | some n =>
        tcNeed s (decide (td.base + 64 * (1 + cdiv n 8) ≤ 0x200000)) 0x0A <|
        tbind (tmRead s c k [(td.base + 64, 8 * n)]) fun s b =>
          tbind (tcEnqueue s c e t k q (bytesToWords b.flatten)) fun s k => (s, .ok (fetchDone k w))

/-- STQ (R453, R464, R465): core `c` enqueues a packet image from tile memory. -/
def execStq (c : Nat) (s : State) : Res := .next (tcIssue c false 0x13 (stqWork c) s)

/-- R480: the words of the lookup request a `GISS` builds. -/
def gissWords (c dest ostride : Nat) (idx : List Byte) : List Word :=
  bytesToWords (leBytes 8 (idx.length / 4 + c * 2 ^ 28 + 2 ^ 34) ++ leBytes 8 dest ++ leBytes 8 (ostride % 2 ^ 32)
    ++ zeros 16 ++ idx)

/-- R454: a lookup request sent, and its reply loaded. -/
def gissWork (c : Nat) (s : State) (e : Nat) (t : Task) (k : TCore) (w : BitVec 128) : TcRes TCore :=
  let u := k.fetch
  tcTd s (u.gtd (wf w 115 112)) fun tr => tcTd s (u.gtd (wf w 111 108)) fun td =>
    let q := wf w 47 32
    let a := (u.ga (wf w 99 96)).toNat
    tcNeed s (fmtWidth tr.fmt == 32) 0x06 <|
    if ¬ k.asked then
      tcNeed s (tcDest s c e q) 0x11 <|
      tcNeed s (a % 16 == 0) 0x20 <|
        tbind (tmRead s c k [(tr.base, 4 * tr.cols)]) fun s b =>
          tbind (tcEnqueue s c e t k q (gissWords c a td.rowBytes b.flatten)) fun s k =>
            fetchWait s { k with asked := true, reply := none }
    else match k.reply with
      | none => fetchWait s k
      | some false => (s, .error (.fault 0x15 0))
      | some true =>
        tbind (loadRows s c t k (homeRows a td.rowBytes td.spans)) fun s k =>
          (s, .ok (fetchDone { k with asked := false, reply := none } w))

/-- GISS (R454, R464, R480): core `c` enqueues a lookup request, and loads its reply once the gather stage has written
it. -/
def execGiss (c : Nat) (s : State) : Res := .next (tcIssue c false 0x14 (gissWork c) s)

/-! ### Procession (R411 to R413, R455) -/

/-- R455: home rows of shard `j`, stored contiguously. -/
def shardRows (td : Td) (a sh j : Nat) : List (Nat × Nat × Nat) :=
  homeRows ((a + j * sh) % 2 ^ 64) td.rowBytes td.spans

/-- R411: the next core of the ring. -/
def nextCore (t : Task) (k : TCore) : Nat := nth 0 t.units ((k.pos + 1) % k.n)

/-- R412, R413, R455: the pass of core `c` takes the shard that waits on its link. -/
def procTake (s : State) (c : Nat) (k : TCore) (w : BitVec 128) (td : Td) (a : Nat) : TcRes TCore :=
  match k.link with
  | [] => fetchWait s k
  | sh :: rest =>
    let h := getTc s c
    if h.linkBad = 2 then (setTc s c { h with linkBad := 0 }, .error (.fault 0x83 0))
    else
      let s := if h.linkBad = 0 then s else inc (setTc s c { h with linkBad := 0 }) (tcBase c + 0x68)
      tcNeed s (sh.bytes.length == td.rows * td.rowBytes) 0x14 <|
        let j := (k.pos + 2 * k.n - k.step % k.n - 1) % k.n
        let (s, g) := mergeGen s k.d sh.gen
        let rows := (shardRows td a (wf w 31 0) j).zipIdx.map fun r =>
          (r.1.1, slice sh.bytes (r.2 * td.rowBytes) td.rowBytes, some r.1.2.2)
        tbind (tmClean s c { k with link := rest, d := g } rows) fun s k =>
          (s, .ok (fetchDone { k with step := k.step + 1, sent := false } w))

/-- R455: a shard loaded, or passed round the ring. -/
def procWork (c : Nat) (s : State) (_ : Nat) (t : Task) (k : TCore) (w : BitVec 128) : TcRes TCore :=
  let u := k.fetch
  let a := (u.ga (wf w 99 96)).toNat
  tcTd s (u.gtd (wf w 115 112)) fun tin =>
    tcNeed s (a % 16 == 0 && wf w 31 0 % 64 == 0) 0x20 <|
    if wf w 80 80 = 1 then
      tbind (loadRows s c t k (shardRows tin a (wf w 31 0) k.pos)) fun s k => (s, .ok (fetchDone { k with step := 0 } w))
    else
      tcTd s (u.gtd (wf w 111 108)) fun tout =>
        tcNeed s (tin.rows == tout.rows && tin.rowBytes == tout.rowBytes) 0x09 <|
        if k.n = 1 then (s, .ok (fetchDone { k with step := k.step + 1 } w))
        else if k.sent then procTake s c k w tin a
        else
          tbind (tmRead s c k tout.spans) fun s b =>
            let m := nextCore t k
            let h := getTc s m
            let s := setTc s m { h with core := { h.core with link := h.core.link ++ [⟨b.flatten, k.d⟩] } }
            procTake s c { k with sent := true } w tin a

/-- PROC (R411 to R413, R455, R464): core `c` loads its own shard, or passes the shard it holds round the ring. -/
def execProc (c : Nat) (s : State) : Res := .next (tcIssue c false 0x15 (procWork c) s)

/-! ### Tokens (R407, R409) -/

/-- TC_QUEUE_TOKEN_RELEASE (R407): a token that has been pushed on FQ (`x` true) or XQ releases the instruction that waits
for it; the instruction then issues. -/
def execTcQueueTokenRelease (c : Nat) (x : Bool) (s : State) : Res :=
  .next <| match tcTask s c with
  | none => s
  | some _ =>
    let h := getTc s c
    if ¬ waitsToken h.core x then s
    else match popToken h.core x with
      | none => s
      | some k => setTc s c { h with core := k.setUnit x { k.unit x with granted := true, waiting := false } }

/-- TC_DEADLOCK (R409): both units of core `c` wait on empty queues and the fetch unit has no transfer outstanding. -/
def execTcDeadlock (c : Nat) (s : State) : Res :=
  .next <| match tcTask s c with
  | none => s
  | some (e, t) =>
    let k := (getTc s c).core
    if waitsToken k true ∧ waitsToken k false ∧ k.fq = 0 ∧ k.xq = 0 ∧ ¬ k.asked ∧ ¬ k.sent then
      tcFault s c e t k.d 0x82 k.exec.pc 0
    else s

end Sys2Proof.Machine
end

