-- ==== Sys2Proof/Machine/TcExec.lean ====
section
/-!
DEFINITION. The execute-side instructions of Xazo-T: MAC with the tile check (R38 to R44, R397, R415 to R419, R456,
R457), write-out (R39, R458), vector and special functions (R400, R401, R459, R460), flags and barriers (R461, R462).
-/
namespace Sys2Proof.Machine

/-- The execute unit's instruction done. -/
def execDone (k : TCore) (w : BitVec 128) : TCore := tcDone k true w (k.exec.pc + 1)

/-- The execute unit waits at its instruction. -/
def execWait {α : Type} (s : State) (k : TCore) : TcRes α :=
  (s, .error (.wait { k with exec := { k.exec with waiting := true } }))

/-! ### Tiles -/

/-- A tile read: the stored codes of each row, and each row's auxiliary bytes. -/
structure Tile where
  td : Td
  codes : List (List Nat)
  aux : List (List Byte)

/-- R440: a tile read from tile memory. -/
def readTile (s : State) (c : Nat) (k : TCore) (td : Td) : TcRes Tile :=
  let n := if td.sparse then td.cols / 2 else td.cols
  let spans := td.spans
  tbind (tmRead s c k (spans ++ td.auxSpans.filter fun p => p.2 != 0)) fun s b =>
    (s, .ok { td := td, codes := (b.take spans.length).map fun r => (List.range n).map (elemCode td.fmt r),
              aux := b.drop spans.length })

/-- Rows of codes, with rows of scales where the format is MX, written by the execute unit. -/
def writeTile (s : State) (c : Nat) (k : TCore) (td : Td) (rows : List (List Nat × List Nat)) : TcRes TCore :=
  let main := (td.spans.zip rows).map fun p => (p.1.1, packCodes td.fmt p.2.1)
  let aux := if fmtClass td.fmt = .mx then (td.auxSpans.zip rows).map fun p => (p.1.1, p.2.2.flatMap (leBytes 1)) else []
  tmDirty s c k (main ++ aux)

/-- The scale byte of element `j` of row `i`. -/
def Tile.scale (t : Tile) (i j : Nat) : Nat := leAt (nth [] t.aux i) (j / 32) 1

/-- R43: the metadata nibble of group `g` of row `i`: the two indices. -/
def Tile.meta (t : Tile) (i g : Nat) : Nat × Nat :=
  let n := leAt (nth [] t.aux i) (g / 2) 1 / 16 ^ (g % 2) % 16
  (n % 4, n / 4)

/-- R43, R44: the code of dense element `j` of row `i`; none where a sparse group stores nothing there. -/
def Tile.code (t : Tile) (i j : Nat) : Option Nat :=
  let row := nth [] t.codes i
  if ¬ t.td.sparse then some (nth 0 row j)
  else
    let g := j / 4
    let m := t.meta i g
    if m.1 = j % 4 then some (nth 0 row (2 * g)) else if m.2 = j % 4 then some (nth 0 row (2 * g + 1)) else none

/-- R44: every metadata nibble of the reduction names two rising indices. -/
def Tile.metaOk (t : Tile) (koff klen : Nat) : Bool :=
  !t.td.sparse || (List.range t.td.rows).all fun i => (List.range (klen / 4)).all fun g =>
    let m := t.meta i (koff / 4 + g)
    decide (m.1 < m.2)

/-- R36, R38: the integers of a row's reduction. -/
def Tile.ints (t : Tile) (i koff klen : Nat) : List Int :=
  (List.range klen).map fun j => ((t.code i (koff + j)).map (intVal t.td.fmt t.td.qual)).getD 0

/-- R40: the values of a row's reduction; MX elements carry their scales. -/
def Tile.floats (t : Tile) (i koff klen : Nat) : List FV :=
  (List.range klen).map fun j =>
    match elemVal t.td.fmt 0 (((t.code i (koff + j))).getD 0) (t.scale i (koff + j)) with
    | .f v => v
    | .i v => FV.ofInt v

/-! ### Accumulation -/

/-- R397, R48: multiply-accumulates per clock of a format, and of a pair. -/
def fmtRate (f : Nat) : Nat :=
  if f = 3 ∨ f = 4 ∨ f = 0xE then 512 else if f = 8 ∨ f = 9 then 1024 else if f = 0 ∨ f = 0xB then 4096 else 2048
def pairRate (fa fb : Nat) (sparse : Bool) : Nat := min (fmtRate fa) (fmtRate fb) * (if sparse then 2 else 1)

/-- Element (i, j) of an accumulator set. -/
def Acc.get (a : Acc) (i j : Nat) : Int := kvGet (fun _ => 0) a.e (64 * i + j)

/-- The exact sum of finite values: fixed point, by pairs. -/
def finSum (l : List FV) : FV := l.foldl (fun a v => (a.add v).1) (.fin false 0 0)

/-- The first NaN among terms, and whether both infinities, or which one, stand among them. -/
def firstNan (l : List FV) : Option FV := l.find? FV.isNan

/-- R27, R42: the sum of terms one of which is not finite: NaN with NV, or the infinity. The first NaN in term order, generated
ones included, gives the result (log entry 111). -/
def specialSum (l : List FV) : FV × NFlags :=
  match firstNan l with
  | some v => (v, 2)
  | none =>
    if (l.any fun v => v.isInf && v.sign) ∧ (l.any fun v => v.isInf && !v.sign) then (.qnan, 2)
    else (.inf (l.any fun v => v.isInf && v.sign), 0)

/-- R40: the terms of a group summed inside the alignment window and rounded to FP32. -/
def groupSum (l : List FV) : Nat × NFlags :=
  if l.any fun v => v.isNan || v.isInf then
    let r := specialSum l
    ((FFmt.fp32.enc .rne false r.1).1, r.2)
  else
    let tops := l.filterMap fun v => match v with
      | .fin _ m e => if m = 0 then none else some (topBit m e)
      | _ => none
    match tops with
    | [] => (if l.all fun v => !v.sign then 0 else 0x80000000, 0)
    | t :: _ =>
      let q := maxI t tops - 55
      let term (v : FV) : Int := match v with
        | .fin n m e =>
          let i : Int := if n then -(m : Int) else m
          if q ≤ e then i * (2 ^ (e - q).toNat : Nat) else i / (2 ^ (q - e).toNat : Nat)
        | _ => 0
      let i := sumI (l.map term)
      FFmt.fp32.enc .rne false (.fin (decide (i < 0)) i.natAbs q)

/-- R40: an accumulator element after a float reduction, group by group. -/
def floatAcc : List (List FV × List FV) → Nat → Nat × NFlags
  | [], acc => (acc, 0)
  | g :: t, acc =>
    let terms := (g.1.zip g.2).map fun p => (p.1.mul p.2).1
    let r := groupSum (terms ++ [FFmt.fp32.dec acc])
    let q := floatAcc t r.1
    (q.1, r.2.lor q.2)

/-- R41: an accumulator element after an MX reduction, block by block. -/
def mxAcc : List (List FV × List FV) → Nat → Nat × NFlags
  | [], acc => (acc, 0)
  | g :: t, acc =>
    let terms := (g.1.zip g.2).map fun p => (p.1.mul p.2).1
    let a := FFmt.fp32.dec acc
    let l := terms ++ [a]
    let r := if l.any fun v => v.isNan || v.isInf then
        let x := specialSum l
        ((FFmt.fp32.enc .rne false x.1).1, x.2)
      else FFmt.fp32.enc .rne false ((finSum terms).add a).1
    let q := mxAcc t r.1
    (q.1, r.2.lor q.2)

/-- R38, R40, R41: a tile accumulated: the set after it, its flags, and the sum of the integer products. -/
def accumulate (cls : FClass) (a b : Tile) (koff klen : Nat) (acc : Acc) : Acc × NFlags × Int :=
  let cells := (List.range a.td.rows).flatMap fun i => (List.range b.td.rows).map fun j => (i, j)
  if cls = .int then
    let ra := (List.range a.td.rows).map fun i => a.ints i koff klen
    let rb := (List.range b.td.rows).map fun j => b.ints j koff klen
    cells.foldl (fun r p =>
      let x := sumI (((nth [] ra p.1).zip (nth [] rb p.2)).map fun q => q.1 * q.2)
      let v := r.1.get p.1 p.2 + x
      let w := clampI (-140737488355328) 140737488355327 v
      ({ r.1 with e := kvPut r.1.e (64 * p.1 + p.2) w, sat := r.1.sat || w != v },
        r.2.1.lor (b2n (w != v)), r.2.2 + x)) (acc, 0, 0)
  else
    let n := klen / 32
    let ra := (List.range a.td.rows).map fun i => blocks32 n (a.floats i koff klen)
    let rb := (List.range b.td.rows).map fun j => blocks32 n (b.floats j koff klen)
    cells.foldl (fun r p =>
      let gs := (nth [] ra p.1).zip (nth [] rb p.2)
      let x := (if cls = .mx then mxAcc else floatAcc) gs (r.1.get p.1 p.2).toNat
      ({ r.1 with e := kvPut r.1.e (64 * p.1 + p.2) x.1 }, r.2.1.lor x.2, 0)) (acc, 0, 0)

/-! ### The tile check (R415 to R419) -/

/-- The FP32 code of a value. -/
def f32code (v : FV) : Nat := (FFmt.fp32.enc .rne false v).1

/-- Whether an FP32 code is finite. -/
def f32fin (c : Nat) : Bool := !(FFmt.fp32.dec c).isNan && !(FFmt.fp32.dec c).isInf

/-- R417: one line of a float tile judged: its operand values, the other operand's sum and sum of magnitudes by k, and
the differences the tile made. None where it is not judged. -/
def sumLine (tolsh : Nat) (a : List FV) (bs bm : List Nat) (delta : List Nat) : Option Bool :=
  let ac := a.map f32code
  let st := (ac.zip bs).map fun p => f32mul p.1 p.2
  let mt := (ac.zip bm).map fun p => f32mul (p.1 % 2 ^ 31) p.2
  let si := f32sum st
  let mi := f32sum mt
  let ri := f32sum delta
  if ¬ (ac ++ bs ++ bm ++ st ++ mt ++ delta ++ [si, mi, ri]).all f32fin then none
  else
    let d := ((FFmt.fp32.dec si).add (FFmt.fp32.dec ri).negate).1.absv
    let lim := match FFmt.fp32.dec mi with
      | .fin n m e => FV.fin n m (e - tolsh)
      | v => v
    some (FV.lt (lim.add (.fin false 1 (-126))).1 d)

/-- R417: the rows, or with the roles exchanged the columns, of a float tile: whether one fails, and how many are not
judged. -/
def sumCheck (tolsh : Nat) (a b : List (List FV)) (delta : Nat → Nat → Nat) (klen : Nat) : Bool × Nat :=
  let bs := (List.range klen).map fun k => f32sum (b.map fun r => f32code (nth FV.qnan r k))
  let bm := (List.range klen).map fun k => f32sum (b.map fun r => f32code (nth FV.qnan r k) % 2 ^ 31)
  let rs := a.zipIdx.map fun r => sumLine tolsh r.1 bs bm ((List.range b.length).map (delta r.2))
  (rs.any (· == some true), rs.countP Option.isNone)

/-- R416, R417: the float check of a tile: whether it fails, and the rows and columns skipped. -/
def tileSums (tolsh : Nat) (a b : Tile) (koff klen : Nat) (before after : Acc) : Bool × Nat :=
  let fa := (List.range a.td.rows).map fun i => a.floats i koff klen
  let fb := (List.range b.td.rows).map fun j => b.floats j koff klen
  let delta (i j : Nat) : Nat := f32sub (after.get i j).toNat (before.get i j).toNat
  let r := sumCheck tolsh fa fb delta klen
  let q := sumCheck tolsh fb fa (fun j i => delta i j) klen
  (r.1 || q.1, r.2 + q.2)

/-- R415 to R419: the verdict on a tile of core `c`: passed, perhaps after its one retry, or failed twice. -/
def tileVerdict (s : State) (c : Nat) (bad : Bool) : TcRes Unit :=
  let h := getTc s c
  if h.tileBad = 0 ∧ ¬ bad then (s, .ok ())
  else
    let s := tcRetry (setTc s c { h with tileBad := 0 }) c
    if bad ∨ h.tileBad = 2 then (s, .error (.fault 0x80 0))
    else if (tcTask s c).isNone then (s, .error .squashed) else (s, .ok ())

/-- The accumulator set an instruction selects, and the set replaced. -/
def TCore.acc (k : TCore) (i : Nat) : Acc := if i = 1 then k.acc1 else k.acc0
def TCore.setAcc (k : TCore) (i : Nat) (a : Acc) : TCore := if i = 1 then { k with acc1 := a } else { k with acc0 := a }

/-- R457: the class of a set for a class of formats. -/
def accClass (f : FClass) : AccClass := if f = .int then .int else .float

/-- R397, R456: the faults of a MAC's operands and reduction, in the order in which it checks them. -/
def macFault (a b : Td) (fa fb koff klen : Nat) : Nat :=
  let mx := fmtClass a.fmt = .mx ∨ fmtClass b.fmt = .mx
  if a.rows < 1 ∨ 32 < a.rows ∨ b.rows < 1 ∨ 64 < b.rows then 0x09
  else if klen % 32 ≠ 0 ∨ klen < 32
      ∨ (fmtMac a.fmt ∧ fmtMac b.fmt ∧ pairRate a.fmt b.fmt b.sparse / 4 < klen) then 0x0C
  else if koff % 32 ≠ 0 then (if mx then 0x07 else 0x0B)
  else if fa ≠ a.fmt ∨ fb ≠ b.fmt then 0x06
  else if ¬ fmtMac fa ∨ ¬ fmtMac fb then 0x04
  else if fmtClass fa ≠ fmtClass fb then 0x05
  else if a.sparse ∨ (b.sparse ∧ ¬ ((fb = 0 ∨ fb = 1) ∧ fa ≤ 2)) then 0x04
  else if a.cols < koff + klen ∨ b.cols < koff + klen then 0x09
  else 0

/-- R456, R457: one matrix tile. -/
def macWork (c : Nat) (s : State) (_ : Nat) (_ : Task) (k : TCore) (w : BitVec 128) : TcRes TCore :=
  tcTd s (k.exec.gtd (wf w 115 112)) fun ta => tcTd s (k.exec.gtd (wf w 111 108)) fun tb =>
    let koff := wf w 79 64
    let klen := wf w 63 48
    let cls := fmtClass ta.fmt
    let n := wf w 80 80
    let acc : Acc := if wf w 81 81 = 1 then {} else k.acc n
    tcNeed s (macFault ta tb (wf w 107 104) (wf w 103 100) koff klen == 0)
      (macFault ta tb (wf w 107 104) (wf w 103 100) koff klen) <|
    tbind (readTile s c k ta) fun s a => tbind (readTile s c k tb) fun s b =>
      tcNeed s (b.metaOk koff klen) 0x08 <|
      tcNeed s (acc.cls == .none || acc.cls == accClass cls) 0x0D <|
        let r := accumulate cls a b koff klen acc
        let chk := if cls = .int then (false, 0)
          else tileSums (field s (tcBase c + 0x0C) 4 0) a b koff klen acc r.1
        tbind (tileVerdict s c chk.1) fun s _ =>
          let s := incBy (inc s (tcBase c + 0x50)) (tcBase c + 0x54) (2048 * klen / pairRate ta.fmt tb.fmt tb.sparse)
          let s := raiseNum (incBy s (tcBase c + 0x60) chk.2) c k.d r.2.1
          let res := ((acc.res : Int) + r.2.2) % 127
          (s, .ok (execDone (k.setAcc n { r.1 with cls := accClass cls, res := res.toNat }) w))

/-- MAC (R38 to R44, R397 to R399, R415 to R420, R456, R457): core `c` computes one matrix tile. -/
def execMac (c : Nat) (s : State) : Res := .next (tcIssue c true 0x20 (macWork c) s)

/-! ### Write-out (R458) -/

/-- Multiplier, shift and bias of a column. -/
structure Scaling where
  mult : Nat
  shift : Nat
  bias : Nat

/-- R458: RELU on a number. -/
def relu (on : Bool) (v : FV) : FV :=
  match v with
  | .nan _ _ => v
  | _ => if on ∧ v.sign then .fin false 0 0 else v

/-- R458: the FP32 result of an element of a set, before it is converted; an invalid operation sets NV (log entry 111). -/
def woutFloat (cls : AccClass) (act : Bool) (x : Int) (p : Scaling) : FV × NFlags :=
  if cls = .float then
    let m := (FFmt.fp32.dec x.toNat).mul (FFmt.fp32.dec p.mult)
    let v := m.1.add (FFmt.fp32.dec p.bias)
    (relu act (FFmt.fp32.dec (f32code v.1)), m.2.lor v.2)
  else
    let v := x + sext 32 p.bias
    let v := if act ∧ v < 0 then 0 else v
    let m := (FFmt.fp32.dec (f32ofInt v)).mul (FFmt.fp32.dec p.mult)
    (FFmt.fp32.dec (f32code m.1), m.2)

/-- R39, R458: an element of an integer set requantised, or saturated to INT32. -/
def woutInt (r : RMode) (act : Bool) (f q : Nat) (x : Int) (p : Scaling) : Nat × NFlags :=
  let v := x + sext 32 p.bias
  let v := if act ∧ v < 0 then 0 else v
  let y := if f = 5 then requant .rne v 1 0 (intLo 5 0) (intHi 5 0)
    else requant r v (sext 32 p.mult) p.shift (intLo f q) (intHi f q)
  (wrap (fmtWidth f) y.1, y.2)

/-- R458: a row written out: its codes, its scales and its flags. -/
def woutRow (cls : AccClass) (r : RMode) (act : Bool) (f q : Nat) (l : List (Int × Scaling)) :
    (List Nat × List Nat) × NFlags :=
  if fmtClass f = .mx then
    let vs := l.map fun p => woutFloat cls act p.1 p.2
    let x := mxRow f (vs.map Prod.fst)
    ((x.2.1, x.1), vs.foldl (fun a v => a.lor v.2) x.2.2)
  else
    let es := l.map fun p =>
      if cls = .int ∧ fmtClass f = .int then woutInt r act f q p.1 p.2
      else
        let v := woutFloat cls act p.1 p.2
        let y := convTo r f q v.1
        (y.1, y.2.lor v.2)
    ((es.map Prod.fst, []), es.foldl (fun a e => a.lor e.2) 0)

/-- R458: the faults of a write-out, in the order in which it checks them; an FO of 0xF that is not tdC.FMT raises FMT_DESC
(log entry 112). -/
def woutFault (v : BitVec 128) (fo rnd : Nat) : Nat :=
  let t := tdOf v
  if rnd = 3 then 0x03
  else if t.rows ≠ 0 ∧ t.cols ≠ 0 ∧ fmtClass t.fmt = .mx ∧ t.cols % 32 ≠ 0 then 0x07
  else if tdCheck v ≠ 0 then tdCheck v
  else if fo ≠ t.fmt then 0x06
  else if 32 < t.rows ∨ 64 < t.cols then 0x09
  else if t.sparse then 0x04
  else 0

/-- R458: the multiplier, shift and bias of each column. -/
def woutScaling (s : State) (c : Nat) (k : TCore) (w : BitVec 128) (cols : Nat) : TcRes (List Scaling) :=
  if wf w 82 82 = 1 then
    tcTd s (k.exec.gtd (wf w 111 108)) fun tq =>
      tcNeed s (tq.fmt == 5 && tq.rows == 1 && tq.cols == 4 * cols) 0x09 <|
        tbind (tmRead s c k [(tq.base, 16 * cols)]) fun s b =>
          (s, .ok ((List.range cols).map fun j =>
            ⟨leAt b.flatten (16 * j) 4, leAt b.flatten (16 * j + 4) 1 % 64, leAt b.flatten (16 * j + 8) 4⟩))
  else
    (s, .ok (List.replicate cols
      ⟨(k.exec.gs (wf w 95 91)).toNat, wf w 5 0, (k.exec.gs (wf w 90 86)).toNat⟩))

/-- R415: whether the running residue of an integer set disagrees with the values it holds; a set in which an element has
saturated is not judged. -/
def residueBad (a : Acc) : Bool :=
  a.cls == .int && !a.sat && (sumI (a.e.map Prod.snd)) % 127 != ((a.res % 127 : Nat) : Int)

/-- R415, R458: an accumulator set written out, after the check of its residue, whose failure is that of a tile (log entry 31). -/
def woutWork (c : Nat) (s : State) (_ : Nat) (_ : Task) (k : TCore) (w : BitVec 128) : TcRes TCore :=
  let v := k.exec.gtd (wf w 115 112)
  let rnd := wf w 84 83
  tcNeed s (woutFault v (wf w 107 104) rnd == 0) (woutFault v (wf w 107 104) rnd) <|
    let td := tdOf v
    let n := wf w 80 80
    let acc := k.acc n
    tbind (if residueBad acc then tileVerdict s c true else (s, .ok ())) fun s _ =>
    tbind (woutScaling s c k w td.cols) fun s ps =>
      let (s, use) := if acc.cls = .none then freshUse s else (s, 0)
      let mode := (RMode.ofCode rnd).getD .rne
      let rows := (List.range td.rows).map fun i =>
        if acc.cls = .none then
          (((List.range td.cols).map fun j => (Config.freeByte use (64 * i + j)).toNat,
            (List.range (cdiv td.cols 32)).map fun j => (Config.freeByte use (4096 + 64 * i + j)).toNat), 0)
        else woutRow acc.cls mode (wf w 85 85 == 1) td.fmt td.qual
          (ps.zipIdx.map fun p => (acc.get i p.2, p.1))
      tbind (writeTile s c k td (rows.map Prod.fst)) fun s k =>
        let s := if acc.sat then inc s (tcBase c + 0x60) else s
        let s := raiseNum s c k.d (rows.foldl (fun a r => a.lor r.2) 0)
        (s, .ok (execDone (if wf w 81 81 = 1 then k.setAcc n {} else k) w))

/-- WOUT (R39, R405, R406, R415, R445, R458): core `c` writes out an accumulator set. -/
def execWout (c : Nat) (s : State) : Res := .next (tcIssue c true 0x21 (woutWork c) s)

/-! ### Vector operations (R459) -/

/-- R459: which of A, B and C an operation reads. -/
def vopSources (fn : Nat) : Option (List Nat) :=
  if fn ≤ 0x02 ∨ fn = 0x04 ∨ fn = 0x05 ∨ (0x0C ≤ fn ∧ fn ≤ 0x0E) ∨ fn = 0x11 ∨ fn = 0x12 then some [0, 1]
  else if fn = 0x03 ∨ fn = 0x13 then some [0, 1, 2]
  else if (0x06 ≤ fn ∧ fn ≤ 0x0B) ∨ fn = 0x10 ∨ (0x18 ≤ fn ∧ fn ≤ 0x1B) then some [0]
  else if fn = 0x1C then some []
  else none

/-- R459: whether the formats of an operation fit: D, A, B and C. -/
def vopFormats (fn d a b c : Nat) (mask : Bool) : Bool :=
  let cls := fmtClass a
  if fn = 0x10 then !mask || c == 2
  else if fn = 0x11 ∨ fn = 0x12 then a == b && d == 2
  else if fn = 0x13 then a == b && a == d && c == 2
  else if fn = 0x18 then d == (if cls = .int then 5 else 0xA)
  else if fn = 0x1A then d == 5
  else if fn = 0x1C then d == 5 || d == 0xA
  else if fn = 0x03 then a == b && a == c && a == d && cls == .float
  else if fn = 0x0A ∨ fn = 0x0B then a == d && cls == .int
  else if 0x0C ≤ fn ∧ fn ≤ 0x0E then a == b && a == d && cls == .int
  else if fn ≤ 0x02 ∨ fn = 0x04 ∨ fn = 0x05 then a == b && a == d
  else a == d

/-- An element of a tile as arithmetic sees it. -/
def Tile.val (t : Tile) (i j : Nat) : TV :=
  elemVal t.td.fmt t.td.qual (nth 0 (nth [] t.codes i) j) (t.scale i j)

/-- The smaller (or larger) of two floats: a NaN operand is the result (R27). -/
def fvPick (larger : Bool) (a b : FV) : FV :=
  if a.isNan then a else if b.isNan then b
  else if FV.lt a b then (if larger then b else a) else if FV.lt b a then (if larger then a else b)
  else if a.sign = larger then b else a

/-- R459: an element-wise float operation, exact but for the rounding to come. -/
def vopFloat (fn : Nat) (a b c s : FV) : FV × NFlags :=
  if fn = 0x00 then a.add b else if fn = 0x01 then a.sub b else if fn = 0x02 then a.mul b
  else if fn = 0x03 then
    let p := a.mul b
    let r := p.1.add c
    (r.1, p.2.lor r.2)
  else if fn = 0x04 then (fvPick false a b, 0) else if fn = 0x05 then (fvPick true a b, 0)
  else if fn = 0x06 then (a.absv, 0) else if fn = 0x07 then (a.negate, 0)
  else if fn = 0x08 then a.add s else a.mul s

/-- R459: an element-wise integer operation, exact but for the saturation to come. -/
def vopInt (fn : Nat) (a b s : Int) : Int :=
  let k := (s % 32).toNat
  if fn = 0x00 then a + b else if fn = 0x01 then a - b else if fn = 0x02 then a * b
  else if fn = 0x04 then min a b else if fn = 0x05 then max a b
  else if fn = 0x06 then (a.natAbs : Int) else if fn = 0x07 then -a
  else if fn = 0x08 then a + s else if fn = 0x09 then a * s
  else if fn = 0x0A then a * (2 ^ k : Nat) else a / (2 ^ k : Nat)

/-- R459: an element of the arithmetic operations: its code and flags. -/
def vopElem (fn : Nat) (td : Td) (a b c : TV) (s : Reg) : Nat × NFlags :=
  match a, b, c with
  | .i x, .i y, _ =>
    let v := vopInt fn x y s.toInt
    let w := clampI (intLo td.fmt td.qual) (intHi td.fmt td.qual) v
    (wrap (fmtWidth td.fmt) w, b2n (w != v))
  | .f x, .f y, c =>
    let z := match c with
      | .f z => z
      | .i i => FV.ofInt i
    let r := vopFloat fn x y z (FFmt.fp32.dec s.toNat)
    (((fmtF td.fmt).enc .rne false r.1).1, r.2 % 4 / 2 * 2)
  | _, _, _ => (0, 0)

/-- R459: whether element `x` comes after `y` in the order of RMAX: NaN is largest. -/
def tvLess (x y : TV) : Bool :=
  match x, y with
  | .i a, .i b => decide (a < b)
  | .f a, .f b => if a.isNan then false else b.isNan || FV.lt a b
  | _, _ => false

/-- R459: the column of the largest element of a row, the lowest on ties. -/
def rowMax (l : List TV) : Nat :=
  (l.zipIdx.foldl (fun (b : TV × Nat) p => if tvLess b.1 p.1 then p else b) (nth (.i 0) l 0, 0)).2

/-- R459: a comparison: 1 where true. -/
def vopCmp (eq : Bool) (a b : TV) : Nat :=
  match a, b with
  | .i x, .i y => b2n (if eq then x == y else decide (x < y))
  | .f x, .f y => b2n (if eq then !x.isNan && !y.isNan && !FV.lt x y && !FV.lt y x else FV.lt x y)
  | _, _ => 0

/-- R459: row `i` of an operation that gives one code for each element of A. -/
def vopRow (fn : Nat) (td : Td) (s : Reg) (a b c : Tile) (i : Nat) : List (Nat × NFlags) :=
  (List.range td.cols).map fun j =>
    let code (t : Tile) : Nat := nth 0 (nth [] t.codes i) j
    if fn = 0x0C then (code a &&& code b, 0) else if fn = 0x0D then (code a ||| code b, 0)
    else if fn = 0x0E then (code a ^^^ code b, 0)
    else if fn = 0x11 then (vopCmp false (a.val i j) (b.val i j), 0)
    else if fn = 0x12 then (vopCmp true (a.val i j) (b.val i j), 0)
    else if fn = 0x13 then (if code c ≠ 0 then code a else code b, 0)
    else if fn = 0x1B then (code a, 0)
    else if fn = 0x1C then (s.toNat, 0)
    else vopElem fn td (a.val i j) (b.val i j) (c.val i j) s

/-- R459: row `i` of a reduction. -/
def vopReduce (fn : Nat) (td : Td) (a : Tile) (i : Nat) : Nat × NFlags :=
  let vs := (List.range a.td.cols).map (a.val i)
  if fn = 0x18 then
    if td.fmt = 5 then
      let v := sumI (vs.map fun x => match x with
        | .i n => n
        | .f _ => 0)
      let w := clampI (intLo 5 0) (intHi 5 0) v
      (wrap 32 w, b2n (w != v))
    else
      let codes := vs.map fun x => match x with
        | .f v => f32code v
        | .i n => f32ofInt n
      let nv := (codes.drop 1).foldl (fun (r : Nat × Nat) c =>
        let x := f32 ((FFmt.fp32.dec r.1).add (FFmt.fp32.dec c))
        (x.1, r.2.lor (x.2 % 4 / 2 * 2))) (nth 0 codes 0, 0)
      nv
  else
    let j := rowMax vs
    (if fn = 0x19 then nth 0 (nth [] a.codes i) j else j, 0)

/-- R33, R35, R46, R459: row `i` converted: codes, scales, mask and flags; to MX from an integer or QF16 as log entry 113 says. -/
def cvtRow (r : RMode) (td : Td) (a : Tile) (i : Nat) : (List Nat × List Nat) × List Nat × NFlags :=
  let f := a.td.fmt
  let q := a.td.qual
  let cols := List.range td.cols
  let code (j : Nat) : Nat := nth 0 (nth [] a.codes i) j
  if fmtClass td.fmt = .mx then
    let sen (j : Nat) : Bool := f == 0xE && qSentinel q (code j)
    let x := mxRow td.fmt (cols.map fun j => if sen j then .qnan else elemNumber f q (code j) (a.scale i j))
    ((x.2.1, x.1), cols.map (fun j => b2n (!sen j)), x.2.2.lor (if cols.any sen then 8 else 0))
  else
    let es := cols.map fun j => convElem r f q (code j) (a.scale i j) td.fmt td.qual
    ((es.map Prod.fst, []), es.map (fun e => e.2.2), es.foldl (fun m e => m.lor e.2.1) 0)

/-- A tile that an operation does not read. -/
def Tile.empty (td : Td) : Tile := ⟨td, [], []⟩

/-- R440, R459: the descriptor of a source, checked when the operation uses it. -/
def vopTd (s : State) (use : Bool) (v : BitVec 128) : TcRes Td :=
  if use then tcTd s v fun td => (s, .ok td) else (s, .ok (tdOf v))

/-- R459: a source read when the operation uses it. -/
def vopSource (s : State) (c : Nat) (k : TCore) (use : Bool) (td : Td) : TcRes Tile :=
  if use then readTile s c k td else (s, .ok (Tile.empty td))

/-- R459: the faults of an operation's formats and shapes, in the order in which it checks them; a format marked "Via
conversion" in an operation other than CVT raises FMT_ROLE (log entry 112). -/
def vopFault (fn : Nat) (mask : Bool) (d a b c : Td) : Nat :=
  let src := (vopSources fn).getD []
  let used := d :: src.map fun i => if i = 0 then a else if i = 1 then b else c
  let red := decide (0x18 ≤ fn ∧ fn ≤ 0x1A)
  let named := used ++ if fn = 0x10 ∧ mask then [c] else []
  if named.any Td.sparse then 0x04
  else if fn ≠ 0x10 ∧ used.any fun t => !fmtVec t.fmt then 0x04
  else if ¬ vopFormats fn d.fmt a.fmt b.fmt c.fmt mask then 0x06
  else if red then (if d.rows = a.rows ∧ d.cols = 1 then 0 else 0x09)
  else if named.any fun t => t.rows != d.rows || t.cols != d.cols then 0x09
  else 0

/-- R25, R459: a vector operation; every descriptor and format is checked before a tile is read. -/
def vopWork (c : Nat) (s : State) (_ : Nat) (_ : Task) (k : TCore) (w : BitVec 128) : TcRes TCore :=
  let fn := wf w 85 80
  let mask := wf w 88 88 == 1
  let td (hi lo : Nat) : BitVec 128 := k.exec.gtd (wf w hi lo)
  match vopSources fn, RMode.ofCode (wf w 87 86) with
  | some src, some r =>
    tcTd s (td 115 112) fun d =>
      tbind (vopTd s (src.contains 0) (td 111 108)) fun s ta =>
      tbind (vopTd s (src.contains 1) (td 107 104)) fun s tb =>
      tbind (vopTd s (src.contains 2 || (fn == 0x10 && mask)) (td 103 100)) fun s tz =>
        tcNeed s (vopFault fn mask d ta tb tz == 0) (vopFault fn mask d ta tb tz) <|
        tbind (vopSource s c k (src.contains 0) ta) fun s a =>
        tbind (vopSource s c k (src.contains 1) tb) fun s b =>
        tbind (vopSource s c k (src.contains 2) tz) fun s z =>
          let sv := k.exec.gs (wf w 95 91)
          let rows := List.range d.rows
          let res : List ((List Nat × List Nat) × List Nat × NFlags) :=
            if fn = 0x10 then rows.map (cvtRow r d a)
            else if 0x18 ≤ fn ∧ fn ≤ 0x1A then rows.map fun i =>
              let x := vopReduce fn d a i
              (([x.1], []), [], x.2)
            else rows.map fun i =>
              let x := vopRow fn d sv a b z i
              ((x.map Prod.fst, []), [], x.foldl (fun m e => m.lor e.2) 0)
          tbind (writeTile s c k d (res.map Prod.fst)) fun s k' =>
            tbind (if fn = 0x10 ∧ mask then writeTile s c k' z.td (res.map fun x => (x.2.1, [])) else (s, .ok k'))
              fun s k => (raiseNum s c k.d (res.foldl (fun m x => m.lor x.2.2) 0), .ok (execDone k w))
  | _, _ => (s, .error (.fault 0x03 0))

/-- VOP (R45, R46, R405, R406, R445, R459): core `c` applies a vector operation. -/
def execVop (c : Nat) (s : State) : Res := .next (tcIssue c true 0x22 (vopWork c) s)

/-! ### Special functions (R401, R460) -/

/-- The integer square root, by halving an interval of 2^n from `lo` on. -/
def isqrt : Nat → Nat → Nat → Nat
  | 0, lo, _ => lo
  | n + 1, lo, v => if (lo + 2 ^ n) * (lo + 2 ^ n) ≤ v then isqrt n (lo + 2 ^ n) v else isqrt n lo v

/-- The square root of m · 2^e, exact but for a sticky last bit. -/
def fvSqrt (m : Nat) (e : Int) : FV :=
  let (m, e) := if e % 2 = 0 then (m, e) else (2 * m, e - 1)
  let k : Nat := 64
  let v := m * 2 ^ (2 * k)
  let r := isqrt (Nat.log2 v / 2 + 1) 0 v
  .fin false (2 * r + b2n (r * r != v)) (e / 2 - k - 1)

/-- R401: an FP32 result within 1 ulp of an exact value: one of the codes that near, by a free choice. -/
def withinUlp (fn : Nat) (x : Nat) (v : FV) : Nat :=
  let lo := (FFmt.fp32.enc .rtz false v).1
  let d := FFmt.fp32.dec lo
  let near := if FV.lt d v || FV.lt v d then [lo, lo + 1] else if lo % 2 ^ 31 = 0 then [lo] else [lo, lo + 1, lo - 1]
  nth lo near (Config.sfuPick fn x % near.length)

/-- R401: a special function of an FP32 code, with its flags. Results the specification bounds and does not fix are
free values of the operand. -/
def sfuValue (fn x : Nat) : Nat × NFlags :=
  let nan : Nat × NFlags := (0x7FC00000, 2)
  let v := FFmt.fp32.dec x
  let sgn := x / 2 ^ 31 * 2 ^ 31
  let one := 0x3F800000
  match v with
  | .nan _ _ => nan
  | .inf neg =>
    if fn = 0 then (sgn, 0)
    else if fn = 1 then (if neg then nan else (0x7F800000, 0))
    else if fn = 2 then (if neg then nan else (0, 0))
    else if fn = 3 then (if neg then 0 else 0x7F800000, 0)
    else if fn = 4 then (if neg then nan else (0x7F800000, 0))
    else if fn = 6 then (if neg then 0 else one, 0)
    else (sgn + one, 0)
  | .fin neg m e =>
    if m = 0 then
      if fn = 0 then (sgn + 0x7F800000, 0) else if fn = 1 then (sgn, 0) else if fn = 2 ∨ fn = 4 then nan
      else if fn = 3 then (one, 0) else if fn = 5 ∨ fn = 7 then (sgn, 0)
      else (Config.sfu fn x % 2 ^ 32, 0)
    else if fn = 0 then (withinUlp 0 x ((FV.ofInt 1).div v).1, 0)
    else if neg ∧ (fn = 1 ∨ fn = 2 ∨ fn = 4) then nan
    else if fn = 1 then (withinUlp 1 x (fvSqrt m e), 0)
    else if fn = 2 then (withinUlp 2 x ((FV.ofInt 1).div (fvSqrt m e)).1, 0)
    else if fn = 4 ∧ x = one then (0, 0)
    else (Config.sfu fn x % 2 ^ 32, 0)

/-- R460: a special function. -/
def sfuWork (c : Nat) (s : State) (_ : Nat) (_ : Task) (k : TCore) (w : BitVec 128) : TcRes TCore :=
  tcTd s (k.exec.gtd (wf w 115 112)) fun d =>
    tcTd s (k.exec.gtd (wf w 111 108)) fun ta =>
      tcNeed s (!d.sparse && !ta.sparse && (d.fmt == 8 || d.fmt == 9 || d.fmt == 0xA)) 0x04 <|
      tcNeed s (d.fmt == ta.fmt) 0x06 <|
      tcNeed s (d.rows == ta.rows && d.cols == ta.cols) 0x09 <|
        tbind (readTile s c k ta) fun s a =>
          let f := fmtF d.fmt
          let rows := a.codes.map fun r => r.map fun x =>
            let y := sfuValue (wf w 83 80) (f32code (f.dec x))
            ((f.enc .rne false (FFmt.fp32.dec y.1)).1, y.2)
          tbind (writeTile s c k d (rows.map fun r => (r.map Prod.fst, []))) fun s k =>
            (raiseNum s c k.d (rows.flatten.foldl (fun m e => m.lor e.2) 0), .ok (execDone k w))

/-- SFU (R401, R460): core `c` applies a special function. -/
def execSfu (c : Nat) (s : State) : Res := .next (tcIssue c true 0x23 (sfuWork c) s)

/-! ### Flags and barriers (R461, R462) -/

/-- R461: the flag word an instruction names, in its task's slot. -/
def tcFlag (s : State) (t : Task) (w : BitVec 128) : Option Nat :=
  match getGraph s t.src t.ctx with
  | some g => if wf w 55 48 < g.hdr.nflag then some (flagAddr g t.slot (wf w 55 48)) else none
  | none => none

/-- R461: a flag update by core `c`, made once every earlier store, `STQ` and `GISS` is visible. -/
def tcFlagUpdate (add : Bool) (s : State) (_e : Nat) (t : Task) (k : TCore) (w : BitVec 128) : TcRes TCore :=
  match tcFlag s t w with
  | none => (s, .error (.fault 0x10 0))
  | some a =>
    if k.srcs.any Prod.fst then execWait s k
    else
      let v := if wf w 80 80 = 1 then reg (wf w 31 0) else k.exec.gs (wf w 95 91)
      ((flagUpdate s t.src t.slot t.frame (eff s k.d) a add v).1, .ok (execDone k w))

/-- FSET (R165, R461, R464, R469): core `c` sets a flag. -/
def execFset (c : Nat) (s : State) : Res := .next <| tcIssue c true 0x24 (tcFlagUpdate false) s

/-- FADD (R165, R461, R464, R469): core `c` adds to a flag. -/
def execFadd (c : Nat) (s : State) : Res := .next <| tcIssue c true 0x25 (tcFlagUpdate true) s

/-- R461: a wait on a flag: it ends when the comparison holds, and merges the word's generation. -/
def tcFlagWait (s : State) (_e : Nat) (t : Task) (k : TCore) (w : BitVec 128) : TcRes TCore :=
  match tcFlag s t w with
  | none => (s, .error (.fault 0x10 0))
  | some a =>
    let f := getFlag s a
    let v := if wf w 80 80 = 1 then reg (wf w 31 0) else k.exec.gs (wf w 95 91)
    if flagCmp (wf w 82 81) f.value v then
      let (s, g) := mergeGen s k.d f.gen
      (s, .ok (execDone { k with d := g } w))
    else execWait s k

/-- FWAIT (R461, R464): core `c` waits for a flag condition. -/
def execFwait (c : Nat) (s : State) : Res := .next <| tcIssue c true 0x26 tcFlagWait s

/-- TC_FWAIT_RELEASE (R461, R469): an `FWAIT` that waits is released once its flag satisfies the comparison. -/
def execTcFwaitRelease (c : Nat) (s : State) : Res :=
  .next <| if (getTc s c).core.exec.waiting then tcIssue c true 0x26 tcFlagWait s else s

/-- R462: a barrier. -/
def barWork (c : Nat) (s : State) (_ : Nat) (t : Task) (k : TCore) (w : BitVec 128) : TcRes TCore :=
  if k.fetch.passed < k.exec.passed then execWait s k
  else if wf w 81 80 = 0 then (s, .ok (execDone k w))
  else
    let k := if k.atBar then k else { k with atBar := true, bars := k.bars + 1 }
    if t.units.all fun u => u == c || decide (k.bars ≤ (getTc s u).core.bars) then
      (s, .ok (execDone { k with atBar := false } w))
    else execWait s k

/-- BAR (R462): core `c` waits until the fetch side is done with everything earlier, and at a RING barrier for every core
of its run. -/
def execBar (c : Nat) (s : State) : Res := .next (tcIssue c true 0x28 (barWork c) s)

end Sys2Proof.Machine
end

