-- ==== Sys2Proof/Machine/Gather.lean ====
section
/-!
DEFINITION. The gather engine (spec/16_gather_engine.md): tables and rows (R473 to R476), the parameter block (R477 to
R479), requests and their checks (R480, R481), LOOKUP, BAG and PROBE (R482 to R484), the reply (R485) and errors (R490).
A task reads its rows and puts its output rows out as the engines of the vision cluster do; its read-ahead (R487) is counted.
-/
namespace Sys2Proof.Machine

/-! ### Tables (R473 to R476) -/

/-- R474: a table descriptor. -/
structure GthTable where
  kind : Nat
  rfmt : Nat
  valid : Bool
  secure : Bool
  owner : Nat
  elems : Nat
  rowBytes : Nat
  base : Nat
  nrows : Nat
  dir : Nat
  nlist : Nat

/-- R474: a descriptor read. -/
def gthTableOf (l : List Byte) : GthTable where
  kind := leAt l 0 1
  rfmt := leAt l 1 1
  valid := bit 0 (leAt l 2 1)
  secure := bit 1 (leAt l 2 1)
  owner := leAt l 3 1
  elems := leAt l 4 2
  rowBytes := leAt l 6 2
  base := leAt l 8 8
  nrows := leAt l 16 8
  dir := leAt l 24 8
  nlist := leAt l 32 4

/-- Table `n` of the registry; one not registered is all zero, so not VALID. -/
def gthTable (s : State) (n : Nat) : GthTable := gthTableOf (kvGet (fun _ => []) s.tables n)

/-- R476: the value of element `i` of a row, as an FP32 code. -/
def rowElem (t : GthTable) (row : List Byte) (i : Nat) : Nat :=
  if t.rfmt = 1 then f16to32 (leAt row (2 * i) 2)
  else if t.rfmt = 2 then f32mul (f32ofInt (sext 8 (leAt row i 1))) (leAt row t.elems 4)
  else (FFmt.fp32.enc .rne true (mxVal 0xB (elemCode 0xB row i) (leAt row (t.elems / 2 + i / 32) 1))).1

/-- R476: the elements of a row, as FP32 codes. -/
def rowFloats (t : GthTable) (row : List Byte) : List Nat := (List.range t.elems).map (rowElem t row)

/-- R476: FP32 codes in the output format. -/
def outFloats (ofmt : Nat) (l : List Nat) : List Byte :=
  l.flatMap fun c => if ofmt = 8 then leBytes 2 (f32to16 c) else leBytes 4 c

/-- R476: bytes of an output row. -/
def outRowBytes (t : GthTable) (ofmt : Nat) : Nat :=
  if ofmt = 0 then t.rowBytes else if ofmt = 8 then 2 * t.elems else 4 * t.elems

/-! ### Blocks and requests (R477 to R481) -/

/-- R478: whether a block passes the checks that need no machine state. -/
def gthBlockOk (l : List Byte) : Bool :=
  let fl := leAt l 3 1
  let serve := bit 0 fl
  let op := leAt l 7 1
  let ofmt := leAt l 14 1
  let par := leAt l 15 1
  let conc := leAt l 12 1
  allOk [leAt l 0 2 == 8, leAt l 2 1 == 1, decide (fl < 8), serve || !bit 1 fl, decide (op < 3),
    (leAt l 8 2 != 0) == serve, decide (1 ≤ leAt l 10 2 ∧ leAt l 10 2 ≤ 2048), decide (1 ≤ conc ∧ conc ≤ 16),
    serve || conc == 1, decide (leAt l 13 1 < 64),
    if op = 2 then ofmt == 0 else if op = 1 then ofmt == 8 || ofmt == 0xA else ofmt == 0 || ofmt == 8 || ofmt == 0xA,
    if op = 0 then par == 0 else if op = 1 then decide (par ≤ 2) else decide (1 ≤ par ∧ par ≤ 64),
    if serve then leAt l 16 8 == 0 else slotAddr l 16 24 0 % 64 == 0, rsv l 28 36]

/-- R478: CONC × THREADS within the GTHR of the stage's cost line. -/
def gthThreadsOk (s : State) (t : Task) : Bool :=
  let stage := (((t.parent.bind (getTask s)).getD t).win).map fun w => w.1
  match stage, getGraph s t.src t.ctx with
  | some st, some g =>
    match g.lines.find? fun l => l.stage == st with
    | some l => decide (leAt t.block 12 1 * leAt t.block 10 2 ≤ l.gthr)
    | none => true
  | _, _ => true

/-- R480: a request read from its words. -/
structure GthRequest where
  nidx : Nat
  nbag : Nat
  core : Nat
  giss : Bool
  flagen : Bool
  oq : Bool
  flag : Nat
  resv : Bool
  dest : Nat
  ostride : Nat
  oqid : Nat
  pre : Nat
  lut : Nat
  preaddr : Nat
  idx : List Nat
  bend : List Nat
  whole : Bool

/-- R480: the fields of a request. -/
def gthRequest (ws : List Word) : GthRequest :=
  let w (i : Nat) : Nat := (nth 0 ws i).toNat
  let n := bits 15 0 (w 0)
  let b := bits 27 16 (w 0)
  let ni := cdiv n 2
  let body := wordsToBytes (ws.drop 5)
  { nidx := n, nbag := b, core := bits 33 28 (w 0), giss := bit 34 (w 0), flagen := bit 35 (w 0), oq := bit 36 (w 0),
    flag := bits 47 40 (w 0), resv := bits 39 37 (w 0) != 0 || bits 63 48 (w 0) != 0 || bits 63 55 (w 2) != 0,
    dest := w 1, ostride := bits 31 0 (w 2), oqid := bits 47 32 (w 2), pre := bits 54 48 (w 2), lut := w 3,
    preaddr := w 4, idx := (List.range n).map fun i => leAt body (4 * i) 4,
    bend := (List.range b).map fun i => leAt body (8 * ni + 2 * i) 2,
    whole := decide (5 + ni + cdiv b 4 ≤ ws.length) }

/-- R480: words of a request after its first five. -/
def gthTail (w0 : Nat) : Nat := cdiv (bits 15 0 w0) 2 + cdiv (bits 27 16 w0) 4

/-- R483: the ends of the bags never decrease, and the last is NIDX. -/
def bagsOk (b : List Nat) (n : Nat) : Bool :=
  (b.zip (b.drop 1)).all (fun p => decide (p.1 ≤ p.2)) && b.getLast? == some n

/-- R481: an address in an EVECAP page of the world of unit `u`. -/
def eveHome (s : State) (u a : Nat) (som : Bool) : Bool :=
  evecap s (pageOf a) && (match spaceOf a with
    | .dram => !som && ((regionOf s.fwl.dram (pageOf a)).map fun r => bit 29 r.2.flags.toNat == unitWorld s u).getD false
    | .som => ((regionOf s.fwl.som (pageOf (a - Config.somBase))).map
        fun r => bit 29 r.2.flags.toNat == unitWorld s u).getD false
    | _ => false)

/-- R480, R481: the error of a request on unit `u`, 0 for none. -/
def gthCheck (s : State) (u e : Nat) (t : Task) (r : GthRequest) : Nat :=
  let l := t.block
  let op := leAt l 7 1
  let ofmt := leAt l 14 1
  let tb := gthTable s (leAt l 13 1)
  let nflag := ((getGraph s t.src t.ctx).map fun g => g.hdr.nflag).getD 0
  let probe := op == 2
  let fields := allOk [r.whole, !r.resv, decide (1 ≤ r.nidx ∧ r.nidx ≤ if probe then 16 else 4096),
    (r.nbag != 0) == (op == 1), !r.oq || probe, !r.flagen || decide (r.flag < nflag),
    r.dest != 0 || (probe && r.oq), r.ostride % 16 == 0, decide (r.pre ≤ 64), r.pre == 0 || r.oq,
    r.preaddr == 0 || r.oq, (r.lut != 0) == probe]
  if ¬ fields then 2
  else if ¬ probe ∧ (if r.giss then r.ostride ≠ outRowBytes tb ofmt else r.ostride < outRowBytes tb ofmt) then 2
  else if (r.dest ≠ 0 ∧ ¬ (eveHome s u r.dest false ∨ eveHome s u r.dest true)) ∨ (r.giss ∧ ¬ eveHome s u r.dest true)
      ∨ (probe ∧ ¬ eveHome s u r.lut true) then 2
  else if op = 1 ∧ ¬ bagsOk r.bend r.nidx then 2
  else if ¬ tb.valid ∨ tb.kind ≠ b2n probe ∨ tb.secure ≠ unitWorld s u ∨ (¬ probe ∧ tb.rfmt = 0 ∧ ofmt ≠ 0) then 3
  else if r.idx.any fun i => decide ((if probe then tb.nlist else tb.nrows) ≤ i) then 4
  else if r.oq ∧ ¬ tcDest s u e r.oqid then 9
  else 0

/-! ### The work of a task -/

/-- The register block of a partition. -/
def gthRegs (u : Nat) : Nat := gthBase (u - 128)

/-- GTH_CNT_ROWDRAM or GTH_CNT_ROWSOM: reads of up to 64 bytes that a row of `n` bytes takes. -/
def countRows (s : State) (u a n : Nat) : State :=
  let b := gthRegs u
  if spaceOf a = .som then incBy s (b + 0x48) (cdiv n 64) else incBy s (b + 0x44) (cdiv n 64)

/-- A read of a partition, counted. -/
def gthRead {β : Type} (s : State) (u : Nat) (t : Task) (gen a n : Nat) (f : State → List Byte → Nat → State × Except EngErr β) :
    State × Except EngErr β :=
  mem (unitRead s u t.sc gen a n) fun s r => f (countRows s u a n) r.1 r.2

/-- Rows of a table read one after another, with the generation they bring. -/
def gthRows (s : State) (u : Nat) (t : Task) (n : Nat) : List Nat → Nat → State × Except EngErr (List (List Byte) × Nat)
  | [], gen => (s, .ok ([], gen))
  | a :: as, gen =>
    match unitRead s u t.sc gen a n with
    | (s, .error m) => (s, .error (.inl m))
    | (s, .ok r) =>
      match gthRows (countRows s u a n) u t n as r.2 with
      | (s, .ok q) => (s, .ok (r.1 :: q.1, q.2))
      | (s, .error e) => (s, .error e)

/-- The address of a row. -/
def rowAddr (tb : GthTable) (i : Nat) : Nat := tb.base + tb.rowBytes * i

/-- R241, R480: the words of a task's request, with the generation of its packet or its pages. -/
def gthFetch (s : State) (u e : Nat) (t : Task) : State × Except EngErr (List Word × Nat) :=
  let l := t.block
  if t.parent.isSome then
    match takeServed s e u (leAt l 4 2) (leAt l 6 1) t with
    | (s, some (ws, _)) =>
      let (s, g) := mergeAll s t.dataGen (ws.map QWord.gen)
      (s, .ok (ws.map QWord.data, g))
    | (s, none) => (dropServed s e t, .error (.inl .squashed))
  else
    let a := slotAddr l 16 24 t.slot
    gthRead s u t t.dataGen a 40 fun s h g =>
      let n := gthTail (leAt h 0 8)
      if n = 0 then (s, .ok (bytesToWords h, g))
      else gthRead s u t g (a + 40) (8 * n) fun s b g => (s, .ok (bytesToWords (h ++ b), g))

/-- What a gather task computes: its output rows, its data generation and the words of its queue result. -/
abbrev GthRes := State × Except EngErr (List EngOut × Nat × List Word)

/-- R482: a LOOKUP's output rows. -/
def gthLookup (s : State) (u : Nat) (t : Task) (r : GthRequest) (gen : Nat) : GthRes :=
  let tb := gthTable s (leAt t.block 13 1)
  let ofmt := leAt t.block 14 1
  match gthRows s u t tb.rowBytes (r.idx.map (rowAddr tb)) gen with
  | (s, .error e) => (s, .error e)
  | (s, .ok (rows, g)) =>
    let out := rows.zipIdx.map fun p =>
      (r.dest + p.2 * r.ostride, if ofmt = 0 then p.1 else outFloats ofmt (rowFloats tb p.1))
    (s, .ok (rowOuts out, g, []))

/-- R27, R483: the larger of two FP32 codes; any NaN gives the canonical one. -/
def f32max (a b : Nat) : Nat :=
  let x := FFmt.fp32.dec a
  let y := FFmt.fp32.dec b
  if x.isNan || y.isNan then 0x7FC00000 else f32code (fvPick true x y)

/-- R483: one element pooled over the rows of a bag. -/
def pool (mode : Nat) (l : List Nat) : Nat :=
  match l with
  | [] => 0
  | h :: t =>
    if mode = 2 then (if (FFmt.fp32.dec h).isNan then t.foldl f32max 0x7FC00000 else t.foldl f32max h)
    else if mode = 1 then f32div (f32sum l) (f32ofInt l.length)
    else f32sum l

/-- R483: a BAG's output rows. -/
def gthBag (s : State) (u : Nat) (t : Task) (r : GthRequest) (gen : Nat) : GthRes :=
  let tb := gthTable s (leAt t.block 13 1)
  let ofmt := leAt t.block 14 1
  match gthRows s u t tb.rowBytes (r.idx.map (rowAddr tb)) gen with
  | (s, .error e) => (s, .error e)
  | (s, .ok (rows, g)) =>
    let vals := rows.map (rowFloats tb)
    let bags := (0 :: r.bend).zip r.bend
    let out := bags.zipIdx.map fun p =>
      let mine := (vals.drop p.1.1).take (p.1.2 - p.1.1)
      (r.dest + p.2 * r.ostride, outFloats ofmt ((List.range tb.elems).map fun i =>
        pool (leAt t.block 15 1) (mine.map fun v => nth 0 v i)))
    (s, .ok (rowOuts out ++ [.count (gthRegs u + 0x74) (bags.countP fun p => p.1 == p.2)], g, []))

/-- R484: whether a candidate comes before another: lower distance, then lower entry number. -/
def candLe (a b : Nat × Nat) : Bool := decide (a.2 < b.2 ∨ (a.2 = b.2 ∧ a.1 ≤ b.1))

/-- R475, R484: the entries of one list with their distances. -/
def gthList (s : State) (u : Nat) (t : Task) (tb : GthTable) (lut : List Byte) (l gen : Nat) :
    State × Except EngErr (List (Nat × Nat) × Nat) :=
  gthRead s u t gen (tb.dir + 16 * l) 16 fun s d g =>
    let first := leAt d 0 4
    let n := leAt d 4 4
    let m := tb.elems
    if n = 0 then (s, .ok ([], g))
    else gthRead s u t g (tb.base + leAt d 8 8) (m * n) fun s codes g =>
      (s, .ok ((List.range n).map (fun e =>
        (first + e, sumN ((List.range m).map fun j => leAt lut (512 * j + 2 * leAt codes (m * e + j) 1) 2))), g))

/-- R484: every list of a request scanned. -/
def gthLists (s : State) (u : Nat) (t : Task) (tb : GthTable) (lut : List Byte) :
    List Nat → Nat → State × Except EngErr (List (Nat × Nat) × Nat)
  | [], gen => (s, .ok ([], gen))
  | l :: ls, gen =>
    match gthList s u t tb lut l gen with
    | (s, .error e) => (s, .error e)
    | (s, .ok r) =>
      match gthLists s u t tb lut ls r.2 with
      | (s, .ok q) => (s, .ok (r.1 ++ q.1, q.2))
      | (s, .error e) => (s, .error e)

/-- GTH_CNT_PAIRS: pairs scored, in units of 1,024. -/
def countPairs (s : State) (u n : Nat) : State :=
  let have_ := kvGet (fun _ => 0) s.gthPairs u + n
  incBy { s with gthPairs := kvPut s.gthPairs u (have_ % 1024) } (gthRegs u + 0x54) (have_ / 1024)

/-- R484: a PROBE: the best K entries, written where DEST asks for them, with the words of the queue result. -/
def gthProbe (s : State) (u : Nat) (t : Task) (r : GthRequest) (gen : Nat) : GthRes :=
  let tb := gthTable s (leAt t.block 13 1)
  let k := leAt t.block 15 1
  gthRead s u t gen r.lut (512 * tb.elems) fun s lut g =>
    match gthLists s u t tb lut r.idx.eraseDups g with
    | (s, .error e) => (s, .error e)
    | (s, .ok (cands, g)) =>
      let s := countPairs s u cands.length
      let best := (sortL cands candLe).take k
      let best := best ++ List.replicate (k - best.length) (0xFFFFFFFF, 0xFFFFFFFF)
      let pairs := best.flatMap fun p => leBytes 4 p.1 ++ leBytes 4 p.2
      let outs := if r.dest = 0 then [] else [.write r.dest pairs]
      if ¬ r.oq then (s, .ok (outs, g, []))
      else
        let (s, use) := freshUse s
        let tail := if k % 2 = 1 then (List.range 4).map (Config.freeByte use) else []
        let ids := bytesToWords (best.flatMap (fun p => leBytes 4 p.1) ++ tail)
        if r.pre = 0 then (s, .ok (outs, g, ids))
        else gthRead s u t g r.preaddr (8 * r.pre) fun s b g => (s, .ok (outs, g, bytesToWords b ++ ids))

/-! ### Read-ahead (R182, R487) -/

/-- R487: rows read ahead for packets that wait, on a partition: they count against its 512. -/
def aheadRows (s : State) (u : Nat) : Nat := sumN ((s.gthAhead.filter fun p => p.1 == u).map fun p => p.2.2.2)

/-- R487: a task with PRED reads rows of its own request ahead, a number that the rule leaves open; its threads then claim them. -/
def aheadOwn (s : State) (u : Nat) (t : Task) (r : GthRequest) : State :=
  if ¬ bit 2 (leAt t.block 3 1) then s
  else
    let (s, k) := freshUse s
    let most := if leAt t.block 7 1 = 2 then 64 else r.idx.length
    incBy s (gthRegs u + 0x4C) (Config.gthAhead k % (min most (512 - aheadRows s u) + 1))

/-- R487: a served stage with PRED also reads ahead for the packets that wait on its receiver. -/
def aheadWaiting (s : State) (u : Nat) (t : Task) : State :=
  if ¬ (bit 2 (leAt t.block 3 1) && t.parent.isSome) then s
  else
    let q := leAt t.block 4 2
    let x := getQ s q
    let running := (s.sched.tasks.filter fun p => p.2.parent == t.parent && !p.2.taken).length
    let waiting := (x.packets.filter (unread (nth {} x.recvs (leAt t.block 6 1)))).drop running
    (waiting.filter fun p => !p.leap && !s.gthAhead.any fun a => a.2.1 == q && a.2.2.1 == p.num).foldl (fun s p =>
        let (s, k) := freshUse s
        let n := Config.gthAhead k % (min (bits 15 0 (nth {} p.words 0).data.toNat) (512 - aheadRows s u) + 1)
        if n = 0 then s
        else incBy { s with gthAhead := s.gthAhead ++ [(u, q, p.num, n)] } (gthRegs u + 0x4C) n) s

/-- R481, R487: the work of a gather task on its request: the request fetched and checked, and its rows read. -/
def gthCompute (s : State) (u e : Nat) (t : Task) (f : State → Nat → Task → GthRequest → Nat → GthRes) : GthRes :=
  match gthFetch s u e t with
  | (s, .error x) => (s, .error x)
  | (s, .ok (ws, g)) =>
    let s := { s with gthAhead := s.gthAhead.filter fun p => (getQ s p.2.1).packets.any fun x => x.num == p.2.2.1 }
    let r := gthRequest ws
    let chk := gthCheck s u e t r
    if chk ≠ 0 then (s, .error (.inr (chk, slotAddr t.block 16 24 t.slot)))
    else f (aheadWaiting (aheadOwn s u t r) u t) u t r g

/-- The work of a gather task whose OP is `op`: its block and request checked, its rows read, and its output rows put out; then
its reply is to be made. -/
def gthWork (op e : Nat) (f : State → Nat → Task → GthRequest → Nat → GthRes) (s : State) : State :=
  match getTask s e with
  | none => s
  | some t =>
    let u := nth 128 t.units 0
    let out (s : State) (t : Task) (l : List EngOut) : State :=
      engineOut s u e 2 t (memCode 6) (fun s _ => s) (fun s => s) l
    if t.ttype ≠ 6 ∨ t.st ≠ .running ∨ t.err.isSome ∨ t.worked ∨ t.served.isSome ∨ leAt t.block 7 1 ≠ op then s
    else match t.outs with
    | some l => out s t l
    | none =>
      if ¬ gthBlockOk t.block ∨ ¬ gthThreadsOk s t then setErr s e { code := 1, addr := t.pblk }
      else match gthCompute s u e t f with
      | (s, .error x) => engineStop s u e 2 (memCode 6) x
      | (s, .ok (l, g, words)) =>
        out (updTask s e t.order fun x => { x with reply := some words, dataGen := g }) { t with dataGen := g } l

/-- LOOKUP (R473 to R482, R489): the gather task of entry `e` writes converted rows by index. -/
def execLookup (e : Nat) (s : State) : Res := .next (gthWork 0 e gthLookup s)

/-- BAG (R473 to R481, R483, R489): the gather task of entry `e` pools rows into bags. -/
def execBag (e : Nat) (s : State) : Res := .next (gthWork 1 e gthBag s)

/-- PROBE (R473 to R481, R484, R489): the gather task of entry `e` scores inverted lists and keeps the best K entries. -/
def execProbe (e : Nat) (s : State) : Res := .next (gthWork 2 e gthProbe s)

/-! ### The reply (R454, R485) -/

/-- The address at which a core's `GISS` awaits its reply. -/
def gissAt (k : TCore) : Option Nat :=
  if k.asked ∧ k.reply.isNone then (k.prog[k.fetch.pc]?).map fun w => (k.fetch.ga (wf w 99 96)).toNat else none

/-- R454, R469: the notice of a reply reaches the core that issued the request, or the context saved there. -/
def gissNotice (s : State) (c dest : Nat) (ok : Bool) : State :=
  let h := getTc s c
  let put (k : TCore) : TCore := if gissAt k = some dest then { k with reply := some ok } else k
  let save (l : List TcSaved) : List TcSaved := l.map fun x => { x with ctx := put x.ctx }
  setTc s c { h with core := put h.core, store := save h.store, dram := save h.dram }

/-- The request of a gather task as its reply needs it. -/
def gthReq (s : State) (t : Task) : GthRequest :=
  match t.packet with
  | some (ws, _) => gthRequest (ws.map QWord.data)
  | none => gthRequest (bytesToWords (peek s (slotAddr t.block 16 24 t.slot) 40))

/-- GATHER_REPLY (R244, R454, R485, R489): the reply of the gather task of entry `e` is visible: the `GISS` notice, the
flag update and the queue result follow in that order, and the task's work is done. A queue result that has to wait, or stops
at the gate, leaves the notice and the flag update made. -/
def execGatherReply (e : Nat) (s : State) : Res :=
  .next <| match getTask s e with
  | none => s
  | some t =>
    match t.reply with
    | none => s
    | some words =>
      if t.st ≠ .running ∨ t.worked ∨ t.outs ≠ some [] ∨ t.err.isSome then s
      else
        let u := nth 128 t.units 0
        let r := gthReq s t
        let gated := r.oq && (getQ s r.oqid).cfg.out && eff s t.dataGen != 0
        let tell (s : State) : State :=
          let s := if r.giss then gissNotice s r.core r.dest true else s
          match r.flagen, getGraph s t.src t.ctx with
          | true, some g => (flagUpdate s t.src t.slot t.frame (eff s t.dataGen) (flagAddr g t.slot r.flag) true 1).1
          | _, _ => s
        let done (s : State) : State :=
          match getTask s e with
          | some t =>
            let last := match (t.parent.bind (getTask s)).bind Task.served with
              | some v => decide (v.pcount ≤ v.done + 1)
              | none => true
            let s := inc (setTask s e { t with worked := true }) (gthRegs u + 0x40)
            if last then raise s (gthRegs u + 0x20) 0 else s
          | none => s
        let s := if t.told then s else updTask (tell s) e t.order fun x => { x with told := true }
        let t := { t with told := true }
        if ¬ r.oq then done s
        else if flowHeld s t ∨ s.flowWait.contains e then
          (if s.flowWait.contains e then s else { s with flowWait := s.flowWait ++ [e] })
        else if gated then raise (stopAtGate s e t t.dataGen) (gthRegs u + 0x20) 2
        else match enqUnit s r.oqid u (eff s t.dataGen) words with
          | (s, .waits) => s
          | (s, _) => done s

/-! ### Errors (R490) -/

/-- R490: the packets that wait for a served stage taken and discarded. -/
def discardServed (s : State) (u : Nat) (t : Task) : State :=
  match (t.parent.bind (getTask s)).bind Task.served with
  | none => s
  | some v =>
    let n := packetsFor (getQ s v.queue) (nth {} (getQ s v.queue).recvs v.recv)
    (List.range n).foldl (fun s _ =>
      let m := ((headFor (getQ s v.queue) (nth {} (getQ s v.queue).recvs v.recv)).map fun p => p.words.length).getD 0
      inc (deqPacket s v.queue u v.recv (m + 1)).1 (gthRegs u + 0x64)) s

/-- R338, R490: an error of a gather task recorded and reported, its request's `GISS` refused where the request was, and
its stage ended. -/
def gthError (s : State) (u e : Nat) (t : Task) (code addr : Nat) : State :=
  let s := engineErr s u e t { code := code, addr := addr }
  let r := gthReq s t
  let s := if r.giss ∧ (code = 2 ∨ code = 3 ∨ code = 4 ∨ code = 9) then gissNotice s r.core r.dest false else s
  failStage (discardServed s u t) e

end Sys2Proof.Machine
end

