-- ==== Sys2Proof/Machine/IspPix.lean ====
section
/-!
DEFINITION. The pixel arithmetic of an image pipeline: unpacking and the stages S1 to S8 (R290 to R295), area averaging,
statistics (R298), the signature (R312) and the lines that depend only on lines received (R288).
An image is a function of line and column. CFA channels are 0 R, 1 Gr, 2 Gb, 3 B (log entry 20).
-/
namespace Sys2Proof.Machine

/-- A plane of pixels, by line and column. -/
abbrev Img := Nat → Nat → Int

/-- Bit depth of ISP_FMT RAW. -/
def rawBits (raw : Nat) : Nat := 8 + 2 * raw

/-- R287: payload bytes of an image line. -/
def lineBytes (raw w : Nat) : Nat := cdiv (w * rawBits raw) 8

/-- S0 (R290): the `n`-bit codes of a packed line, in the CSI-2 packing of the data type (log entry 21). -/
def unpackLine (raw : Nat) (l : List Byte) (w : Nat) : List Nat :=
  let b (i : Nat) := (nth 0 l i).toNat
  (List.range w).map fun x =>
    if raw = 0 then b x
    else if raw = 1 then 4 * b (5 * (x / 4) + x % 4) + bits (2 * (x % 4) + 1) (2 * (x % 4)) (b (5 * (x / 4) + 4))
    else if raw = 2 then 16 * b (3 * (x / 2) + x % 2) + bits (4 * (x % 2) + 3) (4 * (x % 2)) (b (3 * (x / 2) + 2))
    else if raw = 3 then
      64 * b (7 * (x / 4) + x % 4)
        + bits (6 * (x % 4) + 5) (6 * (x % 4)) (leNat ((l.drop (7 * (x / 4) + 4)).take 3))
    else 256 * b (2 * x) + b (2 * x + 1)

/-- CFA channel of a pixel (ISP_FMT CFA and MONO). -/
def cfaCh (mono : Bool) (cfa y x : Nat) : Nat :=
  if mono then 0 else 2 * ((y + cfa / 2) % 2) + (x + cfa % 2) % 2

/-- R292: an index mirrored about the edge pixel. -/
def mirror (n : Nat) (i : Int) : Nat :=
  if i < 0 then min (n - 1) (-i).toNat
  else if (n : Int) ≤ i then (2 * (n : Int) - 2 - i).toNat
  else i.toNat

/-- A pixel at an offset, mirrored at the edges of a `w` × `h` image. -/
def at_ (f : Img) (w h y x : Nat) (dy dx : Int) : Int := f (mirror h (y + dy)) (mirror w (x + dx))

/-- The settings the stages read: a bank of registers by offset (ISP_BLC to ISP_TONE). -/
abbrev Bank := Nat → Nat

/-- 16-bit entry `i` of a table packed two to a register from offset `o`. -/
def half (b : Bank) (o i : Nat) : Nat := bits (16 * (i % 2) + 15) (16 * (i % 2)) (b (o + 4 * (i / 2)))

/-- S1 (R291). -/
def s1 (b : Bank) (raw : Nat) (mono : Bool) (cfa : Nat) (lines : List (List Nat)) : Img := fun y x =>
  max 0 ((nth 0 (nth [] lines y) x * 2 ^ (16 - rawBits raw) : Nat) - (half b 0x200 (cfaCh mono cfa y x) : Int))

/-- The eight neighbour offsets of R292. -/
def ring8 (d : Int) : List (Int × Int) :=
  [(0, -d), (0, d), (-d, 0), (d, 0), (-d, -d), (-d, d), (d, -d), (d, d)]

/-- R292 step 2: the noise threshold. -/
def noiseT (b : Bank) (x : Int) : Int :=
  let j := (x / 2048).toNat
  let f := x % 2048
  let a : Int := half b 0x300 j
  a + ((half b 0x300 (j + 1) - a) * f + 1024) / 2048

/-- S2 (R292). -/
def s2 (b : Bank) (mono : Bool) (w h : Nat) (f : Img) : Img := fun y x =>
  let r := b 0x210
  let ns := (ring8 (if mono then 1 else 2)).map fun d => at_ f w h y x d.1 d.2
  let c := f y x
  let st := sortL ns fun p q => decide (p ≤ q)
  let t : Int := bits 27 16 r
  let c := if bit 31 r ∧ (c > nth 0 st 7 + t ∨ c < nth 0 st 0 - t) then (nth 0 st 3 + nth 0 st 4) / 2 else c
  let den := max 1 ((bits 4 0 r : Int) * noiseT b c / 4)
  let ws := ns.map fun q => (max 0 (32 - (32 * (q - c).natAbs : Nat) / den), q)
  let sw := 32 + sumI (ws.map fun p => p.1)
  (32 * c + sumI (ws.map fun p => p.1 * p.2) + sw / 2) / sw

/-- R292: lines of S2 that depend on lines received only. -/
def rows2 (mono : Bool) (h k : Nat) : Nat := if h ≤ k then h else k - (if mono then 1 else 2)

/-- S3 (R293): the blend of a pixel with its reference. -/
def s3 (b : Bank) (restart : Bool) (ref : Img) (f : Img) : Img := fun y x =>
  let v := f y x
  if restart then v
  else
    let r := ref y x
    let k := min 15 ((v - r).natAbs / 2 ^ bits 3 0 (b 0x214))
    let a : Int := bits (8 * (k % 4) + 7) (8 * (k % 4)) (b (0x400 + 4 * (k / 4)))
    r + ((a + 1) * (v - r) + 128) / 256

/-- S4 (R294). -/
def s4 (b : Bank) (mono : Bool) (cfa : Nat) (f : Img) : Img := fun y x =>
  min 65535 ((f y x * half b 0x208 (cfaCh mono cfa y x) + 2048) / 4096)

/-- R294: an intermediate of 18 signed bits. -/
def w18 (i : Int) : Int := if -131072 ≤ i ∧ i < 131072 then i else Config.ispWide i

/-- R294: green of a Bayer site. -/
def green (b : Bank) (cfa w h : Nat) (z : Img) : Img := fun y x =>
  let ch := cfaCh false cfa y x
  if ch = 1 ∨ ch = 2 then z y x
  else
    let g (dy dx : Int) := at_ z w h y x dy dx
    let X := z y x
    let lapH := w18 (2 * X - g 0 (-2) - g 0 2)
    let lapV := w18 (2 * X - g (-2) 0 - g 2 0)
    let gh := w18 ((g 0 (-1) - g 0 1).natAbs + (lapH.natAbs : Nat) : Int)
    let gv := w18 ((g (-1) 0 - g 1 0).natAbs + (lapV.natAbs : Nat) : Int)
    let eh := w18 ((g 0 (-1) + g 0 1).tdiv 2 + lapH.tdiv 4)
    let ev := w18 ((g (-1) 0 + g 1 0).tdiv 2 + lapV.tdiv 4)
    let t : Int := bits 15 0 (b 0x218)
    clampI 0 65535 (if gh + t < gv then eh else if gv + t < gh then ev else (eh + ev).tdiv 2)

/-- R294: red (channel 0) or blue (channel 3) of a Bayer site, bilinear in the colour difference. -/
def redBlue (cfa w h c : Nat) (z gr : Img) : Img := fun y x =>
  let ch := cfaCh false cfa y x
  if ch = c then z y x
  else
    let d (dy dx : Int) := w18 (at_ z w h y x dy dx - at_ gr w h y x dy dx)
    let m :=
      if ch / 2 = c / 2 then (d 0 (-1) + d 0 1).tdiv 2
      else if ch % 2 = c % 2 then (d (-1) 0 + d 1 0).tdiv 2
      else (d (-1) (-1) + d (-1) 1 + d 1 (-1) + d 1 1).tdiv 4
    clampI 0 65535 (gr y x + w18 m)

/-- S5 (R294): the three planes. -/
def s5 (b : Bank) (mono : Bool) (cfa w h : Nat) (z : Img) : Nat → Img :=
  if mono then fun _ => z
  else
    let g := green b cfa w h z
    fun c => if c = 1 then g else redBlue cfa w h (if c = 0 then 0 else 3) z g

/-- R288, R294: lines of S5 that depend on lines received only. -/
def rows5 (mono : Bool) (h k : Nat) : Nat :=
  if h ≤ k then h else if mono then rows2 mono h k else rows2 mono h k - 3

/-- S6 (R295): coefficient `m` of row `i`, column `j`. -/
def ccm (b : Bank) (i j : Nat) : Int := sext 16 (half b 0x220 (3 * i + j))

/-- S6 (R295). -/
def s6 (b : Bank) (p : Nat → Img) : Nat → Img := fun i y x =>
  clampI 0 65535 ((ccm b i 0 * p 0 y x + ccm b i 1 * p 1 y x + ccm b i 2 * p 2 y x + 512) / 1024)

/-- R295: first and last line (or column) of the input under output index `o`, and the weight of index `i` in units of
1/256 pixel; the borders of a footprint are rounded down to that unit (log entry 22). -/
def fp (inn out o : Nat) : Nat := o * inn * 256 / out
def fpWeight (inn out o i : Nat) : Nat := min (fp inn out (o + 1)) (256 * (i + 1)) - max (fp inn out o) (256 * i)
def fpRange (inn out o : Nat) : List Nat :=
  (List.range (cdiv (fp inn out (o + 1)) 256 - fp inn out o / 256)).map (fp inn out o / 256 + ·)

/-- S7 (R295, R314): area averaging of a `w` × `h` plane to `W` × `H`, rounding half up. -/
def scale (w h W H : Nat) (f : Img) : Img := fun Y X =>
  let ys := fpRange h H Y
  let xs := fpRange w W X
  let tot : Int := (fp h H (Y + 1) - fp h H Y) * (fp w W (X + 1) - fp w W X) 
  let sum := sumI (ys.map fun y => fpWeight h H Y y * sumI (xs.map fun x => fpWeight w W X x * f y x))
  (sum + tot / 2) / tot

/-- Output lines whose footprint lies within the first `k` input lines. -/
def scaleRows (h H k : Nat) : Nat := ((List.range H).filter fun Y => decide (fp h H (Y + 1) ≤ 256 * k)).length

/-- Entry `i` of TONE. -/
def toneAt (b : Bank) (i : Nat) : Int := bits (16 * (i % 2) + 11) (16 * (i % 2)) (b (0x800 + 4 * (i / 2)))

/-- S8 (R295): the tone curve. -/
def tone (b : Bank) (v : Int) : Int :=
  let j := (v / 256).toNat
  toneAt b j + ((toneAt b (j + 1) - toneAt b j) * (v % 256) + 128) / 256

/-- S8 (R295): the 8-bit and the 10-bit code of a tone value. -/
def code8 (t : Int) : Nat := (min 255 ((t + 8) / 16)).toNat
def code10 (t : Int) : Nat := (min 1023 ((t + 2) / 4)).toNat

/-- S8 (R295): ITU-R BT.709 at limited range over 12-bit tone values, coefficients rounded to 12 fraction bits
(log entry 23): 0 Y, 1 Cb, 2 Cr. -/
def ycc (k : Nat) (r g b : Int) : Int :=
  if k = 0 then 256 + (745 * r + 2507 * g + 253 * b + 2048) / 4096
  else if k = 1 then 2048 + (-411 * r - 1382 * g + 1792 * b + 2048) / 4096
  else 2048 + (1792 * r - 1628 * g - 164 * b + 2048) / 4096

/-- R296: the lines of an output of `W` × `H` in a format, of which `k` lines are computed: each as the number of the
line in its surface with its bytes. -/
def outLines (fmt W H k : Nat) (t : Nat → Img) : List (Nat × List Byte) :=
  let y (c Y X : Nat) : Int := ycc c (t 0 Y X) (t 1 Y X) (t 2 Y X)
  let code (v : Int) : Nat := if fmt = 1 then code10 v else code8 v
  let bytes (n : Nat) : List Byte := if fmt = 1 then leBytes 2 (64 * n) else leBytes 1 n
  let luma := (List.range (min k H)).map fun Y => (Y, (List.range W).flatMap fun X => bytes (code (y 0 Y X)))
  if fmt = 3 then luma
  else if fmt = 2 then
    (List.range 3).flatMap fun c => (List.range (min k H)).map fun Y =>
      (c * H + Y, (List.range W).flatMap fun X => leBytes 1 (code8 (t c Y X)))
  else
    let chroma := (List.range (min k H / 2)).map fun Y => (H + Y, (List.range (W / 2)).flatMap fun X =>
      [1, 2].flatMap fun c => bytes ((code (y c (2 * Y) (2 * X)) + code (y c (2 * Y) (2 * X + 1))
        + code (y c (2 * Y + 1) (2 * X)) + code (y c (2 * Y + 1) (2 * X + 1)) + 2) / 4))
    luma ++ chroma

/-- R298: a plane over the kept lines of a frame: its first `k` lines, and free samples where a line depends on one not received. -/
def kept (tstamp stage plane k : Nat) (f : Img) : Img := fun y x =>
  if y < k then f y x else (Config.ispCut tstamp stage plane y x).toNat

/-- R298: the luma histogram of the first `k` lines of S6. -/
def histogram (w k : Nat) (p : Nat → Img) : List Byte :=
  let px := (List.range k).flatMap fun y => (List.range w).map fun x =>
    (Config.statLuma (p 0 y x).toNat (p 1 y x).toNat (p 2 y x).toNat).val
  (List.range 256).flatMap fun i => leBytes 4 ((px.filter (· == i)).length)

/-- R298: one zone's means and count of pixels at 65,535, over the lines `[0, k)` of S4. -/
def zone (mono : Bool) (cfa w h k i j : Nat) (z : Img) : List Byte :=
  let ys := (List.range k).filter fun y => decide (j * h / 18 ≤ y ∧ y < (j + 1) * h / 18)
  let xs := (List.range w).filter fun x => decide (i * w / 32 ≤ x ∧ x < (i + 1) * w / 32)
  let px := ys.flatMap fun y => xs.map fun x => (cfaCh mono cfa y x, z y x)
  let mean (p : Nat → Bool) : Nat :=
    let l := (px.filter fun q => p q.1).map Prod.snd
    if l.isEmpty then 0 else (sumI l).toNat / l.length
  let m (p : Nat → Bool) : List Byte := leBytes 2 (mean fun c => mono || p c)
  m (· == 0) ++ m (fun c => c == 1 || c == 2) ++ m (· == 3)
    ++ leBytes 2 (satN 0xFFFF (px.filter fun q => q.2 == 65535).length)

/-- R298: the zones, in raster order. -/
def zones (mono : Bool) (cfa w h k : Nat) (z : Img) : List Byte :=
  (List.range 18).flatMap fun j => (List.range 32).flatMap fun i => zone mono cfa w h k i j z

/-- R312: CRC and mean of each band of the kept lines, codes left-aligned to 16 bits. -/
def signature (raw h : Nat) (lines : List (List Nat)) : List (Nat × Nat) :=
  (List.range 8).map fun b =>
    let lo := b * h / 8
    let px := (((lines.drop lo).take ((b + 1) * h / 8 - lo)).flatten).map fun c => c * 2 ^ (16 - rawBits raw)
    (crc32c (px.flatMap (leBytes 2)), if px.isEmpty then 0 else sumN px / px.length)

/-- R312: the 64 bytes of a signature (log entry 24 for the step of the CRCs). -/
def signatureBytes (l : List (Nat × Nat)) : List Byte :=
  l.flatMap (fun p => leBytes 4 p.1) ++ l.flatMap (fun p => leBytes 2 p.2) ++ zeros 16

/-- R313: whether a signature repeats the previous one. -/
def repeats (mtol : Nat) (a b : List (Nat × Nat)) : Bool :=
  (a.zip b).all (fun p => p.1.1 == p.2.1)
    || (mtol != 0 && (a.zip b).all fun p => decide (p.1.2 ≤ p.2.2 + mtol ∧ p.2.2 ≤ p.1.2 + mtol))

/-- R314: the quad luma of a crop at column `X0`, line `Y0`: its size and its plane. -/
def quadLuma (mono : Bool) (x0 y0 : Nat) (f : Img) : Img := fun y x =>
  if mono then f (y0 + y) (x0 + x)
  else (f (y0 + 2 * y) (x0 + 2 * x) + f (y0 + 2 * y) (x0 + 2 * x + 1) + f (y0 + 2 * y + 1) (x0 + 2 * x)
    + f (y0 + 2 * y + 1) (x0 + 2 * x + 1) + 2) / 4

end Sys2Proof.Machine
end

