-- ==== Sys2Proof/Machine/Isp.lean ====
section
/-!
DEFINITION. Camera ports and image pipelines (spec/10_camera_input_and_isp.md): packets and frames (R281 to R289), the
outputs of a frame (R296 to R298, R312 to R314), settings batches (R302 to R307), pairs (R309 to R311), sensor control
(R299, R300) and frame sync (R301). A pipeline computes and writes the whole of a frame in the step that reports its
last output line (log entry 25).
-/
namespace Sys2Proof.Machine

/-! ### Configuration -/

/-- R297: a configuration register of pipeline `n`: the captured value while one is held. -/
def cfg (s : State) (n off : Nat) : Nat :=
  match (getPipe s n).cap with
  | some c => (kvGet (fun _ => 0) c off).toNat
  | none => getN s (ispBase n + off)

/-- The captured registers of R297. -/
def capturedRegs : List Nat := [0x10, 0x14, 0x18, 0x1C, 0x20, 0x24, 0x28, 0x2C, 0x40, 0x44]

/-- WIDTH, HEIGHT, MONO, CFA and RAW in force. -/
def geomW (s : State) (n : Nat) : Nat := bits 13 0 (cfg s n 0x14)
def geomH (s : State) (n : Nat) : Nat := bits 30 16 (cfg s n 0x14)
def isMono (s : State) (n : Nat) : Bool := bit 6 (cfg s n 0x18)
def cfaOf (s : State) (n : Nat) : Nat := bits 5 4 (cfg s n 0x18)
def rawOf (s : State) (n : Nat) : Nat := bits 2 0 (cfg s n 0x18)

/-- R280, R282: whether a data type is an image data type, and one of pipeline `n`. -/
def imageType (s : State) (n dt : Nat) : Bool := decide (0x2A ≤ dt ∧ dt ≤ 0x2E) && bits 13 8 (cfg s n 0x10) == dt

/-- R280, R282: whether a data type is that of embedded data, and one of pipeline `n`. -/
def embeddedType (s : State) (n dt : Nat) : Bool := dt == 0x12 && bits 5 0 (cfg s n 0x10) == dt

/-- R282: whether pipeline `n` selects a port and virtual channel. -/
def selects (s : State) (n port vc : Nat) : Bool :=
  let r := cfg s n 0x10
  bit 31 r && bits 25 24 r == port && bits 19 16 r == vc

/-- R282: whether a lower pipeline with the same port, virtual channel and image data type takes pipeline `n`'s data. -/
def overshadowed (s : State) (n port vc : Nat) : Bool :=
  (List.range n).any fun m => selects s m port vc && bits 13 8 (cfg s m 0x10) == bits 13 8 (cfg s n 0x10)

/-- R282: the pipelines a packet of a port and virtual channel belongs to. -/
def owners (s : State) (port vc : Nat) : List Nat :=
  (List.range 16).filter fun n => selects s n port vc && !overshadowed s n port vc

/-- R282: MAPCONF of the pipelines that a lower one overshadows. -/
def mapConf (s : State) (port vc : Nat) : State :=
  (List.range 16).foldl (fun s n =>
    if selects s n port vc ∧ overshadowed s n port vc then raise s (ispBase n + 0x30) 8 else s) s

/-- A counter of pipeline `n`, by its place in the list of R316. -/
def ispCount (s : State) (n i : Nat) : State := inc s (ispBase n + 0x3000 + 4 * i)

/-- A counter of a port: 0 ECCCORR, 1 ECCUNC, 2 CRC, 3 UNMAPPED. -/
def portCount (s : State) (port i : Nat) : State := inc s (ispBase port + 0x30010 + 4 * i)

/-! ### Settings batches (R302 to R307) -/

/-- The bank's registers from `base`, by offset. -/
def bankAt (s : State) (base : Nat) : List (Nat × Reg) :=
  (s.regs.filter fun p => decide (base + 0x200 ≤ p.1 ∧ p.1 < base + 0xA04)).map fun p => (p.1 - base, p.2)

/-- The active bank of pipeline `n` (R304, R308). -/
def activeBank (s : State) (n : Nat) : List (Nat × Reg) := bankAt s (ispBase n + 0x10000)

/-- A bank as the stages read it. -/
def settingsOf (b : List (Nat × Reg)) : Bank := fun o => (kvGet (fun _ => 0) b o).toNat

/-- A bank made the active one. -/
def setActive (s : State) (n : Nat) (b : List (Nat × Reg)) : State :=
  let base := ispBase n + 0x10000
  b.foldl (fun s p => setR s (base + p.1) p.2) (clearRegs s (base + 0x200) (base + 0xA04))

/-- R304: the effect frame of each batch, in commit order: the later of its own and that of the batch before it. -/
def settleEffects : Nat → List Batch → List Batch
  | _, [] => []
  | e, b :: t => match b.effect with
    | some f => { b with effect := some (max e f) } :: settleEffects (max e f) t
    | none => b :: t

/-- R304 to R307: the batches whose effect frame has come applied in commit order. -/
def applyBatches (s : State) (n index : Nat) : Nat → State
  | 0 => s
  | k + 1 =>
    let p := getPipe s n
    match settleEffects p.effect p.batches with
    | [] => s
    | b :: t => match b.effect with
      | none => s
      | some f =>
        if index < f then s
        else
          let s := setActive s n b.bank
          applyBatches (setPipe s n { p with
            batches := t, epoch := b.epoch, effect := f,
            echo := if b.echo.isSome then b.echo else p.echo,
            setErr := if b.failed then true else if b.writes.isEmpty then p.setErr else false }) n index k

/-- R303: waiting batches issued at the end of a frame. -/
def issueBatches (s : State) (n : Nat) : State :=
  let p := getPipe s n
  setPipe s n { p with batches := p.batches.map fun b =>
    if b.phase = .waiting then { b with phase := .issued (now s) } else b }

/-- R302: the sensor-write list that software has staged. -/
def stagedWrites (s : State) (n nsw : Nat) : List (Nat × Nat × Nat) :=
  (List.range nsw).map fun i =>
    let a := getN s (ispBase n + 0x2000 + 8 * i)
    let k := bits 17 16 a + 1
    (bits 15 0 a, k, getN s (ispBase n + 0x2004 + 8 * i) % 2 ^ (8 * k))

/-- ISP_SET_STATUS written: the epoch of the last batch committed is kept unless a new one is given. -/
def setStatus (s : State) (n : Nat) (epoch : Option Nat) (result : Nat) : State :=
  let a := ispBase n + 0x2108
  let e := epoch.getD (field s a 31 16)
  setR s a (reg (e * 65536 + (getPipe s n).batches.length * 256 + result))

/-- PENDING of ISP_SET_STATUS brought up to date. -/
def showPending (s : State) (n : Nat) : State := setField s (ispBase n + 0x2108) 10 8 (getPipe s n).batches.length

/-- ISP_SET_COMMIT (R58, R302 to R304): what is staged for the pipeline committed as a batch; without a RUNNING graph it
applies at once. A commit with NSW above 32 is refused in both cases (log entry 26). -/
def execIspSetCommit (secure : Bool) (n : Nat) (s : State) : Res :=
  .next <| hostAccess secure (unitWorld s (160 + n)) (ispBase n + 0x2104) s fun s =>
  let c := getN s (ispBase n + 0x2100)
  let nsw := bits 21 16 c
  let p := getPipe s n
  let bank := bankAt s (ispBase n)
    if 32 < nsw then setStatus s n none 2
    else if (runningGraph s (pipeStream s n)).isNone then
      let s := setActive s n bank
      let w := stagedWrites s n nsw
      let b : Batch := { tagged := false, bank := bank, writes := w, phase := .issued (now s), at_ := now s }
      let s := setPipe s n { p with
        cur := p.cur.map fun f => { f with bank := bank },
        direct := if nsw = 0 then p.direct else p.direct ++ [b] }
      setStatus s n none 4
    else if 4 ≤ p.batches.length then setStatus s n none 1
    else
      let q := getSeq s n
      let e := if q.setEpoch ≥ 0xFFFF then 1 else q.setEpoch + 1
      let s := setSeq s n { q with setEpoch := e }
      let b : Batch := {
        epoch := e, bank := bank, writes := stagedWrites s n nsw,
        echo := if bit 24 c then some (bits 15 0 c) else none,
        phase := if nsw = 0 then .written else if p.cur.isSome then .waiting else .issued (now s),
        effect := if nsw = 0 then some p.starts else none, at_ := now s }
      setStatus (setPipe s n { p with batches := p.batches ++ [b] }) n (some e) 0

/-- The sensor-control master of pipeline `n`, its sensor's address and its LATCH. -/
def masterOf (s : State) (n : Nat) : Nat := bits 25 24 (cfg s n 0x40)
def sensorAddr (s : State) (n : Nat) : Nat := bits 22 16 (cfg s n 0x40)
def latchOf (s : State) (n : Nat) : Nat := bits 9 8 (cfg s n 0x40)

/-- Module time at which the sensor writes of pipeline `n` issued first, of those that are not over, were issued. -/
def issuedAt (s : State) (n : Nat) : Option Nat :=
  let p := getPipe s n
  ((p.direct ++ p.batches).filterMap fun b => match b.phase with
    | .issued t => some t
    | _ => none).min?

/-- R303: whether pipeline `n` has its turn on its master: no batch issued earlier, or at the same time by a lower
pipeline, is in progress there. -/
def hasTurn (s : State) (n t : Nat) : Bool :=
  (List.range 16).all fun m => m == n || masterOf s m != masterOf s n || match issuedAt s m with
    | some u => decide (t < u ∨ (t = u ∧ n < m))
    | none => true

/-! ### Direct transactions (R299, R300) -/

/-- STATUS of ISP_SCM_STATUS. -/
def scmCode : ScmEnd → Nat
  | .done => 0
  | .nack => 1
  | .stretch => 2

/-- The direct transactions that wait for a master, and the same replaced. -/
def getScm (s : State) (m : Nat) : List ScmOp := kvGet (fun _ => []) s.scm m
def setScm (s : State) (m : Nat) (l : List ScmOp) : State := { s with scm := kvPut s.scm m l }

/-- R300: whether no batch that was issued by `t` still has writes on a master. -/
def scmFree (s : State) (m t : Nat) : Bool :=
  (List.range 16).all fun n => masterOf s n != m || ((issuedAt s n).map fun u => decide (t < u)).getD true

/-- R299: a direct transaction takes place. -/
def scmDo (s : State) (m : Nat) (o : ScmOp) : State :=
  let i3c := flag s (ispBase m + 0x31000) 30
  let a16 := Config.scmAddr16 m o.addr o.reg
  let st (s : State) (c : Nat) : State := setR s (ispBase m + 0x3100C) (reg c)
  if o.op = 3 then st (emit s (.sensor m i3c true 0x7E 0x07 false [])) (if i3c then scmCode o.fate else 1)
  else if o.op = 1 then
    st (emit s (.sensor m i3c true o.addr o.reg a16 (leBytes o.len o.data).reverse)) (scmCode o.fate)
  else
    let s := st (emit s (.sensor m i3c false o.addr o.reg a16 [])) (scmCode o.fate)
    if o.fate = .done then setR s (ispBase m + 0x31008) (reg (o.ans % 2 ^ (8 * o.len))) else s

/-- R300: the direct transactions of a master in the order requested, each once the batches issued by then are over; BUSY while one
waits. -/
def scmGo (m : Nat) : State → List ScmOp → State
  | s, [] => setScm s m []
  | s, o :: t => if scmFree s m o.time then scmGo m (scmDo s m o) t
    else setR (setScm s m (o :: t)) (ispBase m + 0x3100C) (reg (2 ^ 31 + field s (ispBase m + 0x3100C) 7 0))

/-- R300: a direct transaction requested. -/
def scmRequest (s : State) (m : Nat) (o : ScmOp) : State := scmGo m s (getScm s m ++ [{ o with time := now s }])

/-- SENSOR_WRITE_COMPLETE (R303, R304, R307): the writes of the pipeline's oldest issued batch are over: all of them, or
those before the one that was NACKed or stretched beyond 10 ms. Direct transactions that wait for the master follow (R300). -/
def execSensorWriteComplete (n acked : Nat) (s : State) : Res :=
  .next <| match issuedAt s n with
  | none => s
  | some t =>
    if ¬ hasTurn s n t then s
    else
      let p := getPipe s n
      let isNow (b : Batch) : Bool := b.phase == .issued t
      let untagged := p.direct.any isNow
      let b := (((p.direct ++ p.batches).find? isNow).getD {})
      let sent := b.writes.take (acked + 1)
      let sensor := cfg s n 0x40
      let s := sent.foldl (fun s w => emit s (.sensor (masterOf s n) (bit 23 sensor) true (sensorAddr s n) w.1 (bit 0 sensor)
        (leBytes w.2.1 w.2.2).reverse)) s
      let failed := decide (acked < b.writes.length)
      let s := if failed then raise (ispCount s n 10) (ispBase n + 0x30) 4 else s
      let s :=
        if untagged then setPipe s n { p with direct := p.direct.erase b }
        else
          let s := if p.cur.isSome then raise (ispCount s n 9) (ispBase n + 0x30) 5 else s
          let b' : Batch := { b with
            phase := .written, failed := failed, effect := some (p.starts - 1 + latchOf s n), done := some (now s),
            late := p.cur.isSome }
          setPipe s n { p with batches := p.batches.map fun x => if x = b then b' else x }
      scmGo (masterOf s n) s (getScm s (masterOf s n))

/-! ### The end of a frame (R285 to R289, R312, R313) -/

/-- FSTAT of a frame (R289). -/
def IspFrame.fstat (f : IspFrame) : Nat :=
  b2n f.short + 2 * b2n f.long + 4 * b2n (f.tcause != 0) + 8 * b2n f.mismatch + 16 * b2n f.unpaired + 32 * b2n f.frozen
    + 64 * b2n f.restart

/-- R310: the partner's frame that holds a slot of primary `m`. -/
def partnerOf (s : State) (m : Nat) : Option Nat :=
  (List.range 16).find? fun q => q != m && pipeStream s q == m

/-- What a frame's info names of it as a partner frame (R289). -/
def IspFrame.asPartner (f : IspFrame) : Nat × Nat × Nat × Nat := (f.frame, f.lines.length, f.fstat % 8, f.tstamp)

/-- R289, R310: the other frame of the pair that frame `f` of pipeline `n` belongs to, as it stands now, or as it was when it was
done. -/
def otherOf (s : State) (n : Nat) (f : IspFrame) : Option (Nat × Nat × Nat × Nat) :=
  match f.slot with
  | none => none
  | some (m, i) =>
    let live (q : Nat) : Option (Nat × Nat × Nat × Nat) :=
      let p := getPipe s q
      ((p.cur.toList ++ p.ended).find? fun y => y.slot == some (m, i)).map IspFrame.asPartner
    if m = n then ((partnerOf s m).bind live).orElse fun _ => f.partner
    else (live m).orElse fun _ =>
      let x := kvGet (fun _ => (0, 0, 0, 0)) (getPipe s m).fins i
      if x.1 = (getSlot s m i).frame then some x else f.partner

/-- R289, R314: frame info of a KIND, with the frame counter given. A primary frame's FSTAT has its partner frame's SHORT, LONG and
TRUNC beside its own (R311). -/
def frameInfo (s : State) (f : IspFrame) (n kind frame : Nat) : List Byte :=
  let o := otherOf s n f
  let p := o.getD (0xFFFFFFFF, 0, 0, 0)
  let own := decide (f.slot.map Prod.fst = some n)
  let stat := if own then f.fstat.lor (p.2.2.1 % 8) else f.fstat
  withCrc (leBytes 2 kind ++ leBytes 1 n ++ leBytes 1 stat ++ leBytes 4 frame ++ leBytes 8 f.tstamp
    ++ leBytes 2 f.epoch ++ leBytes 2 f.lines.length ++ leBytes 1 f.tcause ++ leBytes 1 0 ++ leBytes 2 f.xlines
    ++ leBytes 8 f.tend ++ leBytes 4 p.1 ++ leBytes 2 p.2.1 ++ leBytes 1 p.2.2.1 ++ leBytes 1 0 ++ leBytes 8 p.2.2.2
    ++ leBytes 2 (f.echo.getD 0) ++ leBytes 2 f.expect ++ zeros 8)

/-- R288, R311: bits of FSTAT [4:0] of pipeline `n`'s frame set in the FFLAGS of its slot, never cleared; of a partner frame SHORT,
LONG and TRUNC alone. -/
def addFlags (s : State) (n : Nat) (slot : Option (Nat × Nat)) (frame v : Nat) : State :=
  match slot with
  | none => s
  | some (m, i) =>
    let x := getSlot s m i
    let v := if m = n then v % 32 else v % 8
    if x.frame ≠ frame ∨ x.st = .free then s else setSlot s m i { x with fflags := x.fflags.lor v }

/-- R310: the primary's frame counter, where a partner's frame is attached or held; its own for any other frame. -/
def slotFrame (s : State) (f : IspFrame) : Nat :=
  match f.slot with
  | some (m, i) => (getSlot s m i).frame
  | none => f.frame

/-- The S1 plane of a frame. -/
def planeS1 (s : State) (n : Nat) (f : IspFrame) : Img := s1 (settingsOf f.bank) (rawOf s n) (isMono s n) (cfaOf s n) f.lines

/-- R314: the thumbnail of a frame written to its buffer in the keeping bank; lines of it that depend on a line not
received keep what they held. -/
def takeThumb (s : State) (n : Nat) (f : IspFrame) : State :=
  let p := getPipe s n
  let org := getN s (ispBase n + 0x50)
  let ext := getN s (ispBase n + 0x54)
  let mono := isMono s n
  let q := if mono then 1 else 2
  let w := bits 13 0 ext / q
  let h := bits 29 16 ext / q
  let y0 := bits 29 16 org
  let base := Config.somBase + (2 * n + p.buf) * 61440
  let img := scale w h 320 180 (quadLuma mono (bits 13 0 org) y0 (planeS1 s n f))
  let k := scaleRows h 180 ((f.lines.length - y0) / q)
  let b := settingsOf f.bank
  let rows := (List.range (min k 180)).map fun y =>
    (y, (List.range 320).flatMap fun x => leBytes 1 (code8 (tone b (img y x))))
  let s := poke s base (frameInfo s f n 0x0011 (p.thumbs % 2 ^ 32))
  let s := rows.foldl (fun s r => poke s (base + 64 + 320 * r.1) r.2) s
  let s := ispCount s n 11
  setPipe s n { p with thumbs := p.thumbs + 1, buf := 1 - p.buf, judge := some (p.buf, p.thumbs, f.tstamp) }

/-- R306: a frame that lacks the embedded line of the echo check carries EPOCH_MISMATCH. -/
def lacksEcho (s : State) (n : Nat) (f : IspFrame) : Bool :=
  (getPipe s n).echo.isSome && decide (f.embedded ≤ bits 31 30 (cfg s n 0x44))

/-- R313: the repeat count after a frame, and whether the frame is FROZEN. -/
def judgeFrozen (s : State) (n : Nat) (f : IspFrame) : Pipe × Bool :=
  let p := getPipe s n
  let r := getN s (ispBase n + 0x48)
  if ¬ bit 31 r then ({ p with repeats := 0, prev := none }, false)
  else if f.short ∨ f.tcause ≠ 0 then ({ p with repeats := 0 }, false)
  else
    let rep := (p.prev.map fun q => repeats (bits 23 16 r) f.sig q).getD false
    let k := if rep then p.repeats + 1 else 0
    ({ p with repeats := k, prev := some f.sig }, rep && decide (bits 7 0 r ≤ k))

/-- R307, R306: the frame is given EPOCH_MISMATCH once, and counted. -/
def setMismatch (s : State) (n : Nat) (f : IspFrame) : State × IspFrame :=
  if f.mismatch ∨ ¬ f.acc then (s, f)
  else
    let s := raise (ispCount s n 4) (ispBase n + 0x30) 2
    (addFlags s n f.slot (slotFrame s f) 8, { f with mismatch := true })

/-- R285 to R288, R303, R313: the frame in progress of pipeline `n` ends now; `cut` when no frame-end packet ended it. -/
def endFrame (s : State) (n : Nat) (cut : Bool) : State :=
  let p := getPipe s n
  match p.cur with
  | none => s
  | some f =>
    let f := { f with tend := now s,
                      short := f.tcause == 0 && (cut || decide (f.lines.length < geomH s n)),
                      long := f.tcause == 0 && decide (0 < f.xlines) }
    let s := setPipe s n { p with cur := none }
    let s := issueBatches s n
    let s := if f.thumb then takeThumb s n f else s
    if ¬ f.acc then s
    else
      let s := if f.short then ispCount s n 1 else s
      let s := if f.long then ispCount s n 2 else s
      let s := if f.tcause ≠ 0 then ispCount s n 3 else s
      let s := if f.short ∨ f.long ∨ f.tcause ≠ 0 then raise s (ispBase n + 0x30) 1 else s
      let (s, f) := if lacksEcho s n f then setMismatch s n f else (s, f)
      let f := { f with sig := signature (rawOf s n) (geomH s n) f.lines }
      let (p, fz) := judgeFrozen s n f
      let f := { f with frozen := fz }
      let s := setPipe s n { p with ended := p.ended ++ [f], restart := f.short || f.tcause != 0 }
      let s := if fz then raise (ispCount s n 8) (ispBase n + 0x30) 3 else s
      addFlags s n f.slot (slotFrame s f) f.fstat

/-! ### Outputs (R288, R296 to R298, R311) -/

/-- Lines of bytes written by pipeline `n` to a surface of a slot, generation 0 (R168). -/
def writeLines (s : State) (n base stride : Nat) (l : List (Nat × List Byte)) : State :=
  l.foldl (fun s r => (unitWrite s (160 + n) false 0 (base + r.1 * stride) r.2).1) s

/-- A declared surface of a graph, by SID. -/
def surfaceOf (g : Graph) (sid : Nat) : Option Surface := g.pl.surfaces.find? fun x => x.sid == sid

/-- The address of a surface for a slot. -/
def Surface.at (f : Surface) (slot : Nat) : Nat := if bit 2 f.attr then f.addr + slot * f.size else f.addr

/-- R290 to R298: the outputs and the statistics of a frame written to its slot, and the reference of S3 renewed. -/
def processFrame (s : State) (n : Nat) (f : IspFrame) : State :=
  let b := settingsOf f.bank
  let w := geomW s n
  let h := geomH s n
  let mono := isMono s n
  let cfa := cfaOf s n
  let k := f.lines.length
  let p := getPipe s n
  let k2 := rows2 mono h k
  let x2 := s2 b mono w h (planeS1 s n f)
  let ref : Img := fun y x => ((nth 0 (nth [] p.ref y) x : Nat) : Int)
  let x3 := s3 b f.restart ref x2
  let x4 := s4 b mono cfa x3
  let x6 := s6 b (s5 b mono cfa w h x4)
  let k5 := rows5 mono h k
  let rows3 := (List.range k2).map fun y => (List.range w).map fun x => (x3 y x).toNat
  let s := setPipe s n { p with ref := rows3 ++ p.ref.drop k2 }
  match f.slot with
  | none => s
  | some (m, i) =>
    match slotGraph s m (getSlot s m i) with
    | none => s
    | some g =>
      let first := if m = n then 1 else 4
      let s := (List.range 2).foldl (fun s o =>
        let size := cfg s n (0x20 + 8 * o)
        let ctl := cfg s n (0x24 + 8 * o)
        match surfaceOf g (first + o) with
        | some d =>
          let W := bits 13 0 size
          let H := bits 29 16 size
          let t : Nat → Img := fun c y x => tone b (scale w h W H (x6 c) y x)
          writeLines s n (d.at i) d.stride (outLines (bits 3 0 ctl) W H (scaleRows h H k5) t)
        | none => s) s
      match surfaceOf g (first + 2) with
      | some d =>
        let y6 : Nat → Img := fun c => kept f.tstamp 6 c k5 (x6 c)
        let block := frameInfo s f n 0x0010 f.frame ++ signatureBytes f.sig ++ histogram w k y6
          ++ zones mono cfa w h k (kept f.tstamp 4 0 k2 x4) ++ zeros 2432
        (unitWrite s (160 + n) false 0 (d.at i) block).1
      | none => s

/-- R52: the pipeline refers no more to a slot. -/
def dropRef (s : State) (m i : Nat) : State :=
  let x := getSlot s m i
  settleSlots (setSlot s m i { x with refs := x.refs - 1 }) m

/-- R289: frame `f` of pipeline `n`, done in slot `i` of primary `m`, is kept for the info of the other frame of its pair. -/
def tellOther (s : State) (n m i : Nat) (f : IspFrame) : State :=
  let p := getPipe s m
  if m = n then setPipe s m { p with fins := kvPut p.fins i f.asPartner }
  else
    let up (y : IspFrame) : IspFrame := if y.slot = some (m, i) then { y with partner := some f.asPartner } else y
    setPipe s m { p with cur := p.cur.map up, ended := p.ended.map up }

/-- R102, R288, R298, R311: a frame's last line is written: the flag update it owes is made, and its slot released. FROZEN of either
frame of a pair is kept in the slot (R535). -/
def finishFrame (s : State) (n : Nat) (f : IspFrame) : State :=
  let s := processFrame s n f
  match f.slot with
  | none => s
  | some (m, i) =>
    let x := getSlot s m i
    let s := tellOther (setSlot s m i { x with frozen := x.frozen || f.frozen }) n m i f
    let s := addFlags s n f.slot x.frame f.fstat
    let s := match slotGraph s m x with
      | some g =>
        let k := if m = n then 0 else 1
        if k < g.hdr.nflag then (flagUpdate s m i x.frame 0 (flagAddr g i k) true 1).1 else s
      | none => s
    dropRef (if m = n then raise s (ispBase n + 0x30) 0 else s) m i

/-! ### Frame starts (R54, R64, R284, R309, R310) -/

/-- R314: whether the low-rate path takes a frame that starts at `t`. -/
def takesThumb (s : State) (n t : Nat) : Bool :=
  let r := getN s (ispBase n + 0x4C)
  let ext := getN s (ispBase n + 0x54)
  bit 31 r && bits 2 0 r != 0 && decide (640 ≤ bits 13 0 ext ∧ 360 ≤ bits 29 16 ext) &&
    match (getPipe s n).lastThumb with
    | none => true
    | some l => decide (l + 1000000000 / bits 2 0 r ≤ t + 2000000)

/-- R62, R167, R284: a frame takes slot `i` of sequencer `m`. -/
def openSlot (s : State) (m c i : Nat) (g : Graph) (f : IspFrame) : State :=
  let q := getSeq s m
  let s := setSeq s m { q with nextOpen := (i + 1) % 4 }
  let s := setSlot s m i {
    st := .open_, ctx := c, stream := m, frame := f.frame, tstamp := f.tstamp, epoch := f.epoch,
    fflags := f.fstat % 32, sq := (getSlot s m i).sq, refs := 1, ref := f.tstamp,
    doom := if g.shed then some 0xA else none }
  openCopies s g i f.frame

/-- R310: the frame of partner pipeline `q` with time-stamp `t` given a slot of its primary, or none; one whose outputs
are ready is finished. -/
def setPartnerSlot (s : State) (q : Nat) (slot : Option (Nat × Nat)) (t : Nat) : State :=
  let p := getPipe s q
  let f (x : IspFrame) : IspFrame := if x.tstamp = t then { x with slot := slot } else x
  let ended := p.ended.map f
  let s := setPipe s q { p with cur := p.cur.map f, ended := ended.filter (fun x => !(x.written && x.tstamp == t)), hold := none }
  match ended.find? fun x => x.written && x.tstamp == t with
  | some x => finishFrame s q x
  | none => s

/-- R310: counted and signalled: a partner frame was dropped. -/
def pairDrop (s : State) (q : Nat) : State := raise (ispCount s q 5) (ispBase q + 0x30) 6

/-- R310: a primary frame that has taken slot `i` meets the partner frame that holds it. -/
def meetPartner (s : State) (m i t : Nat) : State :=
  match partnerOf s m with
  | none => s
  | some q =>
    match (getPipe s q).hold with
    | none => s
    | some (_, tq) =>
      if t - tq ≤ 1000 * bits 13 0 (cfg s m 0x1C) then
        let x := getSlot s m i
        setPartnerSlot (setSlot s m i { x with refs := x.refs + 1, paired := true }) q (some (m, i)) tq
      else pairDrop (setPartnerSlot s q none tq) q

/-- R54, R64: an accepted frame of primary or single pipeline `n` given a slot, skipped or dropped. A dropped one counts toward
DECIM (log entry 130). -/
def placeFrame (s : State) (n c : Nat) (g : Graph) (f : IspFrame) : State × IspFrame :=
  let q := getSeq s n
  let skip := decide (q.decim ≠ 0)
  let s := setSeq s n { q with decim := (q.decim + 1) % max 1 g.hdr.decim }
  let i := q.nextOpen
  if skip then (s, f)
  else if (getSlot s n i).st ≠ .free then (setSeq s n { getSeq s n with leaps := q.leaps + 1 }, f)
  else (openSlot s n c i g f, { f with slot := some (n, i) })

/-- R310: an accepted frame of partner pipeline `q` attached to a slot of its primary `m`, held, or dropped. -/
def placePartner (s : State) (q m : Nat) (f : IspFrame) : State × IspFrame :=
  let z := getSeq s m
  let i := (z.nextOpen + 3) % 4
  let x := getSlot s m i
  let w := 1000 * bits 13 0 (cfg s m 0x1C)
  let open_ := x.st == .open_ && !x.paired && !bit 4 x.fflags
  if open_ ∧ f.tstamp ≤ x.tstamp + w then
    (setSlot s m i { x with refs := x.refs + 1, paired := true }, { f with slot := some (m, i) })
  else if (getSlot s m z.nextOpen).st = .free ∧ (getPipe s q).hold.isNone then
    (setPipe s q { getPipe s q with hold := some (z.nextOpen, f.tstamp) }, f)
  else (pairDrop s q, f)

/-- R315: frame `index` of pipeline `n` starts in the clock of a commit, which counts as inside that frame, or of the end of a batch's
sensor writes, which counts as after the start. -/
def sameClock (s : State) (n index : Nat) : State :=
  let p := getPipe s n
  let ended (b : Batch) : Bool := b.tagged && b.done == some (now s)
  let up (b : Batch) : Batch :=
    if ended b then { b with effect := some (index + latchOf s n), late := true }
    else if ¬ b.tagged ∨ b.at_ ≠ now s then b
    else match b.phase with
      | .issued _ => { b with phase := .waiting }
      | .written => { b with effect := some (index + 1) }
      | .waiting => b
  ((p.batches.filter fun b => ended b && !b.late).foldl (fun s _ => raise (ispCount s n 9) (ispBase n + 0x30) 5)
    (setPipe s n { p with batches := p.batches.map up }))

/-- R284: a frame start at pipeline `n`. -/
def startFrame (s : State) (n : Nat) : State :=
  let s := endFrame s n true
  let m := pipeStream s n
  let s := dueEffects s m
  let p := getPipe s n
  let t := now s
  let index := p.starts
  let s := sameClock (setPipe s n { p with starts := index + 1 }) n index
  let s := showPending (applyBatches s n index 4) n
  let p := getPipe s n
  let thumb := takesThumb s n t
  let s := if thumb then setPipe s n { p with lastThumb := some t } else s
  let f : IspFrame := { index := index, tstamp := t, epoch := p.epoch, thumb := thumb, last := t,
                        expect := p.echo.getD 0, bank := activeBank s n }
  match runningGraph s m with
  | none => setPipe s n { getPipe s n with cur := some f }
  | some (c, g) =>
    let q := getSeq s n
    let tnr := getN s (ispBase n + 0x10214)
    let f := { f with acc := true, frame := q.frameCtr,
                      restart := p.restart || !bit 31 tnr || bit 30 tnr }
    let s := setSeq s n { q with frameCtr := (q.frameCtr + 1) % 2 ^ 32 }
    let s := setR (ispCount s n 0) (ispBase n + 0x210C) (reg p.epoch)
    let (s, f) := if p.setErr then setMismatch s n f else (s, f)
    let (s, f) := if m = n then placeFrame s n c g f else placePartner s n m f
    let s := setPipe s n { getPipe s n with cur := some f }
    let s := match f.slot with
      | some (k, i) => if k = n then meetPartner s n i t else s
      | none => s
    match s.clock.fromF with
    | some o =>
      if (List.range 16).find? (fun k => (runningGraph s k).isSome) = some n then moveForClass s o else s
    | none => s

/-- The frame in progress of pipeline `n` changed. -/
def onCur (s : State) (n : Nat) (g : IspFrame → IspFrame) : State :=
  let p := getPipe s n
  setPipe s n { p with cur := p.cur.map g }

/-- R287: a frame truncated at its first cause; the TRUNC bit enters its FFLAGS. -/
def truncate (s : State) (n cause : Nat) : State :=
  match (getPipe s n).cur with
  | some f =>
    if f.tcause ≠ 0 then s
    else addFlags (onCur s n fun f => { f with tcause := cause }) n f.slot (slotFrame s f) 4
  | none => s

/-- R281, R287: a packet with an uncorrectable header is discarded; it truncates the frames in progress of the port
(log entry 28). -/
def badHeader (s : State) (port : Nat) : State :=
  (List.range 16).foldl (fun s n =>
    let r := cfg s n 0x10
    if bit 31 r ∧ bits 25 24 r = port then truncate s n 3 else s) (portCount s port 1)

/-- R281: what the port does with a packet before any pipeline sees it; nothing arrives at a port that is not enabled (R316) or has
no power (R569). -/
def onPacket (s : State) (port : Nat) (h : Hdr) (f : State → State) : Res :=
  .next <| if ¬ pxcOn s ∨ ¬ flag s (ispBase port + 0x30000) 31 then s else match h with
  | .bad => badHeader s port
  | .corrected => f (portCount s port 0)
  | .ok => f s

/-- FRAME_START (R22, R23, R54, R55, R64, R281, R284, R310). -/
def execFrameStart (port vc : Nat) (h : Hdr) (s : State) : Res := onPacket s port h fun s =>
  if (owners s port vc).isEmpty then portCount s port 3
  else (owners s port vc).foldl startFrame (mapConf s port vc)

/-- FRAME_END (R285, R303). A frame end without a frame in progress does nothing. -/
def execFrameEnd (port vc : Nat) (h : Hdr) (s : State) : Res := onPacket s port h fun s =>
  if (owners s port vc).isEmpty then portCount s port 3
  else (owners s port vc).foldl (fun s n => endFrame s n false) s

/-- R285: lines between two frames. -/
def orphan (s : State) (n : Nat) : State := raise (ispCount s n 7) (ispBase n + 0x30) 7

/-- R286, R287: an image line of data type `dt` reaches the frame in progress of pipeline `n`. -/
def imageLine (s : State) (n port dt : Nat) (crcOk overflow : Bool) (l : List Byte) : State :=
  match (getPipe s n).cur with
  | none => orphan s n
  | some f =>
    let s := onCur s n fun f => { f with last := now s }
    if f.tcause ≠ 0 then (if crcOk then s else portCount s port 2)
    else if overflow then truncate s n 4
    else if l.length ≠ lineBytes (dt - 0x2A) (geomW s n) then truncate s n 1
    else if ¬ crcOk then truncate (portCount s port 2) n 2
    else if geomH s n ≤ f.lines.length then onCur s n fun f => { f with xlines := satN 0xFFFF (f.xlines + 1) }
    else onCur s n fun f => { f with lines := f.lines ++ [unpackLine (rawOf s n) l (geomW s n)] }

/-- IMAGE_LINE (R280, R281, R282, R286, R287). -/
def execImageLine (port vc dt : Nat) (h : Hdr) (crcOk overflow : Bool) (l : List Byte) (s : State) : Res :=
  onPacket s port h fun s =>
    match (List.range 16).filter fun n => selects s n port vc && imageType s n dt with
    | [] => portCount s port 3
    | n :: t => imageLine (t.foldl (fun s m => raise s (ispBase m + 0x30) 8) s) n port dt crcOk overflow l

/-- R306: an embedded line reaches the frame in progress of pipeline `n`: up to four are counted, and the one that
ISP_ECHO_LOC names is compared with the expected ECHO. -/
def embeddedLine (s : State) (n : Nat) (l : List Byte) : State :=
  match (getPipe s n).cur with
  | none => orphan s n
  | some f =>
    let s := onCur s n fun f => { f with last := now s, embedded := f.embedded + 1 }
    let loc := cfg s n 0x44
    if f.embedded ≠ bits 31 30 loc then s
    else match (getPipe s n).echo with
      | none => s
      | some want =>
        let b := slice l (bits 29 16 loc) 2
        let v := if bit 0 loc then leNat b else beNat b
        let s := onCur s n fun f => { f with echo := some v }
        if v = want then s
        else match (getPipe s n).cur with
          | some f =>
            let (s, f) := setMismatch s n f
            onCur s n fun _ => f
          | none => s

/-- EMBEDDED_LINE (R280, R281, R285, R306). -/
def execEmbeddedLine (port vc dt : Nat) (h : Hdr) (crcOk : Bool) (l : List Byte) (s : State) : Res :=
  onPacket s port h fun s =>
    let s := if crcOk then s else portCount s port 2
    match (owners s port vc).filter fun n => embeddedType s n dt with
    | [] => portCount s port 3
    | ns => ns.foldl (fun s n => embeddedLine s n l) s

/-- FRAME_TIMEOUT (R285): 100,000 µs without a packet end the frame in progress. -/
def execFrameTimeout (n : Nat) (s : State) : Res :=
  .next <| match (getPipe s n).cur with
  | some f => endFrame (advance s (f.last + 100000000)) n true
  | none => s

/-! ### Frames done (R288, R311) -/

/-- PIPELINE_FRAME_DONE (R102, R288, R298, R311): the oldest ended frame's last line is written. A partner's frame that
still holds a slot waits for its primary (R310). -/
def execPipelineFrameDone (n : Nat) (s : State) : Res :=
  let p := getPipe s n
  .next <| match p.ended.find? fun f => !f.written with
  | none => s
  | some f =>
    if p.hold.map Prod.snd = some f.tstamp then
      setPipe s n { p with ended := p.ended.map fun y => if y = f then { f with written := true } else y }
    else finishFrame (setPipe s n { p with ended := p.ended.erase f }) n f

/-- R311: the slots of primary `n` whose frames wait for a partner frame. -/
def unpairedSlots (s : State) (n : Nat) : List Nat :=
  (List.range 4).filter fun i =>
    let x := getSlot s n i
    x.st != .free && !x.paired && !bit 4 x.fflags

/-- PAIR_WINDOW_EXPIRY (R311): no partner frame has attached to the oldest frame of primary `n` that waits for one by t_p + W. The
command is the instant after t_p + W, at which a partner frame still pairs (R315, log entry 125). -/
def execPairWindowExpiry (n : Nat) (s : State) : Res :=
  .next <| match partnerOf s n with
  | none => s
  | some _ =>
    match (unpairedSlots s n).foldl (fun b i => match b with
      | some j => if (getSlot s n i).tstamp < (getSlot s n j).tstamp then some i else b
      | none => some i) none with
    | none => s
    | some i =>
      let x := getSlot s n i
      let s := advance s (x.tstamp + 1000 * bits 13 0 (cfg s n 0x1C) + 1)
      let s := ispCount s n 6
      let x := { x with fflags := x.fflags.lor 16 }
      let s := setSlot s n i x
      let p := getPipe s n
      let up (y : IspFrame) : IspFrame := if y.slot = some (n, i) then { y with unpaired := true } else y
      let s := setPipe s n { p with cur := p.cur.map up, ended := p.ended.map up }
      match slotGraph s n x with
      | some g => if 1 < g.hdr.nflag then (flagUpdate s n i x.frame 0 (flagAddr g i 1) true 1).1 else s
      | none => s

/-! ### Sensor-control commands (R299, R300) -/

/-- R300: whether a target on a master is the sensor of a pipeline whose graph is RUNNING. -/
def sensorBusy (s : State) (m addr : Nat) : Bool :=
  (List.range 16).any fun n => masterOf s n == m && sensorAddr s n == addr && (runningGraph s (pipeStream s n)).isSome

/-- SCM_WRITE (R299, R300): a direct write of `k` bytes; the data come from ISP_SCM_DATA. A GRAPH_START whose effective time has come
is in effect (R315). Nothing is sent while the master is not enabled. -/
def execScmWrite (secure : Bool) (m addr r k : Nat) (e : ScmEnd) (s : State) : Res :=
  .next <| hostAccess secure (unitWorld s (160 + m)) (ispBase m + 0x31004) s fun s =>
    if ¬ flag s (ispBase m + 0x31000) 31 then s
    else
      let s := (List.range 16).foldl dueEffects s
      if sensorBusy s m addr then setField s (ispBase m + 0x3100C) 7 0 3
      else scmRequest s m
        { op := 1, addr := addr, reg := r, len := k, data := getN s (ispBase m + 0x31008) % 2 ^ (8 * k), fate := e }

/-- SCM_READ (R299, R300): a direct read; `v` is what the sensor answers. -/
def execScmRead (secure : Bool) (m addr r k : Nat) (e : ScmEnd) (v : Reg) (s : State) : Res :=
  .next <| hostAccess secure (unitWorld s (160 + m)) (ispBase m + 0x31004) s fun s =>
    if ¬ flag s (ispBase m + 0x31000) 31 then s
    else scmRequest s m { op := 2, addr := addr, reg := r, len := k, fate := e, ans := v.toNat }

/-- ENTDAA (R299): a dynamic address assignment on an I3C master. On a master in I2C mode it is NACKed. -/
def execEntdaa (secure : Bool) (m : Nat) (e : ScmEnd) (s : State) : Res :=
  .next <| hostAccess secure (unitWorld s (160 + m)) (ispBase m + 0x31004) s fun s =>
    if ¬ flag s (ispBase m + 0x31000) 31 then s else scmRequest s m { op := 3, fate := e }

/-- IN_BAND_INTERRUPT (R299): NACKed and counted. -/
def execInBandInterrupt (m : Nat) (s : State) : Res :=
  .next { s with ibi := kvPut s.ibi m (kvGet (fun _ => 0) s.ibi m + 1) }

/-! ### Frame sync (R301) -/

/-- One frame-sync output, and one replaced. -/
def getFs (s : State) (k : Nat) : Fsync := kvGet (fun _ => {}) s.fsync k
def setFs (s : State) (k : Nat) (f : Fsync) : State := { s with fsync := kvPut s.fsync k f }

/-- R301: the first instant of a sequence that is at least 2 µs after now. -/
def nextInstant (s : State) (anchor period : Nat) : Nat :=
  anchor + cdiv (now s + 2000 - anchor) (max 1 period) * period

/-- R301: the next pulse of output `k` set, or the output held inactive with FSBAD while WIDTH does not fit PERIOD. -/
def fsArm (s : State) (k : Nat) : State :=
  let f := getFs s k
  let c := getN s (ispBase k + 0x32000)
  if ¬ bit 31 c then setFs s k { f with next_ := none }
  else if f.period ≤ 1000 * bits 15 0 c then raise (setFs s k { f with next_ := none }) (ispBase k + 0x30) 9
  else setFs s k { f with next_ := some (nextInstant s f.anchor f.period) }

/-- R301: EN of output `k` went from 0 to 1: the sequence is that of START, as it took effect, and PERIOD. -/
def fsEnable (s : State) (k : Nat) : State :=
  let f := getFs s k
  fsArm (setFs s k { start := f.start, anchor := f.start, period := getN s (ispBase k + 0x32004) }) k

/-- FSYNC_PULSE (R301): the pulse that is next; a PERIOD written since the last one applies from here. -/
def execFsyncPulse (k : Nat) (s : State) : Res :=
  let f := getFs s k
  .next <| match f.next_ with
  | none => s
  | some t =>
    if ¬ pxcOn s then s else
    let c := getN s (ispBase k + 0x32000)
    let s := emit (advance s t) (.fsync k t (bits 15 0 c) (bit 30 c))
    match f.later with
    | none => setFs s k { f with next_ := some (t + f.period) }
    | some p =>
      let s := setFs s k { f with anchor := t, period := p, next_ := some (t + p), later := none }
      if p ≤ 1000 * bits 15 0 c then fsArm s k else s

/-- R301: ISP_FS_START_HI written, so that START takes effect. -/
def fsStartWrite (k : Nat) (hi : Reg) (s : State) : State :=
  let s := setR s (ispBase k + 0x3200C) hi
  let f := getFs s k
  let start := getN s (ispBase k + 0x32008) + 2 ^ 32 * hi.toNat
  let s := setFs s k { f with start := start, anchor := start }
  if flag s (ispBase k + 0x32000) 31 then fsArm s k else s

/-- R301: PERIOD written: a value below 100,000 ns is ignored; while EN is 1 it applies after the next pulse, or at once
while the output is held inactive. -/
def fsPeriodWrite (k : Nat) (v : Reg) (s : State) : State :=
  if v.toNat < 100000 then s
  else
    let s := setR s (ispBase k + 0x32004) v
    let f := getFs s k
    if flag s (ispBase k + 0x32000) 31 ∧ f.next_.isSome then setFs s k { f with later := some v.toNat }
    else fsArm (setFs s k { f with period := v.toNat, later := none }) k

/-- R301: ISP_FS_CTL written; `old` is what it held. -/
def fsCtlWrite (k : Nat) (old : Reg) (s : State) : State :=
  let on := flag s (ispBase k + 0x32000) 31
  let f := getFs s k
  if on ∧ ¬ bit 31 old.toNat then fsEnable s k
  else if on ∧ f.next_.isSome ∧ 1000 * field s (ispBase k + 0x32000) 15 0 < f.period then s
  else fsArm s k

/-- FSYNC_START_WRITE (R301, R316). -/
def execFsyncStartWrite (secure : Bool) (k : Nat) (hi : Reg) (s : State) : Res :=
  .next <| hostAccess secure (unitWorld s (160 + k)) (ispBase k + 0x3200C) s (fsStartWrite k hi)

/-- FSYNC_PERIOD_WRITE (R301, R316). -/
def execFsyncPeriodWrite (secure : Bool) (k : Nat) (v : Reg) (s : State) : Res :=
  .next <| hostAccess secure (unitWorld s (160 + k)) (ispBase k + 0x32004) s (fsPeriodWrite k v)

end Sys2Proof.Machine
end

