-- ==== Sys2Proof/Machine/Codec.lean ====
section
/-!
DEFINITION. The codec (spec/17_record_and_replay.md): encode stages (R496 to R499), the record volume (R500 to R507), pins
(R508, R509), replay (R510 to R515), and the NVMe root port behind it (R648, R649). Log entries 32 to 36 name the model's
readings.
-/
namespace Sys2Proof.Machine

/-! ### Rings and the drive -/

/-- Ring `n`, and ring `n` replaced. -/
def getRing (s : State) (n : Nat) : Ring := kvGet (fun _ => {}) s.cdc.rings n
def setRing (s : State) (n : Nat) (r : Ring) : State :=
  { s with cdc := { s.cdc with rings := kvPut s.cdc.rings n r } }

/-- R518: the registers of ring `n`. -/
def recBase (n : Nat) : Nat := cdcBase + 0x1000 + 0x100 * n

/-- R502: the slot room of a ring. -/
def slotRoom (r : Ring) : Nat := r.slotLba * 4096 - 8192

/-- Block `b` of the drive. -/
def getBlock (s : State) (b : Nat) : List Byte := kvGet (fun _ => zeros 4096) s.cdc.drive b

/-- Bytes written to the drive from block `b` on, in whole blocks. -/
def putBlocks (s : State) (b : Nat) (l : List Byte) : State :=
  let n := cdiv l.length 4096
  let d := (List.range n).foldl (fun d i =>
    let x := slice l (4096 * i) 4096
    if x.all (· == 0) then kvDel d (b + i) else kvPut d (b + i) x) s.cdc.drive
  { s with cdc := { s.cdc with drive := d, bad := s.cdc.bad.filter fun x => !(decide (b ≤ x) && decide (x < b + n)) } }

/-- `n` bytes of the drive from byte `o` of block `b` on. -/
def readDrive (s : State) (b o n : Nat) : List Byte :=
  let k := o / 4096
  slice ((List.range (cdiv (o % 4096 + n) 4096)).flatMap fun i => getBlock s (b + k + i)) (o % 4096) n

/-- Whether a damaged block lies among the `n` bytes from byte `o` of block `b` on. -/
def driveBad (s : State) (b o n : Nat) : Bool :=
  s.cdc.bad.any fun x => decide (b + o / 4096 ≤ x ∧ x < b + cdiv (o + n) 4096)

/-- An NVMe command issued (R647, HIF_NV_CNT_CMD). -/
def nvmeIssue (s : State) (write : Bool) (lba : Nat) (l : List Byte) : State :=
  emit (inc s (hifBase + 0x110)) (.nvme write lba l)

/-- R503: `a` comes before `b` in the wrap order of segment numbers. -/
def seqBefore (a b : Nat) : Bool := a != b && decide ((b + 2 ^ 32 - a) % 2 ^ 32 < 2 ^ 31)

/-- R503: the segment number after `q`; it wraps to 1. -/
def nextSeq (q : Nat) : Nat := if q + 1 < 2 ^ 32 then q + 1 else 1

/-- R503: the 64 bytes of an index entry of ring `n`. -/
def IndexEnt.image (x : IndexEnt) (n : Nat) : List Byte :=
  withCrc (leBytes 2 0x40 ++ leBytes 1 (1 + 2 * b2n x.pinned + 4 * b2n x.short) ++ leBytes 1 n ++ leBytes 4 x.seq
    ++ leBytes 8 x.t0 ++ leBytes 8 x.t1 ++ leBytes 4 x.f0 ++ leBytes 2 x.nframe ++ leBytes 2 (satN 0xFFFF x.leap)
    ++ leBytes 4 x.bytes ++ zeros 4 ++ leBytes 8 (if x.pinned then x.pinTime else 0) ++ leBytes 8 x.written ++ zeros 4)

/-- R503: the index entry 64 bytes hold, when it is valid. -/
def entryOf (l : List Byte) : Option IndexEnt :=
  let f := leAt l 2 1
  if leAt l 0 2 = 0x40 ∧ bit 0 f ∧ leAt l 60 4 = crc32c (l.take 60) then
    some { seq := leAt l 4 4, t0 := leAt l 8 8, t1 := leAt l 16 8, f0 := leAt l 24 4, nframe := leAt l 28 2,
           leap := leAt l 30 2, bytes := leAt l 32 4, short := bit 2 f, pinned := bit 1 f, pinTime := leAt l 40 8,
           written := leAt l 48 8 }
  else none

/-- The index entry of a segment. -/
def RecSeg.entry (g : RecSeg) : IndexEnt :=
  { seq := g.seq, t0 := g.t0, t1 := (g.frames.getLast?.map RecFrame.tstamp).getD g.t0,
    f0 := (g.frames.head?.map RecFrame.frame).getD 0, nframe := g.frames.length, bytes := g.coded.length, short := g.short }

/-- R502: a frame-table entry. -/
def RecFrame.bytes (f : RecFrame) : List Byte :=
  withCrc (leBytes 4 f.frame ++ leBytes 8 f.tstamp ++ leBytes 2 f.epoch ++ leBytes 1 f.fstat ++ leBytes 1 f.ptype
    ++ leBytes 4 f.offset ++ leBytes 4 f.size ++ zeros 4)

/-- R502: the segment header block and the bitstream, as they stand in a slot of ring `n`. -/
def RecSeg.image (g : RecSeg) (n : Nat) : List Byte :=
  let h := withCrc (leBytes 2 0x41 ++ leBytes 1 n ++ leBytes 1 (b2n g.main10 + 2 * b2n g.short) ++ leBytes 4 g.seq
    ++ leBytes 8 g.t0 ++ leBytes 2 g.w ++ leBytes 2 g.h ++ leBytes 2 g.frames.length ++ zeros 2
    ++ leBytes 4 g.coded.length ++ leBytes 4 g.graph ++ zeros 28)
  slice (h ++ g.frames.flatMap RecFrame.bytes) 0 8192 ++ g.coded

/-- R505 step 4: the index block that holds entry `k` of ring `n`. -/
def indexBlock (r : Ring) (n k : Nat) : List Byte :=
  (List.range 64).flatMap fun i =>
    match r.index.find? fun p => p.1 == 64 * (k / 64) + i with
    | some p => p.2.image n
    | none => zeros 64

/-- The index block of entry `k` issued and written at once. -/
def writeIndex (s : State) (n k : Nat) : State :=
  let r := getRing s n
  let l := indexBlock r n k
  putBlocks (nvmeIssue s true (r.indexLba + k / 64) l) (r.indexLba + k / 64) l

/-- A diary entry of kinds 0x50 to 0x53 (R603). -/
def ringEntry (s : State) (kind n q : Nat) : State :=
  diary s kind 1 (unitWorld s 196) { stream := n, frame := q }

/-! ### Pins (R508, R509) -/

/-- R509: the slot that a new pin expires: the earliest PINTIME, the lower SEGSEQ among equal ones. -/
def oldestPin (r : Ring) : Option (Nat × IndexEnt) :=
  (r.index.filter fun p => p.2.pinned).foldl (fun acc p => match acc with
    | none => some p
    | some x => if p.2.pinTime < x.2.pinTime ∨ (p.2.pinTime = x.2.pinTime ∧ p.2.seq < x.2.seq) then some p else some x) none

/-- R509: slot `k` unpinned, its index block written. -/
def unpinSlot (s : State) (n k : Nat) : State :=
  let r := getRing s n
  match r.index.find? fun p => p.1 == k with
  | some p => writeIndex (setRing s n { r with index := kvPut r.index k { p.2 with pinned := false, pinTime := 0 } }) n k
  | none => s

/-- R508, R509: segment `q` of ring `n` pinned: at once, when it is written, or counted as missed. -/
def pinSeg (s : State) (n q : Nat) : State :=
  let r := getRing s n
  if (r.cur.map fun g => g.seq) = some q ∨ r.spool.any fun g => g.seq == q then
    setRing s n { r with pinLater := q :: r.pinLater.filter (· != q) }
  else match r.index.find? fun p => p.2.seq == q with
    | none => inc s (recBase n + 0x38)
    | some p =>
      if p.2.pinned then s
      else
        let s := if (r.index.filter fun x => x.2.pinned).length + 1 ≤ r.nslot / 4 then s
          else match oldestPin r with
            | some x => raise (ringEntry (inc (unpinSlot s n x.1) (recBase n + 0x2C)) 0x52 n x.2.seq) (cdcBase + 0x20) 5
            | none => s
        let r := getRing s n
        writeIndex (setRing s n { r with index := kvPut r.index p.1 { p.2 with pinned := true, pinTime := now s } }) n p.1

/-- Segment numbers going back from `q`. -/
def seqsBack : Nat → Nat → List Nat
  | 0, _ => []
  | n + 1, q => q :: seqsBack n (if q ≤ 1 then 2 ^ 32 - 1 else q - 1)

/-- R499: pin requests whose generations are dated take effect. -/
def applyPins (s : State) : State :=
  let due := s.cdc.pins.filter fun p => p.gens.all fun g => eff s g == 0
  let s := { s with cdc := { s.cdc with pins := s.cdc.pins.filter fun p => !p.gens.all fun g => eff s g == 0 } }
  due.foldl (fun s p => (seqsBack p.count p.seq).foldl (fun s q => pinSeg s p.ring q) s) s

/-! ### Encoding (R496 to R499, R504) -/

/-- A segment lost: counted by `a`, its interrupt raised, a pin that waited for it missed. -/
def loseSeg (s : State) (n a : Nat) (g : RecSeg) : State :=
  let s := raise (inc s (recBase n + a)) (cdcBase + 0x20) 2
  let r := getRing s n
  let s := if r.pinLater.contains g.seq then inc s (recBase n + 0x38) else s
  setRing s n { r with pinLater := r.pinLater.filter (· != g.seq), spool := r.spool.filter fun x => x.seq != g.seq }

/-- R200, R506: a packet that a lossy queue drops as it begins. -/
def dropPacket (s : State) (qid : Nat) : State :=
  let q := getQ s qid
  setQ s qid (recordDrop { q with seq := (q.seq + 1) % 2 ^ 32 } q.seq)

/-- R498, R504, R506: the open segment of a stream closed: it becomes a packet on its record-index queue, or is lost; the queue of
a ring in FAULT drops every packet. -/
def closeSeg (s : State) (n : Nat) : State :=
  let r := getRing s n
  match r.cur with
  | none => s
  | some g =>
    let s := setRing s n { r with cur := none }
    let s := if g.short then inc s (recBase n + 0x34) else s
    if ¬ g.spooled then
      let s := loseSeg s n 0x24 g
      let r := getRing s n
      setRing s n { r with leap := r.leap + 1 }
    else if r.st = 2 then
      loseSeg (dropPacket s (4032 + n)) n 0x24 g
    else match enqPacket s (4032 + n) 196 0 (bytesToWords (g.entry.image n)) with
      | (s, .taken) => let r := getRing s n; setRing s n { r with spool := r.spool ++ [g] }
      | (s, _) => loseSeg s n 0x24 g

/-- SEGMENT_CLOSE_TIMEOUT (R498): module time reaches the first time-stamp + 2,100,000,000 ns. -/
def execSegmentCloseTimeout (n : Nat) (s : State) : Res :=
  .next <| match (getRing s n).cur with
  | some g => closeSeg (advance s (g.t0 + 2100000000)) n
  | none => s

/-- R496: the checks of an encode block for a ring. -/
def encBlockOk (l : List Byte) (r : Ring) : Bool :=
  let prof := leAt l 2 1
  let rc := leAt l 3 1
  let qp := leAt l 4 1
  let qmax := leAt l 5 1
  let w := leAt l 8 2
  let h := leAt l 10 2
  let kbps := leAt l 12 4
  let pm := leAt l 16 4
  allOk [leAt l 0 2 == 9, decide (prof ≤ 1), decide (rc ≤ 1), decide (qp ≤ qmax), decide (qmax ≤ 51),
    decide (leAt l 6 1 ≤ 1), decide (leAt l 7 1 ≤ 15),
    decide (128 ≤ w ∧ w ≤ 8192), w % 8 == 0, decide (128 ≤ h ∧ h ≤ 8192), h % 8 == 0, decide (w * h ≤ 8388608),
    if rc = 0 then kbps == 0 else decide (64 ≤ kbps ∧ kbps ≤ 100000),
    decide (65536 ≤ pm ∧ pm ≤ 16777216), pm % 4096 == 0, r.st != 0 && decide (pm ≤ slotRoom r),
    rsv l 20 4, rsv l 52 12, leAt l 24 8 % 64 == 0, leAt l 32 4 % 64 == 0, leAt l 36 4 % 64 == 0,
    leAt l 40 8 % 64 == 0, leAt l 48 4 % 64 == 0, decide (w * (prof + 1) ≤ leAt l 36 4)]

/-- R498: whether the open segment closes before a picture, and whether for want of room. -/
def mustClose (r : Ring) (g : RecSeg) (t : Task) (main10 : Bool) (w h pm : Nat) : Bool × Bool :=
  let short := decide (slotRoom r - g.coded.length < pm)
  (decide (g.t0 + 2000000000 ≤ t.tstamp) || decide (252 ≤ g.frames.length) || short || g.main10 != main10
    || g.w != w || g.h != h || r.broken, short)

/-- R498, R504: the segment that takes the next picture: the open one, or one opened for it. -/
def segmentFor (s : State) (n : Nat) (t : Task) (main10 : Bool) (w h pm : Nat) : State × RecSeg :=
  let r := getRing s n
  let s := match r.cur with
    | some g =>
      let c := mustClose r g t main10 w h pm
      if c.1 then closeSeg (setRing s n { r with cur := some { g with short := c.2 } }) n else s
    | none => s
  let r := getRing s n
  match r.cur with
  | some g => (s, g)
  | none =>
    (setRing s n { r with nextSeq := nextSeq r.nextSeq },
      { seq := r.nextSeq, t0 := t.tstamp, main10 := main10, w := w, h := h,
        graph := ((getGraph s t.src t.ctx).map fun g => g.hdr.gid).getD 0, spooled := decide (r.spool.length < r.spoolN) })

/-- R496 to R499: the picture coded into the segment, and the pin its block asks for. -/
def encodePicture (s : State) (e : Nat) (t : Task) (fstat : Nat) : State :=
  let l := t.block
  let n := t.stream
  let pm := leAt l 16 4
  let (s, g) := segmentFor s n t (leAt l 2 1 == 1) (leAt l 8 2) (leAt l 10 2) pm
  let (s, u) := freshUse s
  let size := if g.spooled then Config.codedSize u % pm + 1 else 0
  let f : RecFrame := { frame := t.frame, tstamp := t.tstamp, epoch := t.epoch, fstat := fstat,
                        ptype := if g.frames.isEmpty then 0 else 1, offset := g.coded.length, size := size }
  let g := { g with frames := g.frames ++ [f], coded := g.coded ++ (List.range size).map (Config.codedByte u) }
  let r := getRing s n
  let s := inc (setRing s n { r with cur := some g, last := some t.frame, broken := false }) (cdcBase + 0x60)
  if leAt l 6 1 = 1 ∧ ¬ ((getTask s e).map Task.cancelled).getD false then
    applyPins { s with cdc := { s.cdc with pins := s.cdc.pins ++
      [{ gens := [t.gen, kvGet (fun _ => 0) s.ptags (t.pblk + 4)], ring := n, seq := g.seq, count := leAt l 7 1 + 1 }] } }
  else s

/-- R168, R685: rows read by the encoder: each as by dated work, so that a poisoned page is an error whatever was read before it;
the output takes the later of the inputs' generations. -/
def encodeRead (s : State) (sc : Bool) (gen : Nat) : List (Nat × Nat) → State × Except MemErr (List (List Byte) × Nat)
  | [] => (s, .ok ([], gen))
  | (a, n) :: t =>
    bindMem (unitRead s 196 sc 0 a n) fun s r =>
      let (s, g) := mergeGen s gen r.2
      bindMem (encodeRead s sc g t) fun s q => (s, .ok (r.1 :: q.1, q.2))

/-- ENCODE_STAGE (R496 to R499, R504): the encoder codes the picture of its stage. -/
def execEncodeStage (s : State) : Res :=
  let code (s : State) (e : Nat) (t : Task) (fstat : Nat) : State := encodePicture s e t fstat
  .next <| engineWork s 196 (memCode 5) code fun s _ t =>
    let l := t.block
    let r := getRing s t.stream
    let w := leAt l 8 2 * (leAt l 2 1 + 1)
    let h := leAt l 10 2
    let src := slotAddr l 24 32 t.slot
    let st := leAt l 36 4
    if ¬ (decide (t.stream < 16) && encBlockOk l r) then (s, .error (.inr (1, t.pblk)))
    else if (r.last.map fun x => decide ((t.frame + 2 ^ 32 - x - 1) % 2 ^ 32 < 2 ^ 31 - 1)) = some false then
      (s, .error (.inr (2, 0)))
    else
      mem (encodeRead s t.sc 0 (planeRows src st h w ++ planeRows (src + st * h) st (h / 2) w)) fun s p =>
        let outs (fstat : Nat) : List EngOut := [.hold, .finish fstat]
        if leAt l 40 8 = 0 then (s, .ok (outs 0, p.2))
        else mem (encodeRead s t.sc p.2 [(slotAddr l 40 48 t.slot, 64)]) fun s q =>
          (s, .ok (outs (leAt q.1.flatten 3 1 % 32), q.2))

/-! ### The record writer (R505, R506, R511) -/

/-- R505: PRIO of the graph that owns ring `n`'s queue. -/
def ringPrio (s : State) (n : Nat) : Nat :=
  max (((getGraph s n 0).map fun g => g.hdr.prio).getD 0) (((getGraph s n 1).map fun g => g.hdr.prio).getD 0)

/-- R505: the ring that is served next: the highest PRIO, then the lower stream. -/
def nextRing (s : State) : Option Nat :=
  ((List.range 16).filter fun n => (getRing s n).st == 1 &&
      decide (0 < packetsFor (getQ s (4032 + n)) (nth {} (getQ s (4032 + n)).recvs 0))).foldl (fun acc n =>
    match acc with
    | none => some n
    | some m => if ringPrio s m < ringPrio s n then some n else some m) none

/-- R505 step 1: the next slot after WP, in ring order, whose entry is not PINNED. -/
def nextSlot (r : Ring) : Nat :=
  let pins := (r.index.filter fun p => p.2.pinned).map Prod.fst
  (r.wp + (findFrom (fun i => !pins.contains ((r.wp + i) % r.nslot)) (pins.length + 1) 1).getD 1) % r.nslot

/-- R511, R515: one more segment lost to replay, in the leap marker on the feed. -/
def feedLeap (s : State) (q : Nat) : State :=
  let p := s.cdc.replay
  let m := match p.marker with
    | some (f, c) => (f, satN 0xFFFFFFFF (c + 1))
    | none => (q % 2 ^ 16, 1)
  { s with cdc := { s.cdc with replay := { p with marker := some m } } }

/-- R510, R511: the slot of the valid segment with the lowest SEGSEQ above `q`. -/
def slotAbove (r : Ring) (q : Nat) : Option Nat :=
  ((r.index.filter fun p => seqBefore q p.2.seq).foldl (fun (acc : Option (Nat × IndexEnt)) p => match acc with
    | none => some p
    | some x => if seqBefore p.2.seq x.2.seq then some p else some x) none).map Prod.fst

/-- R511: recording overtakes the rewind mark at slot `k`. -/
def overtake (s : State) (n k : Nat) : State :=
  let p := s.cdc.replay
  if p.ring ≠ n ∨ p.rm ≠ some k then s
  else match (getRing s n).index.find? fun x => x.1 == k with
    | none => s
    | some x =>
      let q := x.2.seq
      let s := { s with cdc := { s.cdc with replay := { p with rm := slotAbove (getRing s n) q, last := q } } }
      raise (ringEntry (inc (feedLeap s q) (recBase n + 0x28)) 0x51 n q) (cdcBase + 0x20) 4

/-- R510: whether a read of a slot is outstanding. -/
def reading (s : State) (n k : Nat) : Bool :=
  match s.cdc.replay.read with
  | some o => o.ring == n && o.slot == k
  | none => false

/-- RECORD_WRITE (R505, R511, R517): the writer serves one packet of a record-index queue: a leap marker counts in the
next entry; a segment's write to its slot is issued. It waits while that slot is being read. -/
def execRecordWrite (s : State) : Res :=
  .next <| if s.cdc.vol ≠ 1 ∨ ¬ s.hif.nv.up ∨ s.cdc.write.isSome then s
  else match nextRing s with
    | none => s
    | some n =>
      let k := nextSlot (getRing s n)
      if reading s n k then s
      else
        let (s, ws, leap) := deqPacket s (4032 + n) 196 0 9
        let b := packetBytes ws
        let r := getRing s n
        if leap then setRing s n { r with leap := r.leap + leAt b 0 4 }
        else match r.spool.find? fun g => g.seq == leAt b 4 4 with
          | none => s
          | some g =>
            let s := overtake s n k
            let r := getRing s n
            let s := setRing s n { r with index := kvDel r.index k }
            let s := nvmeIssue s true (r.dataLba + k * r.slotLba) (g.image n)
            { s with cdc := { s.cdc with write := some { ring := n, seg := g, slot := k, issued := now s } } }

/-- R505 steps 4 and 5: the index write is over: the entry counts, WP moves, the spool slot is free, and a pin that waited
takes effect. -/
def writeDone (s : State) (o : WriteOp) : State :=
  let r := getRing s o.ring
  let later := r.pinLater.contains o.seg.seq
  let r := { r with wp := o.slot, leap := 0, lostRow := 0, spool := r.spool.filter fun g => g.seq != o.seg.seq,
                    pinLater := r.pinLater.filter (· != o.seg.seq) }
  let s := inc (setRing s o.ring r) (recBase o.ring + 0x20)
  let s := putBlocks s (r.indexLba + o.slot / 64) (indexBlock r o.ring o.slot)
  let s := { s with cdc := { s.cdc with write := none } }
  if later then pinSeg s o.ring o.seg.seq else s

/-- The answer of the drive to the writer's command: the next command, or the end of the segment. -/
def writeOk (s : State) (o : WriteOp) : State :=
  let r := getRing s o.ring
  if o.index then writeDone s o
  else
    let s := putBlocks s (r.dataLba + o.slot * r.slotLba) (o.seg.image o.ring)
    let r := { r with index := kvPut r.index o.slot { o.seg.entry with leap := satN 0xFFFF r.leap, written := now s } }
    let s := setRing s o.ring r
    let s := nvmeIssue s true (r.indexLba + o.slot / 64) (indexBlock r o.ring o.slot)
    { s with cdc := { s.cdc with write := some { o with index := true, retried := false, issued := now s } } }

/-- R506: a ring enters FAULT. -/
def ringFault (s : State) (n q : Nat) : State :=
  let r := getRing s n
  raise (ringEntry (setRing s n { r with st := 2 }) 0x53 n q) (cdcBase + 0x20) 3

/-- R506: a write failed: it is issued once more, and then the segment is lost. -/
def writeFail (s : State) (o : WriteOp) : State :=
  let r := getRing s o.ring
  if ¬ o.retried then
    let s := if o.index then nvmeIssue s true (r.indexLba + o.slot / 64) (indexBlock r o.ring o.slot)
      else nvmeIssue s true (r.dataLba + o.slot * r.slotLba) (o.seg.image o.ring)
    { s with cdc := { s.cdc with write := some { o with retried := true, issued := now s } } }
  else
    let s := loseSeg s o.ring 0x30 o.seg
    let r := getRing s o.ring
    let s := setRing s o.ring { r with leap := r.leap + 1, lostRow := r.lostRow + 1, index := kvDel r.index o.slot }
    let s := ringEntry { s with cdc := { s.cdc with write := none } } 0x50 o.ring o.seg.seq
    if 8 ≤ r.lostRow + 1 then ringFault s o.ring o.seg.seq else s

/-! ### The record reader (R510, R514, R515) -/

/-- R515: a segment that cannot be read is skipped whole. -/
def skipSegment (s : State) (o : ReadOp) : State :=
  feedLeap { s with cdc := { s.cdc with replay := { s.cdc.replay with read := none } } } o.seq

/-- R502, R510, R515: the frames of the segment read, in frame-table order, up to the first damaged entry. -/
def readOk (s : State) (o : ReadOp) : State :=
  let r := getRing s o.ring
  let b := r.dataLba + o.slot * r.slotLba
  let hd := readDrive s b 0 8192
  if leAt hd 0 2 ≠ 0x41 ∨ leAt hd 60 4 ≠ crc32c (hd.take 60) ∨ driveBad s b 0 64 then skipSegment s o
  else
    let n := leAt hd 20 2
    let coded := readDrive s b 8192 (leAt hd 24 4)
    let ent (i : Nat) : List Byte := slice hd (64 + 32 * i) 32
    let good (i : Nat) : Bool :=
      leAt (ent i) 28 4 == crc32c ((ent i).take 28) && !driveBad s b (64 + 32 * i) 32
    let upTo := (findFrom (fun i => !good i) n 0).getD n
    let fs := (List.range upTo).map fun i =>
      let x := ent i
      ({ ring := o.ring, seq := leAt hd 4 4, index := i, frame := leAt x 0 4, tstamp := leAt x 4 8, epoch := leAt x 12 2,
         fstat := leAt x 14 1 % 32, main10 := bit 0 (leAt hd 3 1), w := leAt hd 16 2, h := leAt hd 18 2,
         coded := coded.take (leAt x 16 4 + leAt x 20 4),
         bad := decide (coded.length < leAt x 16 4 + leAt x 20 4) || driveBad s b (8192 + leAt x 16 4) (leAt x 20 4),
         recLeap := o.leap } : RepFrame)
    let p := s.cdc.replay
    { s with cdc := { s.cdc with replay := { p with read := none, frames := fs, skipped := p.skipped + (n - upTo) } } }

/-- A failed read is issued once more; then the segment is skipped (R506, R515, R649). -/
def readFail (s : State) (o : ReadOp) : State :=
  if o.retried then skipSegment s o
  else
    let r := getRing s o.ring
    let s := nvmeIssue s false (r.dataLba + o.slot * r.slotLba) []
    { s with cdc := { s.cdc with replay := { s.cdc.replay with read := some { o with retried := true, issued := now s } } } }

/-- R510, R512: the next frame of the segment read becomes an activation of SEQ 16, while fewer than four wait. -/
def deliverFrame (s : State) : State :=
  let p := s.cdc.replay
  match p.frames with
  | [] => s
  | f :: t =>
    if ¬ p.active ∨ 4 ≤ (getSeq s 16).acts.length then s
    else
      let first := f.index == 0
      let f := { f with leapSeg := if first then (p.marker.map Prod.snd).getD 0 else 0,
                        recLeap := if first then f.recLeap else 0, skipped := p.skipped, deliv := now s }
      let s := { s with cdc := { s.cdc with replay := { p with
        frames := t, skipped := 0, marker := if first then none else p.marker } } }
      activate s 16 { stream := f.ring, frame := f.frame, tstamp := f.tstamp, epoch := f.epoch,
                      fflags := f.fstat + 32, ready := now s, rep := some f }

/-- REPLAY_READ (R510): the reader delivers a frame of the segment it has read, or, with none left, issues the read of the
segment at RM and moves RM to the next one. -/
def execReplayRead (s : State) : Res :=
  let p := s.cdc.replay
  .next <| if ¬ p.active then s
  else if ¬ p.frames.isEmpty then deliverFrame s
  else if p.read.isSome ∨ s.cdc.vol ≠ 1 ∨ ¬ s.hif.nv.up then s
  else
    let r := getRing s p.ring
    match p.rm.orElse fun _ => slotAbove r p.last with
    | none => s
    | some k =>
      match r.index.find? fun x => x.1 == k with
      | none => s
      | some x =>
        let s := nvmeIssue s false (r.dataLba + k * r.slotLba) []
        { s with cdc := { s.cdc with replay := { p with
          rm := slotAbove r x.2.seq, last := x.2.seq,
          read := some { ring := p.ring, slot := k, seq := x.2.seq, leap := x.2.leap, issued := now s } } } }

/-! ### Decoding (R513 to R515) -/

/-- R513: the checks of a decode block. -/
def decBlockOk (l : List Byte) : Bool :=
  allOk [leAt l 0 2 == 10, rsv l 2 6, rsv l 36 28, leAt l 8 8 % 64 == 0, leAt l 16 4 % 64 == 0, leAt l 20 4 % 64 == 0,
    leAt l 24 8 % 64 == 0, leAt l 32 4 % 64 == 0]

/-- R514: the replay frame info. -/
def RepFrame.info (f : RepFrame) : List Byte :=
  withCrc (leBytes 2 0x12 ++ leBytes 1 f.ring ++ leBytes 1 f.fstat ++ leBytes 4 f.frame ++ leBytes 8 f.tstamp
    ++ leBytes 2 f.epoch ++ leBytes 2 f.h ++ leBytes 2 f.w ++ leBytes 2 f.index ++ leBytes 4 f.seq
    ++ leBytes 4 f.leapSeg ++ leBytes 2 f.recLeap ++ leBytes 2 (satN 0xFFFF f.skipped) ++ leBytes 8 f.deliv ++ zeros 16)

/-- Whether the decoder holds the reference of a frame: an IDR needs none (R493). -/
def hasRef (s : State) (f : RepFrame) : Bool :=
  f.index == 0 || s.cdc.replay.ref == some (f.ring, f.seq, f.index - 1)

/-- The picture of a stage decoded: the decoder's reference, and the count of R518. -/
def decoded (s : State) (_ : Nat) (t : Task) (_ : Nat) : State :=
  let s := match (getSlot s t.src t.slot).rep with
    | some f => { s with cdc := { s.cdc with replay := { s.cdc.replay with ref := some (f.ring, f.seq, f.index) } } }
    | none => s
  inc s (cdcBase + 0x64)

/-- DECODE_STAGE (R513 to R515): the decoder decodes the replayed frame of its slot into its surface. -/
def execDecodeStage (s : State) : Res :=
  .next <| engineWork s 197 (memCode 5) decoded fun s _ t =>
    let l := t.block
    if ¬ decBlockOk l then (s, .error (.inr (1, t.pblk)))
    else match (getSlot s t.src t.slot).rep with
      | none => (s, .error (.inr (8, 0)))
      | some f =>
        let w := f.w * (b2n f.main10 + 1)
        let st := leAt l 20 4
        if st < w ∨ leAt l 16 4 < st * 3 * f.h / 2 then (s, .error (.inr (3, 0)))
        else if f.bad then (s, .error (.inr (8, 0)))
        else
          let (s, u) := freshUse s
          let px (i : Nat) : Byte := if hasRef s f then Config.decodedByte f.coded i else Config.freeByte u i
          let dst := slotAddr l 8 16 t.slot
          let rows := (List.range (f.h + f.h / 2)).map fun y => (dst + y * st, (List.range w).map fun x => px (y * w + x))
          let info := if leAt l 24 8 = 0 then [] else [(slotAddr l 24 32 t.slot, f.info)]
          (s, .ok (rowOuts (rows ++ info) ++ [.finish 0], 0))

/-! ### The volume (R500, R501, R507) -/

/-- R501: the ring that entry `n` of a header describes, when it is VALID. -/
def headerRing (l : List Byte) (n : Nat) : Option Ring :=
  let o := 64 + 32 * n
  if bit 0 (leAt l o 1) then
    some { st := 1, spoolN := leAt l (o + 1) 1, slotLba := leAt l (o + 2) 2, nslot := leAt l (o + 4) 4,
           indexLba := leAt l (o + 8) 8, dataLba := leAt l (o + 16) 8 }
  else none

/-- R501: blocks of the index area of a ring. -/
def indexBlocks (r : Ring) : Nat := cdiv r.nslot 64

/-- R500: a copy of the volume header whose CRC passes. -/
def headerCopy (s : State) (b : Nat) : Option (List Byte) :=
  let l := getBlock s b
  if leAt l 4092 4 = crc32c (l.take 4092) ∧ ¬ s.cdc.bad.contains b then some l else none

/-- R507: the index entries of a ring as the drive holds them: those whose CRC and whose segment header's CRC pass. -/
def readIndex (s : State) (r : Ring) : List (Nat × IndexEnt) :=
  let blocks := s.cdc.drive.filter fun p => decide (r.indexLba ≤ p.1 ∧ p.1 < r.indexLba + indexBlocks r)
  (blocks.filter fun p => !s.cdc.bad.contains p.1).flatMap fun p =>
    (List.range 64).filterMap fun i =>
      let k := 64 * (p.1 - r.indexLba) + i
      let b := r.dataLba + k * r.slotLba
      let h := readDrive s b 0 64
      if k < r.nslot ∧ leAt h 60 4 = crc32c (h.take 60) ∧ ¬ driveBad s b 0 64 then
        (entryOf (slice p.2 (64 * i) 64)).map fun x => (k, x)
      else none

/-- R507: a ring mounted: WP and the next SEGSEQ from its index; what the module still holds of the ring carries on. -/
def mountRing (s : State) (n : Nat) (h : Ring) : State :=
  let ix := readIndex s h
  let top := ix.foldl (fun (acc : Option (Nat × IndexEnt)) p => match acc with
    | none => some p
    | some x => if seqBefore x.2.seq p.2.seq then some p else some x) none
  let found := (top.map fun p => nextSeq p.2.seq).getD 1
  let old := getRing s n
  let same := old.st != 0 && old.slotLba == h.slotLba && old.nslot == h.nslot
  let base := if same then { old with st := 1, lostRow := 0 } else h
  let q := if same && seqBefore found old.nextSeq then old.nextSeq else found
  let s := setRing s n { base with spoolN := h.spoolN, indexLba := h.indexLba, dataLba := h.dataLba, index := ix,
                                   wp := (top.map Prod.fst).getD (h.nslot - 1), nextSeq := q }
  let qq := getQ s (4032 + n)
  if qq.cfg.valid then setQ s (4032 + n) { qq with cfg := { qq.cfg with depth := h.spoolN - 1 } }
  else setQ s (4032 + n) { cfg := { valid := true, world := unitWorld s 196, out := true, mode := .lossy, sys := true,
                                    depth := h.spoolN - 1, maxpkt := 1 }, recvs := [{}] }

/-- R507: the volume mounted: the answer is RESULT of R518. -/
def mountVolume (s : State) : State × Nat :=
  match (headerCopy s 0).orElse fun _ => headerCopy s 1 with
  | none => ({ s with cdc := { s.cdc with vol := 2 } }, 2)
  | some l =>
    let s := (List.range 16).foldl (fun s n => match headerRing l n with
      | some h => mountRing s n h
      | none => setRing s n { getRing s n with st := 0, cur := none, spool := [], index := [] }) s
    ({ s with cdc := { s.cdc with vol := 1 } }, 0)

/-- R501: the areas of a header: first block and length. -/
def headerAreas (l : List Byte) : List (Nat × Nat) :=
  (0, 2) :: ((List.range 16).filterMap (headerRing l)).flatMap fun r =>
    [(r.indexLba, indexBlocks r), (r.dataLba, r.nslot * r.slotLba)]

/-- Whether no two areas of a list overlap. -/
def disjoint : List (Nat × Nat) → Bool
  | [] => true
  | a :: t => (t.all fun b => decide (a.1 + a.2 ≤ b.1 ∨ b.1 + b.2 ≤ a.1)) && disjoint t

/-- R500, R501: the checks of a header image. -/
def headerOk (l : List Byte) : Bool :=
  let rings := (List.range 16).filterMap (headerRing l)
  allOk [slice l 0 4 == [0x4B, 0x52, 0x56, 0x31], leAt l 4 2 == 1, rsv l 6 2, rsv l 16 48, rsv l 576 3516,
    leAt l 4092 4 == crc32c (l.take 4092),
    (List.range 16).all fun n => decide (leAt l (64 + 32 * n) 1 ≤ 1) && rsv l (64 + 32 * n + 24) 8,
    rings.all fun r => decide (2 ≤ r.spoolN ∧ r.spoolN ≤ 8 ∧ 16 ≤ r.slotLba ∧ 8 ≤ r.nslot ∧ r.nslot ≤ 2 ^ 31),
    disjoint (headerAreas l), (headerAreas l).all fun a => decide (a.1 + a.2 ≤ Config.nvmeBlocks),
    decide (sumN (rings.map fun r => r.spoolN * r.slotLba * 4096) ≤ 2 ^ 30)]

/-! ### Commands of CDC_CMD (R518) -/

/-- RESULT in CDC_CMD_STATUS, with CMDDONE. -/
def cdcResult (s : State) (r : Nat) : State := raise (setR s (cdcBase + 0x44) (reg r)) (cdcBase + 0x20) 0

/-- R518: a command from a world with the arguments that stand in CDC_ARG0 to CDC_ARG3: discarded while one runs, refused from the
wrong world. -/
def cdcCmd (secure : Bool) (args : List Nat) (s : State) (f : State → State) : State :=
  hostAccess secure false (cdcBase + 0x40) s fun s =>
    let s := args.zipIdx.foldl (fun s p => setR s (cdcBase + 0x48 + 4 * p.2) (reg p.1)) s
    if flag s (cdcBase + 0x44) 31 then setField s (cdcBase + 0x44) 7 0 3
    else if secure ≠ unitWorld s 196 then cdcResult s 5
    else f s

/-- R518: whether a RUNNING graph encodes to ring `n`. -/
def encodesTo (s : State) (n : Nat) : Bool :=
  [0, 1].any fun c => match getGraph s n c with
    | some g => g.st == .running && g.lines.any fun l => l.type == 8 && l.inst == 0
    | none => false

/-- MOUNT (R507, R649): the volume is mounted; with the port down the bring-up is tried again first. -/
def execMount (secure : Bool) (s : State) : Res :=
  .next <| cdcCmd secure [] s fun s =>
    if s.cdc.replay.active then cdcResult s 3
    else if s.hif.nv.up then let (s, r) := mountVolume s; cdcResult s r
    else setR { s with hif := { s.hif with nv := { s.hif.nv with bring := true } },
                       cdc := { s.cdc with mounting := true } } (cdcBase + 0x44) (reg (2 ^ 31))

/-- FORMAT (R500, R501): a header image in DRAM is checked and written to both copies, and the index areas are cleared;
the volume is mounted by MOUNT. -/
def execFormat (secure : Bool) (addr : Nat) (s : State) : Res :=
  .next <| cdcCmd secure [addr % 2 ^ 32, addr / 2 ^ 32] s fun s =>
    if s.cdc.replay.active then cdcResult s 3
    else if (List.range 16).any (encodesTo s) then cdcResult s 4
    else if ¬ s.hif.nv.up then cdcResult s 6
    else if spaceOf addr ≠ .dram then cdcResult s 1
    else match unitRead s 196 false 0 addr 4096 with
      | (s, .error _) => cdcResult s 1
      | (s, .ok (l, _)) =>
        if ¬ headerOk l then cdcResult s 1
        else
          let s := putBlocks (putBlocks (nvmeIssue (nvmeIssue s true 0 l) true 1 l) 0 l) 1 l
          let rs := (List.range 16).filterMap (headerRing l)
          let d := s.cdc.drive.filter fun p =>
            rs.all fun r => !(decide (r.indexLba ≤ p.1) && decide (p.1 < r.indexLba + indexBlocks r))
          let s := { s with cdc := { s.cdc with vol := 0, rings := [], drive := d } }
          cdcResult s 0

/-- A command that names a ring: refused without a volume or a valid ring. -/
def onRing (s : State) (n : Nat) (f : State → State) : State :=
  if s.cdc.vol ≠ 1 then cdcResult s 2
  else if 16 ≤ n ∨ (getRing s n).st = 0 then cdcResult s 1
  else f s

/-- Segment numbers going forward from `q`. -/
def seqsFrom : Nat → Nat → List Nat
  | 0, _ => []
  | n + 1, q => q :: seqsFrom n (nextSeq q)

/-- The segments of a ring that a first SEGSEQ and a count name: those held, and how many named are not. -/
def namedSegs (r : Ring) (q count : Nat) : List Nat × Nat :=
  let all := r.index.map (fun p => p.2.seq) ++ r.spool.map (fun g => g.seq) ++ r.cur.toList.map fun g => g.seq
  let held := sortL (all.filter fun x => decide ((x + 2 ^ 32 - q) % 2 ^ 32 < count))
    fun a b => decide ((a + 2 ^ 32 - q) % 2 ^ 32 ≤ (b + 2 ^ 32 - q) % 2 ^ 32)
  (held, count - held.length)

/-- PIN (R508, R509). -/
def execPin (secure : Bool) (n q count : Nat) (s : State) : Res :=
  .next <| cdcCmd secure [n, q, count] s fun s => onRing s n fun s =>
    let x := namedSegs (getRing s n) q count
    cdcResult (incBy (x.1.foldl (fun s q => pinSeg s n q) s) (recBase n + 0x38) x.2) 0

/-- UNPIN (R509). -/
def execUnpin (secure : Bool) (n q count : Nat) (s : State) : Res :=
  .next <| cdcCmd secure [n, q, count] s fun s => onRing s n fun s =>
    let x := namedSegs (getRing s n) q count
    let r := getRing s n
    let s := setRing s n { r with pinLater := r.pinLater.filter fun y => !x.1.contains y }
    let ks := (r.index.filter fun p => p.2.pinned && x.1.contains p.2.seq).map Prod.fst
    cdcResult (ks.foldl (fun s k => unpinSlot s n k) s) 0

/-- REPLAY_START (R510, R517). -/
def execReplayStart (secure : Bool) (n q : Nat) (s : State) : Res :=
  .next <| cdcCmd secure [n, q] s fun s => onRing s n fun s =>
    if s.cdc.replay.active then cdcResult s 3
    else
      let r := getRing s n
      let at_ := if q = 0xFFFFFFFF then
          r.index.foldl (fun (acc : Option (Nat × IndexEnt)) p => match acc with
            | none => some p
            | some x => if seqBefore p.2.seq x.2.seq then some p else some x) none
        else r.index.find? fun p => p.2.seq == q
      match at_ with
      | none => cdcResult s 1
      | some p =>
        let o := s.cdc.replay
        cdcResult { s with cdc := { s.cdc with replay :=
          { active := true, ring := n, rm := some p.1, last := p.2.seq, read := o.read, ref := none } } } 0

/-- R517: replay stops: pending activations are discarded; RM stays. -/
def replayStop (s : State) : State :=
  let s := setSeq s 16 { getSeq s 16 with acts := [] }
  { s with sched := { s.sched with acts := s.sched.acts.filter fun p => p.1 != 16 },
           cdc := { s.cdc with replay := { s.cdc.replay with active := false, frames := [], marker := none, skipped := 0 } } }

/-- REPLAY_STOP (R517). -/
def execReplayStop (secure : Bool) (s : State) : Res :=
  .next <| cdcCmd secure [] s fun s => cdcResult (replayStop s) 0

/-- RING_CLEAR (R506). -/
def execRingClear (secure : Bool) (n : Nat) (s : State) : Res :=
  .next <| cdcCmd secure [n] s fun s => onRing s n fun s =>
    if encodesTo s n then cdcResult s 4
    else cdcResult (setRing s n { getRing s n with st := 1, lostRow := 0 }) 0

/-! ### The NVMe root port (R506, R648, R649) -/

/-- R649: a command that failed: counted, and retried or given up. -/
def nvmeFail (s : State) (read : Bool) : State :=
  let s := inc (inc s (cdcBase + 0x6C)) (hifBase + 0x114)
  if read then match s.cdc.replay.read with
    | some o => readFail s o
    | none => s
  else match s.cdc.write with
    | some o => writeFail s o
    | none => s

/-- When the outstanding read or write was issued. -/
def nvmeIssued (s : State) (read : Bool) : Option Nat :=
  if read then s.cdc.replay.read.map ReadOp.issued else s.cdc.write.map WriteOp.issued

/-- NVME_COMMAND_TIMEOUT (R506, R649). -/
def execNvmeCommandTimeout (read : Bool) (s : State) : Res :=
  .next <| match nvmeIssued s read with
  | some t => nvmeFail (inc (advance s (t + 1000000 * field s (cdcBase + 0x4) 15 0)) (hifBase + 0x118)) read
  | none => s

/-- NVME_COMMAND_COMPLETE (R505, R506, R649): the outstanding read or write completes, with status zero or not. -/
def execNvmeCommandComplete (read ok : Bool) (s : State) : Res :=
  .next <| if (nvmeIssued s read).isNone then s
  else if ¬ ok then nvmeFail s read
  else if read then match s.cdc.replay.read with
    | some o => if s.cdc.replay.active then readOk s o
      else { s with cdc := { s.cdc with replay := { s.cdc.replay with read := none } } }
    | none => s
  else match s.cdc.write with
    | some o => writeOk s o
    | none => s

/-- NVME_CONTROLLER_FATAL (R649): the port resets the controller and brings it up once. -/
def execNvmeControllerFatal (s : State) : Res :=
  .next <| if ¬ s.hif.nv.up then s
  else { setR s (hifBase + 0x100) 0 with hif := { s.hif with nv := { s.hif.nv with up := false, bring := true, fatal := true } } }

/-- R649: the retry of the bring-up has failed: every ring enters FAULT and the port is down. -/
def nvmeDown (s : State) : State :=
  let s := ((List.range 16).filter fun n => (getRing s n).st != 0).foldl (fun s n => ringFault s n 0) s
  let s := { s with cdc := { s.cdc with vol := 0 } }
  raise (diary s Config.nvmeKind.toNat 2 (unitWorld s 196) { unit := 196 }) (hifBase + 0x10) 2

/-- NVME_BRINGUP (R648, R649): the bring-up in progress ends, well or not; the link has trained to a width and speed. -/
def execNvmeBringup (ok : Bool) (width speed : Nat) (s : State) : Res :=
  .next <| if ¬ s.hif.nv.bring then s
  else
    let s := setR s (hifBase + 0x100) (if ok then reg (2 ^ 31 + width % 16 * 2 ^ 16 + speed % 8) else 0)
    let fatal := s.hif.nv.fatal
    let cmd := s.cdc.mounting
    let s := { s with hif := { s.hif with nv := { s.hif.nv with up := ok, bring := false, fatal := false } },
                      cdc := { s.cdc with mounting := false }, pins := { s.pins with nvPerstN := true } }
    if ok then
      if ¬ cmd ∧ s.cdc.vol ≠ 0 then s
      else
        let (s, r) := mountVolume s
        if cmd then cdcResult s r else s
    else
      let s := if fatal then nvmeDown s else { s with cdc := { s.cdc with vol := 2 } }
      if cmd then cdcResult s 6 else s

end Sys2Proof.Machine
end

