-- ==== Sys2Proof/Machine/Checker.lean ====
section
/-!
DEFINITION. The plausibility checker and dating (spec/18_checker_and_safety.md, R103 to R106, R163, R176): rule tables,
frame and record units, the commit of a frame, lantern frames, and the audit's comparison. Log entries 37 and 38 name the
model's readings.
-/
namespace Sys2Proof.Machine

/-! ### Rule tables (R523 to R526) -/

/-- R523: whether `n` bytes at an address lie wholly in secure DRAM regions. -/
def secureDram (s : State) (a n : Nat) : Bool :=
  decide (a + n ≤ Config.dramBytes) && (pagesOf a n).all fun p => match regionOf s.fwl.dram p with
    | some (_, r) => bit 29 r.flags.toNat
    | none => false

/-- R525: the width of an operand of a VTYPE. -/
def opWidth (v : Nat) : Nat := if v = 0 then 1 else if v = 1 ∨ v = 3 then 2 else 4

/-- R526: the checks of rule `j` of a table with `nrr` record rules. -/
def ruleOk (l : List Byte) (nrr j : Nat) : Bool :=
  let o := 64 + 32 * j
  let rt := leAt l o 1
  let vt := leAt l (o + 1) 1
  let src := leAt l (o + 2) 1
  let fl := leAt l (o + 3) 1
  let offb := leAt l (o + 6) 2
  let frame := decide (nrr ≤ j)
  let size := if frame then 64 else 128
  let w := if rt = 3 then 8 else opWidth vt
  allOk [decide (1 ≤ rt ∧ rt ≤ 5), decide (vt ≤ 5), decide (fl ≤ 3), rsv l (o + 24) 8,
    if frame then decide (1 ≤ src ∧ src ≤ 5) && fl % 2 == 0 && (src == 5 || leAt l (16 + 8 * (src - 1)) 2 != 0xFFFF)
      else src == 0 && rt != 4,
    fl % 2 == 0 || decide (leAt l (o + 8) 2 ≤ leAt l (o + 10) 2),
    decide (leAt l (o + 4) 2 + w ≤ size),
    if rt = 2 then decide (offb + w ≤ size) else if rt = 4 then decide (offb < 8) else offb == 0,
    rt == 3 || rt == 4 || leAt l (o + 20) 4 == 0, rt != 3 || vt == 1, rt != 5 || vt != 5]

/-- R526: whether LOAD takes an image. -/
def tableOk (l : List Byte) : Bool :=
  let nrr := leAt l 2 1
  let n := nrr + leAt l 3 1
  let deltas := ((List.range n).filter fun j => leAt l (64 + 32 * j) 1 == 4).map fun j => leAt l (64 + 32 * j + 6) 2
  allOk [leAt l 0 2 == 0x50, decide (n ≤ 16), rsv l 8 8, rsv l 48 8, leAt l 60 4 == crc32c (l.take 60),
    leAt l 56 4 == crc32c (slice l 64 (32 * n)),
    (List.range 4).all fun i => leAt l (16 + 8 * i) 2 == 0xFFFF || leAt l (20 + 8 * i) 4 % 64 == 0,
    (List.range n).all (ruleOk l nrr), decide deltas.Nodup]

/-- RESULT in CHK_CMD_STATUS, with CMDDONE. -/
def chkResult (s : State) (r : Nat) : State := raise (setR s (chkBase + 0x24) (reg r)) (chkBase + 0x10) 0

/-- The address in CHK_ARG. -/
def chkArg (s : State) : Nat := getN s (chkBase + 0x28) + 2 ^ 32 * getN s (chkBase + 0x2C)

/-- R523, R526: the RESULT of a LOAD, and the table where it is taken. -/
def loadTable (s : State) (a : Nat) : Nat ⊕ List Byte :=
  if a % 64 ≠ 0 ∨ ¬ secureDram s a 64 then .inl 2
  else
    let n := leAt (peek s a 64) 2 1 + leAt (peek s a 64) 3 1
    if 16 < n then .inl 1
    else if ¬ secureDram s a (64 + 32 * n) then .inl 2
    else
      let l := peek s a (64 + 32 * n)
      if tableOk l then .inr l else .inl 1

/-- LOAD (R523, R526): CHK_CMD OP 1, written by an initiator of a world. -/
def execLoad (secure : Bool) (t : Nat) (s : State) : Res :=
  .next <| hostAccess secure true (chkBase + 0x20) s fun s =>
  if flag s (chkBase + 0x8) 0 then chkResult s 4
  else match loadTable s (chkArg s) with
    | .inl r => chkResult s r
    | .inr l => chkResult { s with chk := { s.chk with rules := kvPut s.chk.rules t l } } 0

/-- DROP (R523): CHK_CMD OP 2. -/
def execDrop (secure : Bool) (t : Nat) (s : State) : Res :=
  .next <| hostAccess secure true (chkBase + 0x20) s fun s =>
  if flag s (chkBase + 0x8) 0 then chkResult s 4
  else chkResult { s with chk := { s.chk with rules := kvDel s.chk.rules t } } 0

/-! ### One rule (R527 to R530) -/

/-- R527: an operand: an exact integer, or an FP32 code. -/
inductive RuleVal where
  | int (i : Int)
  | fp (c : Nat)
  deriving DecidableEq, Repr

/-- R525, R527: the operand of VTYPE `v` at an offset. -/
def ruleOperand (v : Nat) (l : List Byte) (o : Nat) : RuleVal :=
  let x := leAt l o (opWidth v)
  if v = 5 then .fp x else if v = 3 ∨ v = 4 then .int (sext (8 * opWidth v) x) else .int x

/-- R525: LO, HI or a history word of 32 bits in the operand's type. -/
def ruleBound (v x : Nat) : RuleVal := if v = 5 then .fp x else if v = 3 ∨ v = 4 then .int (sext 32 x) else .int x

/-- R530: the 32 bits by which a history word holds an operand. -/
def RuleVal.word : RuleVal → Nat
  | .int i => wrap 32 i
  | .fp c => c

/-- R527: a difference: exact, or rounded once. -/
def RuleVal.sub : RuleVal → RuleVal → RuleVal
  | .int a, .int b => .int (a - b)
  | .fp a, .fp b => .fp (f32sub a b)
  | _, b => b

/-- The magnitude of a value. -/
def RuleVal.abs : RuleVal → RuleVal
  | .int a => .int a.natAbs
  | .fp a => .fp (a % 2 ^ 31)

/-- R529: an FP32 NaN. -/
def RuleVal.nan : RuleVal → Bool
  | .int _ => false
  | .fp a => (FFmt.fp32.dec a).isNan

/-- R529: `a ≤ b`; infinities compare as ordered values. -/
def RuleVal.le : RuleVal → RuleVal → Bool
  | .int a, .int b => decide (a ≤ b)
  | .fp a, .fp b => !(FFmt.fp32.dec a).isNan && !(FFmt.fp32.dec b).isNan && !(FFmt.fp32.dec b).lt (FFmt.fp32.dec a)
  | _, _ => false

/-- R529: a comparison, NAN where a value it uses is a NaN and NANPASS is not set: its verdict code. -/
def compared (nanpass : Bool) (vals : List RuleVal) (ok : Bool) (code : Nat) : Nat :=
  if vals.any RuleVal.nan then (if nanpass then 0 else 6) else if ok then 0 else code

/-- R528 to R530: the verdict code of rule `j` of a table over its source, with the history word a DELTA rule names. -/
def judgeRule (tbl : List Byte) (j : Nat) (src : List Byte) (frame : Nat) (hist : Nat → Option (Nat × Nat)) : Nat :=
  let o := 64 + 32 * j
  let rt := leAt tbl o 1
  let vt := leAt tbl (o + 1) 1
  let fl := leAt tbl (o + 3) 1
  let oa := leAt tbl (o + 4) 2
  let ob := leAt tbl (o + 6) 2
  let lo := ruleBound vt (leAt tbl (o + 12) 4)
  let hi := ruleBound vt (leAt tbl (o + 16) 4)
  let k := leAt tbl (o + 20) 4
  let a := ruleOperand vt src oa
  let np := bit 1 fl
  if bit 0 fl ∧ ¬ (leAt tbl (o + 8) 2 ≤ leAt src 24 2 ∧ leAt src 24 2 ≤ leAt tbl (o + 10) 2) then 0
  else if rt = 1 then compared np [a, lo, hi] (lo.le a && a.le hi) 1
  else if rt = 2 then
    let d := a.sub (ruleOperand vt src ob)
    compared np [a, ruleOperand vt src ob, d, lo, hi] (lo.le d && d.le hi) 2
  else if rt = 3 then
    let c (i : Nat) : Nat := leAt src (oa + 2 * i) 2
    if c 0 < c 2 ∧ c 2 ≤ leAt tbl (o + 12) 4 ∧ c 1 < c 3 ∧ c 3 ≤ leAt tbl (o + 16) 4
      ∧ k ≤ (c 2 - c 0) * (c 3 - c 1) then 0 else 3
  else if rt = 4 then match hist ob with
    | none => 0
    | some (h, hf) =>
      if k < (frame + 2 ^ 32 - hf) % 2 ^ 32 then 0
      else
        let d := a.sub (ruleBound vt h)
        compared np [a, ruleBound vt h, d, lo] (d.abs.le lo) 4
  else match a, lo, hi with
    | .int x, .int m, .int v => if (wrap 64 x).land (wrap 64 m) = wrap 64 v then 0 else 5
    | _, _, _ => 5

/-- R529, R532: the VERDICT of the first rule of a list that fails, 0 when all pass. -/
def firstFail (f : Nat → Nat) (js : List Nat) : Nat :=
  match js.find? fun j => f j != 0 with
  | some j => f j * 256 + j
  | none => 0

/-! ### Submissions (R103, R520) -/

/-- R228, R520: the rank of a sequencer's submission. -/
def submitRank (s : State) (n : Nat) : Nat :=
  match submitted s n with
  | some (_, _, _, g) => if n = 17 then 50 else if g.hdr.deadline = 0 then g.hdr.prio else 100 + g.hdr.prio
  | none => 0

/-- R103, R520: the module time at which the slot of `n` that waits was submitted; one that no time has passed over yet is
submitted now. -/
def submittedAt (s : State) (n : Nat) : Nat :=
  ((s.chk.subs.find? fun p => p.1 == (n, (getSeq s n).nextOut)).map Prod.snd).getD s.time.ns

/-- R520: whether the submission of `m` goes before that of `n`: a higher rank, an earlier submission, a lower sequencer. -/
def submitsBefore (s : State) (m n : Nat) : Bool :=
  let (a, b) := (submitRank s m, submitRank s n)
  let (u, v) := (submittedAt s m, submittedAt s n)
  decide (b < a ∨ (a = b ∧ (u < v ∨ (u = v ∧ m < n))))

/-- R520: whether a submission of `n` is next: none that waits goes before it. -/
def submissionNext (s : State) (n : Nat) : Bool := (List.range 20).all fun m => !slotWork s m || !submitsBefore s m n

/-- R522: the checker enters FAILED. -/
def chkFail (s : State) : State :=
  let s := raise { s with chk := { s.chk with st := 2, rerun := false } } (chkBase + 0x10) 4
  service (diary s 0x70 3 true {}) 1

/-- R522: one lockstep mismatch in the unit at hand. -/
def lockMismatch (s : State) : State :=
  let s := raise (inc s (chkBase + 0x54)) (chkBase + 0x10) 3
  if s.chk.rerun then chkFail s else { s with chk := { s.chk with rerun := true } }

/-- R521: a unit of the checker: its mismatches, then its effect, unless the checker has failed; its time is counted. -/
def chkUnit (s : State) (time : Nat) (f : State → State) : State :=
  let k := s.chk.mismatch
  let s := { s with chk := { s.chk with mismatch := 0 } }
  let s := if 1 ≤ k then lockMismatch s else s
  let s := if 2 ≤ k ∧ s.chk.st ≠ 2 then lockMismatch s else s
  if s.chk.st = 2 then s
  else
    let b := s.chk.busyNs + time
    let s := incBy (incBy s (chkBase + 0x68) (b / 1000 - s.chk.busyNs / 1000)) (chkBase + 0x64) s.chk.soft
    f { s with chk := { s.chk with busyNs := b, rerun := false, soft := 0 } }

/-- CHECKER_UNIT_TIMEOUT (R522): watchdog 241 expires at 25 µs in the unit at hand. -/
def execCheckerUnitTimeout (s : State) : Res :=
  .next <| if s.chk.st = 1 ∧ ((List.range 20).any (slotWork s) ∨ ¬ s.chk.jobs.isEmpty) then
    lockMismatch (advance s (now s + 25000))
  else s

/-! ### The frame unit (R103, R531, R533) -/

/-- The address of byte `o` of the slot's copy of a PERSLOT surface. -/
def surfaceAt (f : Surface) (i o : Nat) : Nat := f.addr + i * f.size + o

/-- R104: the comparison CRC of a record: over bytes 0–123 with the fields that `DATE` owns taken as zero. -/
def recordCrc (l : List Byte) : Nat :=
  crc32c (slice l 0 3 ++ zeros 1 ++ slice l 4 16 ++ zeros 4 ++ slice l 24 36 ++ zeros 12 ++ slice l 72 52)

/-- The record area of a graph (R104). -/
def recordArea (g : Graph) : Option Surface := g.pl.surfaces.find? fun f => f.sid == 0

/-- Record `k` of slot `i`, read by a unit for the slot's generation. -/
def readRecord (s : State) (u : Nat) (g : Graph) (x : Slot) (i k : Nat) : State × Option (List Byte) :=
  match recordArea g with
  | none => (s, none)
  | some f => match unitRead s u g.safety x.gen (surfaceAt f i (128 * k)) 128 with
    | (s, .ok (l, _)) => (s, some l)
    | (s, .error _) => (s, none)

/-- R103 step 3: the comparison CRCs of the records of a slot; a record that cannot be read has none. -/
def readCrcs (s : State) (n : Nat) (g : Graph) (x : Slot) (i nrec : Nat) : State × List Nat :=
  (List.range nrec).foldl (fun (p : State × List Nat) k =>
    let (s, r) := readRecord p.1 (176 + n) g x i k
    (s, p.2 ++ [(r.map recordCrc).getD (2 ^ 32)])) (s, [])

/-- R527: the frame header as the rules read it. -/
def judgedHeader (s : State) (n : Nat) (x : Slot) (g : Graph) (nrec : Nat) (leaps : Reg) : List Byte :=
  leBytes 2 3 ++ leBytes 1 x.stream ++ leBytes 1 (packetFlags s n x) ++ leBytes 4 x.frame ++ leBytes 8 x.tstamp
    ++ leBytes 2 x.epoch ++ leBytes 2 nrec ++ leBytes 4 g.hdr.gid ++ zeros 4 ++ leBytes 4 leaps.toNat ++ zeros 32

/-- R531: summary source `k` of a table, or none when it is bad. -/
def summarySource (s : State) (g : Graph) (x : Slot) (i : Nat) (tbl : List Byte) (k : Nat) : State × Option (List Byte) :=
  let o := 16 + 8 * k
  match g.pl.surfaces.find? fun f => f.sid == leAt tbl o 2 with
  | none => (s, none)
  | some f =>
    let off := leAt tbl (o + 4) 4
    if ¬ bit 0 f.attr ∨ f.size < off + 64 then (s, none)
    else match unitRead s 200 false x.gen (surfaceAt f i off) 64 with
      | (s, .error _) => (s, none)
      | (s, .ok (l, _)) =>
        if leAt l 0 2 = leAt tbl (o + 2) 2 ∧ leAt l 60 4 = crc32c (l.take 60) ∧ leAt l 2 1 = x.stream % 256
          ∧ leAt l 4 4 = x.frame % 2 ^ 32 then (s, some l) else (s, none)

/-- The summary sources a table names, by index, each with what it reads as. -/
def sourcesOf (s : State) (g : Graph) (x : Slot) (i : Nat) (tbl : List Byte) :
    State × List (Nat × Option (List Byte)) :=
  ((List.range 4).filter fun k => leAt tbl (16 + 8 * k) 2 != 0xFFFF).foldl
    (fun (p : State × List (Nat × Option (List Byte))) k =>
      let (s, l) := summarySource p.1 g x i tbl k
      (s, p.2 ++ [(k, l)])) (s, [])

/-- R530: history word `h` of sequencer `n`. -/
def histWord (s : State) (n h : Nat) : Option (Nat × Nat) := (s.chk.hist.find? fun p => p.1 == 8 * n + h).map Prod.snd

/-- R533 rows 1 to 3: the end-to-end conditions, each with its REASON and DETAIL. -/
def e2eConds (s : State) (n : Nat) (x : Slot) : List (Nat × Nat) :=
  if bit 5 x.fflags then []
  else
    (match (getSeq s n).prev with
      | some (f, t) =>
        let gap := (x.frame + 2 ^ 32 - f) % 2 ^ 32
        (if 1 ≤ gap ∧ gap < 2 ^ 31 then [] else [(2, 0xFFFE)]) ++ (if x.tstamp ≤ t then [(3, 1)] else [])
      | none => []) ++ if now s < x.tstamp then [(3, 2)] else []

/-- R533 rows 6 to 9: the verdict of the table and its frame rules, in order of the rows. -/
def tableConds (s : State) (n : Nat) (x : Slot) (g : Graph) (hdr : List Byte) (tbl : Option (List Byte))
    (srcs : List (Nat × Option (List Byte))) : List Nat :=
  match tbl with
  | none => [0x1000]
  | some l =>
    let nrr := leAt l 2 1
    let m := nrr + leAt l 3 1
    let source (j : Nat) : List Byte :=
      let k := leAt l (64 + 32 * j + 2) 1
      if k = 5 then hdr else (((srcs.find? fun p => p.1 + 1 == k).bind Prod.snd).getD (zeros 64))
    (if g.nrule < m then [0x1100] else []) ++
    match srcs.find? fun p => p.2.isNone with
    | some p => [0x1200 + p.1]
    | none =>
      let v := firstFail (fun j => judgeRule l j (source j) x.frame (histWord s n)) ((List.range m).drop nrr)
      if v = 0 then [] else [v]

/-- R530: the operand of each DELTA rule of a table, by history word. -/
def learned (tbl : Option (List Byte)) (hdr : List Byte) (srcs : List (Nat × Option (List Byte))) : List (Nat × Nat) :=
  match tbl with
  | none => []
  | some l =>
    let m := leAt l 2 1 + leAt l 3 1
    ((List.range m).filter fun j => leAt l (64 + 32 * j) 1 == 4).map fun j =>
      let o := 64 + 32 * j
      let k := leAt l (o + 2) 1
      let src := if k = 5 then hdr else ((srcs.find? fun p => p.1 + 1 == k).bind Prod.snd).getD (zeros 64)
      (leAt l (o + 6) 2, (ruleOperand (leAt l (o + 1) 1) src (leAt l (o + 4) 2)).word)

/-- The dating of a slot replaced. -/
def setDating (s : State) (n i : Nat) (d : Dating) : State := setSlot s n i { getSlot s n i with dating := some d }

/-- R103 step 2: the NREC of a slot. -/
def recordCount (s : State) (g : Graph) (i : Nat) (d : Dating) : Nat :=
  if d.nsrc then (getFlag s (flagAddr g i d.src)).value.toNat else d.src

/-- R533: the frame unit of a slot over `nrec` records. -/
def judgeFrame (s : State) (n i : Nat) (x : Slot) (d : Dating) (g : Graph) (nrec : Nat) : State :=
  let s := if s.chk.histBad then
    raise { s with chk := { s.chk with hist := s.chk.hist.filter (fun p => p.1 / 8 != n), histBad := false } }
      (chkBase + 0x10) 7 else s
  let tbl := if d.ruleset < 256 then (s.chk.rules.find? fun p => p.1 == d.ruleset).map Prod.snd else none
  let leaps := (getSeq s n).leaps
  let (s, crcs) := readCrcs s n g x i nrec
  let (s, srcs) := match tbl with
    | some l => sourcesOf s g x i l
    | none => (s, [])
  if (getSlot s n i).sq then s
  else
    let hdr := judgedHeader s n x g nrec leaps
    let e2e := e2eConds s n x
    let conds : List (Nat × Nat × Nat) := e2e.map (fun c => (c.1, c.2, 0xFF00))
      ++ (if x.frozen then [(8, 0, 0xFF00)] else []) ++ x.mark.toList.map (fun m => (m.1, m.2, 0xFF00))
      ++ (tableConds s n x g hdr tbl srcs).map fun v => (1, 0, v)
    let s := incBy s (chkBase + 0x4C) e2e.length
    let s := if x.frozen then inc s (chkBase + 0x50) else s
    let s := if conds.isEmpty then s else raise (inc s (chkBase + 0x48)) (chkBase + 0x10) 2
    setDating s n i { d with nrec := some nrec, crcs := crcs, framed := true, table := tbl, leaps := leaps,
                             learn := learned tbl hdr srcs, verdicts := [],
                             frame := conds.head?.map fun c => (c.1, c.2.1, 0xFFFF, c.2.2) }

/-- FRAME_UNIT (R103 steps 1 to 4, R520, R531, R533): the frame unit of the slot that sequencer `n` dates. -/
def execFrameUnit (n : Nat) (s : State) : Res :=
  .next <| match submitted s n with
  | none => s
  | some (i, x, d, g) =>
    if d.framed ∨ s.chk.st ≠ 1 ∨ ¬ submissionNext s n then s
    else
      let nrec := recordCount s g i d
      if g.hdr.maxrec < nrec then
        setDating s n i { d with nrec := some 0, framed := true, leaps := (getSeq s n).leaps,
                                 frame := some (2, 0xFFFF, 0xFFFF, 0xFF00) }
      else
        let nfr := ((s.chk.rules.find? fun p => p.1 == d.ruleset).map fun p => leAt p.2 3 1).getD 0
        chkUnit s (1302 * nfr) fun s => judgeFrame s n i x d g nrec

/-! ### Record units (R534) -/

/-- R527: a record as the rules read it. -/
def judgedRecord (s : State) (n : Nat) (x : Slot) (g : Graph) (l : List Byte) : List Byte :=
  slice l 0 3 ++ leBytes 1 (packetFlags s n x) ++ slice l 4 16 ++ leBytes 4 g.hdr.gid ++ slice l 24 36 ++ zeros 12
    ++ slice l 72 52 ++ zeros 4

/-- R534: the verdict on record `k` of a slot. -/
def judgeRecord (s : State) (n i k : Nat) (x : Slot) (d : Dating) (g : Graph) : State :=
  let (s, r) := readRecord s 200 g x i k
  if (getSlot s n i).sq then s
  else
    let crcOk := (r.map fun l => recordCrc l == nth 0 d.crcs k).getD false
    let rules := match d.table, r with
      | some l, some b => firstFail (fun j => judgeRule l j (judgedRecord s n x g b) x.frame fun _ => none)
          (List.range (leAt l 2 1))
      | _, _ => 0
    let v : RecVerdict := if ¬ crcOk then ⟨4, 0xFF00⟩ else if rules ≠ 0 then ⟨1, rules⟩ else {}
    let whole := d.frame.isSome
    let s := inc s (chkBase + 0x40)
    let s := if ¬ crcOk ∧ ¬ whole then inc s (chkBase + 0x4C) else s
    let s := if v.reason ≠ 0 ∧ ¬ whole then raise (inc s (chkBase + 0x44)) (chkBase + 0x10) 1 else s
    setDating s n i { d with verdicts := d.verdicts ++ [(k, v)] }

/-- RECORD_UNIT (R520, R534): the next record of the slot that sequencer `n` dates. -/
def execRecordUnit (n : Nat) (s : State) : Res :=
  .next <| match submitted s n with
  | none => s
  | some (i, x, d, g) =>
    let k := d.verdicts.length
    if ¬ d.framed ∨ d.nrec.getD 0 ≤ k ∨ s.chk.st ≠ 1 ∨ ¬ submissionNext s n then s
    else chkUnit s (1302 * ((d.table.map fun l => leAt l 2 1).getD 0)) fun s => judgeRecord s n i k x d g

/-! ### The commit of a frame (R103 steps 5 to 10, R104, R176) -/

/-- R104: the REASON by which the fields a producer writes are refused, 0 for none. -/
def fieldReason (x : Slot) (k : Nat) (l : List Byte) : Nat :=
  if leAt l 0 2 ≠ 1 ∨ leAt l 2 1 ≠ x.stream % 256 ∨ leAt l 4 4 ≠ x.frame % 2 ^ 32 ∨ leAt l 16 2 ≠ x.epoch % 2 ^ 16
    ∨ leAt l 18 2 ≠ k then 2
  else if leAt l 8 8 ≠ x.tstamp % 2 ^ 64 then 3 else 0

/-- R103 step 8, R534: the REASON and VERDICT of record `k`, 0 for a result. -/
def recordReason (x : Slot) (d : Dating) (k : Nat) (l : Option (List Byte)) : Nat × Nat :=
  match l with
  | none => (4, 0xFF00)
  | some l =>
    let f := fieldReason x k l
    let v := ((d.verdicts.find? fun p => p.1 == k).map Prod.snd).getD {}
    if f ≠ 0 then (f, 0xFF00) else if recordCrc l ≠ nth 0 d.crcs k then (4, 0xFF00)
    else if v.reason ≠ 0 then (v.reason, v.verdict) else (0, 0)

/-- R86, R103 step 8: a result record with the fields that `DATE` owns. -/
def resultRecord (s : State) (n : Nat) (x : Slot) (g : Graph) (ruleset : Nat) (l : List Byte) : List Byte :=
  withCrc (slice l 0 3 ++ leBytes 1 (packetFlags s n x) ++ slice l 4 16 ++ leBytes 4 g.hdr.gid ++ slice l 24 36
    ++ leBytes 2 ruleset ++ leBytes 2 0 ++ leBytes 8 (now s) ++ slice l 72 52)

/-- R103 steps 7 and 8: the entries of a packet, each with whether it is a result. -/
def packetEntries (s : State) (n i : Nat) (x : Slot) (d : Dating) (g : Graph) : List (Bool × List Byte) :=
  (List.range (d.nrec.getD 0)).map fun k =>
    let l := (readRecord s (176 + n) g x i k).2
    let r := recordReason x d k l
    if r.1 = 0 then (true, resultRecord s n x g d.ruleset (l.getD []))
    else (false, noticeBytes s n x g.hdr.gid k r.1 0 0xFFFF d.ruleset r.2)

/-- R522, R533: what withholds a frame whole: REASON, DETAIL, UNIT and VERDICT. -/
def wholeReason (s : State) (d : Dating) : Option (Nat × Nat × Nat × Nat) :=
  if s.chk.st = 2 then some (1, 0, 0xFFFF, 0x1300) else d.frame

/-- The bytes of the packet that dates a slot. -/
def datePacket (s : State) (n i : Nat) (x : Slot) (d : Dating) (g : Graph) : List Byte :=
  match wholeReason s d with
  | some (r, dt, u, v) =>
    frameHeader s n x g.hdr.gid 1 0 1 ++ noticeBytes s n x g.hdr.gid 0xFFFF r dt u d.ruleset v
  | none =>
    let es := packetEntries s n i x d g
    let nres := (es.filter Prod.fst).length
    frameHeader s n x g.hdr.gid es.length nres (es.length - nres) ++ es.flatMap Prod.snd

/-- R103 step 9: the packet and the held items enqueued, or `waits` while one finds no space. -/
def placePacket (s : State) (n : Nat) (x : Slot) (g : Graph) (l : List Byte) : State × QRes :=
  let (s', r) := match g.pl.hostQ with
    | some q => hostPacket s n q l
    | none => (s, .taken)
  if r = .waits then (s, .waits)
  else x.held.foldl (fun p h =>
    if p.2 = .waits then p
    else enqWord p.1 h.queue (176 + n) { h.word with gen := 0 } h.last) (s', .taken)

/-- R530: the history words that a packet without a whole-frame notice teaches. -/
def teach (s : State) (n : Nat) (x : Slot) (d : Dating) : State :=
  if (wholeReason s d).isSome then s
  else { s with chk := { s.chk with hist := d.learn.foldl (fun h p => kvPut h (8 * n + p.1) (p.2, x.frame)) s.chk.hist } }

/-- DATE_COMMIT (R103 steps 5 to 10, R163, R176): the frame whose packet is due on sequencer `n` leaves: every verdict is
in, or the checker has FAILED; its dependencies are dated; its packet and held items find space. -/
def execDateCommit (n : Nat) (s : State) : Res :=
  .next <| match submitted s n with
  | none => s
  | some (i, x, d, g) =>
    let judged := d.framed && decide (d.nrec.getD 0 ≤ d.verdicts.length)
    if ¬ (judged ∨ s.chk.st = 2) ∨ ¬ (getGen s x.gen).deps.isEmpty then s
    else match placePacket s n x g (datePacket s n i x d g) with
      | (_, .waits) => s
      | (s', _) =>
        let s' := if s.chk.st = 2 ∧ d.frame.isNone then raise (inc s' (chkBase + 0x48)) (chkBase + 0x10) 2 else s'
        let s' := applyPins (commitGen (teach s' n x d) x.gen)
        squashPackets (packetOut s' n i) n

/-! ### Lantern frames (R124, R537 to R541) -/

/-- R539: whether a set's descriptor stands: CRC, VALID, secure addresses, and TGT naming its unit. -/
def lsetOk (s : State) (l tgt : Nat) : Bool :=
  let d := (List.range 16).flatMap fun i => leBytes 4 (lsetWord s l i)
  let ut := leAt d 0 1
  allOk [decide (l < 128), flag s (chkBase + 0x80 + 4 * (l / 32)) (l % 32), leAt d 60 4 == crc32c (d.take 60),
    bit 0 (leAt d 3 1), secureDram s (leAt d 16 8) (if ut = 9 then 128 else 64), secureDram s (leAt d 24 8) (leAt d 4 4),
    ut != 9 || secureDram s (leAt d 8 8) 16, tgt / 64 == ut, tgt % 64 == leAt d 1 1]

/-- R124, R539: CFLAG advanced by 1 with nothing dispatched. -/
def lanternSkip (s : State) (n c i : Nat) (x : Ctx) (g : Graph) (cflag : Nat) : State :=
  let y := getSlot s n i
  let s := (flagUpdate s n i y.frame y.gen (flagAddr g i cflag) true 1).1
  done s n c { x with win := none }

/-- LANTERN (R124, R539): the next chunk of set `lid` dispatched, its index written into the set's block for a tensor
chunk; a set that cannot be run fails for the cycle. With no chunk left, CFLAG is advanced alone (log entry 38). -/
def execLantern (n c : Nat) (tgt cflag lid : Nat) (s : State) : Res :=
  issue n c (· == wordLantern tgt cflag lid) s fun s x g =>
    if n ≠ 17 then s
    else onSlot s n c x .cs fun i =>
      if g.safety ∧ x.win.isNone then seqFault s n c 0x0D
      else if ¬ lsetOk s lid tgt then lanternFences (lanternSkip (lanternFail s lid 1 (lanternCycle s)) n c i x g cflag)
      else
        let y := getLSet s lid
        let chunks := lsetWord s lid 0 / 2 ^ 16 % 256
        if chunks ≤ y.next ∨ y.judged then lanternSkip s n c i x g cflag
        else startStage s n c x g i tgt cflag 0 false (some lid) fun s =>
          let s := setLSet s lid { y with next := y.next + 1 }
          if tgt / 64 = 9 then poke s (lsetWord s lid 4 + 2 ^ 32 * lsetWord s lid 5 + 64) (leBytes 4 y.next) else s

/-- SIGNATURE_UNIT (R520, R521, R540): at most 32,768 bytes of the first waiting set's output; after the last byte the
CRC is compared with SIG. -/
def execSignatureUnit (s : State) : Res :=
  .next <| if s.chk.st ≠ 1 ∨ (List.range 20).any (slotWork s) then s
  else match s.chk.jobs with
    | .sig l cyc :: t =>
      let len := lsetWord s l 1
      let a := lsetWord s l 6 + 2 ^ 32 * lsetWord s l 7
      let n := min 32768 (len - s.chk.sigPos)
      chkUnit s (n * 5 / 8) fun s =>
        let p := s.chk.sigPos
        let crc := (peek s (a + p) n).foldl (fun c b => crcShift 8 (c.xor b.toNat)) s.chk.sigCrc
        if p + n < len then { s with chk := { s.chk with sigPos := p + n, sigCrc := crc } }
        else
          let s := { s with chk := { s.chk with jobs := t, sigPos := 0, sigCrc := 0xFFFFFFFF } }
          let y := getLSet s l
          let cur := cyc == lanternCycle s && s.chk.cycle
          if y.judged ∧ cur then s
          else if crc.xor 0xFFFFFFFF = lsetWord s l 8 then
            inc (setLRes (setLSet s l { y with judged := cur, lastPass := now s }) l 1 0 cyc) (chkBase + 0x58)
          else
            let s := lanternFail (setLSet s l { y with judged := false }) l 0 cyc
            lanternFences (setLSet s l { getLSet s l with judged := cur })
    | _ => s

/-- LANTERN_STAGE_TIMEOUT (R539): watchdog 242 aborts a lantern stage of a vision engine at 51 µs. -/
def execLanternStageTimeout (e : Nat) (s : State) : Res :=
  .next <| match getTask s e with
  | some t => match t.lid, t.first with
    | some l, some f =>
      if t.ttype ≤ 4 ∧ t.st = .running then
        let s := advance s (f + 51000)
        let u := nth 0 t.units 0
        let s := lanternFail (inc s (engBase u + 0x48)) l 2 (lanternCycle s)
        lanternFences (dropWork (completionUpdate s t) e t)
      else s
    | _, _ => s
  | none => s

/-- LANTERN_SET_WRITE (R538, R545): a write to word `i` of CHK_LSET: discarded while the set is enabled or CHK_LOCK is
set. -/
def execLanternSetWrite (secure : Bool) (l i : Nat) (v : Reg) (s : State) : Res :=
  .next <| hostAccess secure true (chkBase + 0x1000 + 64 * l + 4 * i) s fun s =>
  if flag s (chkBase + 0x8) 0 ∨ flag s (chkBase + 0x80 + 4 * (l / 32)) (l % 32) then s
  else setR s (chkBase + 0x1000 + 64 * l + 4 * i) v

/-- Sets that CHK_LEN enables. -/
def enabledSets (s : State) : List Nat := (List.range 128).filter fun l => flag s (chkBase + 0x80 + 4 * (l / 32)) (l % 32)

/-- R541: a coverage fault on a list of sets. -/
def coverageFault (s : State) (ls : List Nat) : State :=
  let cyc := lanternCycle s
  let s := ls.foldl (fun s l => inc (setLRes s l 2 4 cyc) (chkBase + 0x60)) s
  let s := raise s (chkBase + 0x10) 6
  let word (k : Nat) : Nat := sumN ((ls.filter fun l => l / 64 == k).map fun l => 2 ^ (l % 64))
  let s := diary s 0x72 2 true { addr := word 0, aux := word 1 }
  let marks := (List.range 20).filter fun n => [0, 1].any fun c => ((getGraph s n c).map Graph.safety).getD false
  marks.foldl (fun s n => setR s (qmBase + 0x40) (setBit n (getR s (qmBase + 0x40)))) s

/-- LANTERN_CYCLE_END (R541, R544): watchdog 240 ends the cycle: sets of units that take no work are marked SKIP, and
every other enabled set without a PASS or FAIL is a coverage fault, but for one whose signature waits; progress is
discarded. -/
def execLanternCycleEnd (s : State) : Res :=
  .next <| if ¬ s.chk.cycle then s
  else
    let s := advance s (s.chk.nextCycle.getD 0)
    let cyc := lanternCycle s
    let open_ := (enabledSets s).filter fun l => !(getLSet s l).judged &&
      !s.chk.jobs.any fun j => match j with
        | .sig k _ => k == l
        | _ => false
    let skip := open_.filter fun l => !enabled s (lsetUnit s l)
    let cover := open_.filter fun l => enabled s (lsetUnit s l)
    let s := skip.foldl (fun s l => setLRes s l 3 0 cyc) s
    let s := if cover.isEmpty ∨ s.chk.st = 2 then s else coverageFault s cover
    clearSets { s with chk := { s.chk with cycle := false } }

/-- R537: a lantern cycle begins. -/
def beginCycle (s : State) : State :=
  match runningGraph s 17, s.chk.nextCycle with
  | some (_, g), some t =>
    if s.chk.cycle then s
    else
      let s := inc (advance s t) (chkBase + 0x6C)
      let s := { s with chk := { s.chk with cycle := true, nextCycle := some (t + 1000 * g.hdr.period) } }
      activate s 17 { ready := now s }
  | _, _ => s

/-- SEQ_ACTIVATION (R248): SEQ 16 takes the next recorded frame that the reader delivers (R510), SEQ 17 a lantern cycle
that falls due (R537), and SEQ 18 a packet of a batch input. -/
def execSeqActivation (n : Nat) (s : State) : Res :=
  .next <| if n = 16 then deliverFrame s
  else if n = 17 then beginCycle s
  else if n = 18 ∧ (runningGraph s 18).isSome then activate s 18 { ready := now s }
  else s

/-! ### The audit's comparison (R596) -/

/-- R596: an AUDIT entry, counted in MGC_CNT_DISAGREE. -/
def auditEntry (s : State) (unchecked : Bool) (v : AuditVal) (case_ : Nat) : State :=
  diary (inc s (mgcBase + 0x44)) 0x85 1 (unitWorld s v.unit)
    { unit := v.unit, code := case_ + 0x8000 * b2n unchecked, detail := v.epoch, aux := (getUnit s v.unit).epoch }

/-- R596: the outcomes for one unit. -/
def auditUnit (unchecked : Bool) (s : State) (v : AuditVal) : State :=
  let r := getUnit s v.unit
  let s := if r.epoch = v.epoch then s
    else
      let s := auditEntry s unchecked v 1
      bumpEpoch s v.unit
  let s := if v.busy ∧ r.mstate ≠ .enabled then squashUnits (auditEntry s unchecked v 2) [v.unit] else s
  let s := if v.awake ∧ r.mstate = .poweredDown then
    setUnit (auditEntry s unchecked v 3) v.unit { getUnit s v.unit with awake := false } else s
  if v.mute ∧ r.mstate = .enabled then fenceUnit (auditEntry s unchecked v 4) v.unit 3 else s

/-- MANAGEMENT_REQUEST (R520, R596): the checker compares the values of the audit that is first in line, when no slot
submission waits. -/
def execManagementRequest (s : State) : Res :=
  .next <| if s.chk.st ≠ 1 ∨ (List.range 20).any (slotWork s) then s
  else match s.chk.jobs with
    | .audit vs :: t => chkUnit s 1302 fun s => vs.foldl (auditUnit false) { s with chk := { s.chk with jobs := t } }
    | _ => s

end Sys2Proof.Machine
end

