-- ==== Sys2Proof/Machine/Accept.lean ====
section
/-!
DEFINITION. What brings a task to its units and off them: acceptance (R107, R110, R224, R239), dispatch (R230 to R235),
preemption (R236 to R238, R422 to R425), completion (R107, R113), the dating gate (R173 to R175), window expiry (R113,
R174), and the errors of units (R338).
-/
namespace Sys2Proof.Machine

/-- R264, R341, R433, R438: what the target unit does with a stage it has accepted; an engine's ERR is VALID no longer, and a
codec stage's data generation is not its stage's (R168). -/
def unitAccept (s : State) (e : Nat) (t : Task) : State :=
  let u := nth 0 t.units 0
  let s := if 128 ≤ u ∧ u < 160 then setR s (engBase u + 0x30) (clearBit 31 (getR s (engBase u + 0x30))) else s
  if t.ttype = 7 then dmaAccept s e else if t.ttype = 8 then setData s e 0 else if t.ttype = 5 ∨ t.ttype = 9 then tcDispatch s e else s

/-- KICK_ACCEPT (R107, R110, R224, R235, R239): the target unit accepts a stage, unless the epoch it carries is stale. -/
def execKickAccept (e : Nat) (s : State) : Res :=
  .next <| match getTask s e with
  | none => s
  | some t =>
    if t.st = .ready ∧ isServeStage s t then acceptServe s e t
    else if t.st ≠ .placed then s
    else if staleKick s t then rejectKick s e t
    else match staleUnit s t with
      | some u => rejectDispatch s e t u
      | none => unitAccept (acceptTask s e t) e t

/-- R230, R235, R425: a task placed on units; a preempted one resumes there, a tensor task with its contexts restored, unless
the dispatch carries a stale epoch. -/
def placeTask (s : State) (e : Nat) (t : Task) (us : List Nat) : State :=
  match (if t.first.isSome then staleUnit s { t with units := us } else none) with
  | some u => rejectDispatch s e t u
  | none =>
    let s' := dispatchOn s e t us
    let u := nth 0 us 0
    let s' := if t.first.isSome ∧ 128 ≤ u ∧ u < 132 then setR s' (engBase u + 0x30) (clearBit 31 (getR s' (engBase u + 0x30)))
      else s'
    if t.first.isSome ∧ t.ttype = 5 then tcResume s' e us else s'

/-- TASK_DISPATCH (R230, R232 to R235): the first eligible task of a pool placed on units, if it can be; a task for
which no unit is left is removed. -/
def execTaskDispatch (p : PoolId) (s : State) : Res :=
  .next <| match firstEligible s p with
  | none => s
  | some (e, t) =>
    match placeOn s t with
    | some us => placeTask s e t us
    | none =>
      match noUnitLeft s t with
      | some w => dropUnplaceable s e t w
      | none => s

/-- R424: the cores whose context areas are full and whose tasks would else have been stopped. -/
def fullCores (s : State) (w : Task) : List Nat :=
  match preemptPlan s (fun _ => true) w with
  | some (_, vs) => (vs.flatMap fun v => if v.2.ttype = 5 then v.2.units else []).filter fun c => !ctxRoom s c
  | none => []

/-- R238, R422: a victim stopped: its context saved, its task back in its list. -/
def stopVictim (s : State) (v : Nat × Task) : State :=
  let t := v.2
  let s := if t.ttype = 5 then t.units.foldl (fun s c => tcSave s c v.1 t) s else s
  let s := if t.ttype = 6 then inc s (gthBase (nth 128 t.units 0 - 128) + 0x6C) else s
  inc (preempted (leaveUnits s t) v.1 { t with saved := true }) (htsBase + 0x28)

/-- PREEMPTION (R236 to R238): the first eligible task of a preemptible pool that cannot be placed takes units from
lower-ranked tasks, which return to their lists with their contexts saved. -/
def execPreemption (p : PoolId) (s : State) : Res :=
  .next <| match (if preemptible p then firstEligible s p else none) with
  | none => s
  | some (e, t) =>
    if (placeOn s t).isSome then s
    else match preemptPlan s (canStop s) t with
      | none => (fullCores s t).foldl (fun s c => raise (inc s (tcBase c + 0x88)) (tcBase c + 0x20) 4) s
      | some (us, vs) => placeTask (vs.foldl stopVictim s) e t us

/-- STAGE_COMPLETION (R107, R113, R165, R173): a unit that has done a stage's work finishes it and makes its completion
update. -/
def execStageCompletion (e : Nat) (s : State) : Res :=
  .next <| match getTask s e with
  | some t => if t.st = .running ∧ t.served.isNone ∧ t.worked then completeTask s e else s
  | none => s

/-- DATING_GATE_RESUME (R173, R175): a stage at the gate whose data generation has been dated goes on, as dated work. -/
def execDatingGateResume (e : Nat) (s : State) : Res :=
  .next <| match getTask s e with
  | some t =>
    if t.st = .gate ∧ eff s t.dataGen = 0 ∧ eff s t.gen = 0 then setTask (countGate s t) e { t with st := .running } else s
  | none => s

/-- WINDOW_EXPIRY (R113, R174): the elapsed time of a running stage reaches WMAX + 1: the stage is aborted, the
completion update made and the slot marked WDOG_LATE. A stage at the dating gate counts as completed, one whose last output is
written completes on time, and an error met in that clock is recorded (R340). -/
def execWindowExpiry (e : Nat) (s : State) : Res :=
  .next <| match getTask s e with
  | some t =>
    match t.win, t.first with
    | some (_, _, wmax), some f =>
      if stageStopped s e t then s
      else
        let s := advance s (f + 1000 * (wmax + 1))
        if t.worked then completeTask s e
        else
          let s := (children s e).foldl (fun s k => noteError s k.1 k.2) (noteError (countAbort s t) e t)
          lanternFences (failTask (dropChildren s e) e)
    | _, _ => s
  | none => s

/-! ### Errors of units (R338, R490, R516) -/

/-- The units that report by ENGINE_ERROR: gather partitions, vision engines and the codec. -/
def reporting (u : Nat) : Bool := decide (128 ≤ u ∧ u < 160 ∨ u = 196 ∨ u = 197)

/-- A unit's error reported in its own block. -/
def unitError (s : State) (u e : Nat) (t : Task) (code addr : Nat) : State :=
  if u < 132 then gthError s u e t code addr else reportError s u e t code addr

/-- ENGINE_ERROR (R338, R490, R516): unit `u` reports the error that a stage on it has met, and the stage ends. -/
def execEngineError (u : Nat) (s : State) : Res :=
  .next <| if ¬ reporting u then s
  else match s.sched.tasks.find? fun p => p.2.onUnits && p.2.units.contains u && p.2.err.isSome with
    | some (e, t) => match t.err with
      | some x => unitError s u e t x.code x.addr
      | none => s
    | none => s

/-- R338, R429, R490, R516: the code of a memory timeout. -/
def timeoutCode (u : Nat) : Nat := if u < 64 then 0x23 else if u < 132 then 5 else if u < 160 then 3 else 4

/-- ENGINE_MEMORY_TIMEOUT (R338, R429, R490, R516): an access to address `a` by the stage on unit `u` has had no response
within the unit's TIMEOUT. -/
def execEngineMemoryTimeout (u a : Nat) (s : State) : Res :=
  .next <| if ¬ (u < 64 ∨ reporting u) then s
  else match s.sched.tasks.find? fun p => p.2.st == .running && p.2.units.contains u && !p.2.worked with
    | some (e, t) =>
      if u < 64 then
        let k := (getTc s u).core
        tcFault s u e t k.d (timeoutCode u) k.fetch.pc a
      else unitError s u e t (timeoutCode u) a
    | none => s

end Sys2Proof.Machine
end

