-- ==== Sys2Proof/Machine/Mailbox.lean ====
section
/-!
DEFINITION. The command boxes of the management block (R605 to R608, R656, R657): box 0 of the non-secure world, box 1 of
the secure world and the SMBus box, number 2. A command whose work the model does in one step completes in that step; one
that waits stays in `State.boxes`.
-/
namespace Sys2Proof.Machine

/-- What a command comes to: a result code with its RSP words, a wait, or an effect that has answered the box itself and
reset it. -/
inductive BoxRes where
  | done (result : Nat) (rsp : List Nat := [])
  | wait
  | gone

/-- A command's work: the state, the box and the arguments. -/
abbrev BoxWork := State → Nat → List Reg → State × BoxRes

/-- Argument `i` of a command. -/
def argN (a : List Reg) (i : Nat) : Nat := (nth 0 a i).toNat

/-- R607: a 64-bit argument held in two words, low word first. -/
def arg64 (a : List Reg) (i : Nat) : Nat := argN a i + 2 ^ 32 * argN a (i + 1)

/-- The words of a 64-bit value, low word first. -/
def words64 (v : Nat) : List Nat := [v % 2 ^ 32, v / 2 ^ 32 % 2 ^ 32]

/-- The words of a byte string. -/
def wordsOf : Nat → List Byte → List Nat
  | 0, _ => []
  | n + 1, l => leNat (l.take 4) :: wordsOf n (l.drop 4)

/-- R607: the OPs that the command table defines. -/
def knownOp (op : Nat) : Bool :=
  let n := op % 256
  match op / 256 with
  | 1 => decide (1 ≤ n ∧ n ≤ 9)
  | 2 => decide (1 ≤ n ∧ n ≤ 7)
  | 3 => decide (1 ≤ n ∧ n ≤ 7)
  | 4 => decide (1 ≤ n ∧ n ≤ 4)
  | 5 => decide (1 ≤ n ∧ n ≤ 5)
  | 6 => decide (1 ≤ n ∧ n ≤ 2)
  | 7 => n == 1
  | _ => false

/-- R607: the commands that only box 1 may give, once PROV is 1. -/
def secureOp (op : Nat) : Bool :=
  [0x0204, 0x0205, 0x0206, 0x0207, 0x0303, 0x0304, 0x0305, 0x0307, 0x0501, 0x0502, 0x0503, 0x0504, 0x0505, 0x0602].contains op

/-- R607: the commands that also run in the recovery loader. -/
def recoveryOp (op : Nat) : Bool :=
  [0x0205, 0x0301, 0x0306, 0x0401, 0x0403, 0x0501, 0x0502, 0x0503, 0x0505, 0x0701].contains op

/-- R657: the commands that need no handshake. -/
def freeOp (op : Nat) : Bool := [0x0701, 0x0301, 0x0306, 0x0401, 0x0403].contains op

/-- R608: the commands of the SMBus box. -/
def smbusOp (op : Nat) : Bool := [0x0701, 0x0301, 0x0302, 0x0306, 0x0201, 0x0202, 0x0203, 0x0404, 0x0401].contains op

/-- Whether the world of box `b` may act on what belongs to `world` (R607); the secure world acts on both. -/
def boxMay (b : Nat) (world : Bool) : Bool := boxSecure b || !world

/-- R606 to R608, R657: the result with which a command is turned away before its arguments are looked at. -/
def boxGate (s : State) (b op : Nat) : Option Nat :=
  if ¬ knownOp op then some 0x20
  else if b = 2 ∧ ¬ smbusOp op then some 0x20
  else if s.firm.fw = 2 ∧ ¬ recoveryOp op then some 0x22
  else if b < 2 ∧ ¬ (getFn s b).done ∧ ¬ freeOp op then some 0x22
  else if secureOp op ∧ ¬ boxSecure b ∧ s.fwl.fuses.prov then some 0x0B
  else none

/-- R605, R606: a command arrives in box `b` with its arguments: discarded with REJ while one runs; otherwise it runs. -/
def boxRun (s : State) (b op tag : Nat) (args : List Reg) (f : BoxWork) : State :=
  if bit 31 (getN s (boxAt b + 4)) then setR s (boxAt b + 4) (setBit 30 (getR s (boxAt b + 4)))
  else
    let s := args.zipIdx.foldl (fun s p => setR s (boxAt b + 0x10 + 4 * p.2) p.1) s
    let s := setField (setField s (boxAt b + 4) 30 30 0) (boxAt b + 4) 31 31 1
    match boxGate s b op with
    | some r => boxDone s b tag r []
    | none =>
      match f s b args with
      | (s, .done r rsp) => boxDone s b tag r rsp
      | (s, .gone) => s
      | (s, .wait) => { s with boxes := kvPut s.boxes b { tag := tag, op := op, arg := argN args 0, since := now s } }

/-- A mailbox command of box 0 over PF0, or of box 1 over PF1 (`secure`); in DOZE it wakes the module first (R575 bit 7). -/
def mailbox (secure : Bool) (op : Nat) (tag : BitVec 16) (args : List Reg) (f : BoxWork) (s : State) : Res :=
  .next (if fnReach s (b2n secure) then boxRun (dozeWake s) (b2n secure) op tag.toNat args f else s)

/-- R668: whether the console input takes a command: while DBGDIS reads 0, and only a recovery command in the recovery loader. -/
def consoleTakes (s : State) (op : Nat) : Bool :=
  !s.fwl.fuses.dbgdis && s.power.st != .off && s.power.bootStep == 7 && s.firm.fw == 2 && recoveryOp op

/-- R668: a recovery command from a command box, or from the console input, where it acts with the rights of the non-secure world and
has no answer, as DBG_TXD sends progress codes alone (log entry 126). -/
def mailboxVia (via : Via) (op : Nat) (tag : BitVec 16) (args : List Reg) (f : BoxWork) (s : State) : Res :=
  match via with
  | .box secure => mailbox secure op tag args f s
  | .console => .next (if consoleTakes s op then (f s 2 args).1 else s)

/-- The two words of an address. -/
def addrArgs (a : BitVec 64) : List Reg := [reg (a.toNat % 2 ^ 32), reg (a.toNat / 2 ^ 32)]

/-- R551, R607: whether the `n` bytes at an address lie in memory where the world of box `b` may read, or write, them. -/
def boxSpan (s : State) (b : Nat) (write : Bool) (a n : Nat) : Bool :=
  let sec := boxSecure b
  match spaceOf a with
  | .dram => decide (a + n ≤ Config.dramBytes) && (fwDecide s.fwl.dram (202 + b2n sec) sec false write a n).isNone
  | .som => decide (a + n ≤ Config.somBase + Config.somBytes)
      && (fwDecide s.fwl.som (202 + b2n sec) sec false write (a - Config.somBase) n).isNone
  | _ => false

/-- R551: the staging area of a world. -/
def inStaging (sec : Bool) (a n : Nat) : Bool :=
  let base := if sec then Config.stagingS else Config.stagingN
  decide (base ≤ a ∧ a + n ≤ base + 0x1000_0000)

end Sys2Proof.Machine
end

