-- ==== Sys2Proof/Machine/Warp.lean ====
section
/-!
DEFINITION. The warp engines (spec/13_warp_and_pyramid_engines.md): the descriptor (R374, R375), coordinates (R376,
R377), sampling (R378 to R381), the parameter block (R382 to R384), inverse generation (R385, R386) and the summary
(R387).
-/
namespace Sys2Proof.Machine

/-- A coordinate pair in 1/64 pixel. -/
abbrev Pt := Int × Int

/-- R375: the valid coordinates of a map. -/
def wrpIn (i : Int) : Bool := decide (-33554432 ≤ i ∧ i ≤ 33554431)

/-- R375: a node of `gw` to the row, or none where it is invalid. -/
def wrpNode (gw : Nat) (b : List Byte) (i j : Nat) : Option Pt :=
  let x := sext 32 (leAt b (8 * (j * gw + i)) 4)
  let y := sext 32 (leAt b (8 * (j * gw + i) + 4) 4)
  if wrpIn x ∧ wrpIn y then some (x, y) else none

/-- R376: the source coordinate of a destination pixel through a mesh. -/
def meshMap (node : Nat → Nat → Option Pt) (x y : Nat) : Option Pt :=
  let i := x / 16
  let j := y / 16
  let fx : Int := (x % 16 : Nat)
  let fy : Int := (y % 16 : Nat)
  let comb (o p q : Option Pt) (a b : Int) : Option Pt :=
    match o, p, q with
    | some o, some p, some q =>
      let c (o p q : Int) : Int := (16 * o + (p - o) * a + (q - o) * b + 8) / 16
      some (c o.1 p.1 q.1, c o.2 p.2 q.2)
    | _, _, _ => none
  if fx + fy ≤ 16 then comb (node i j) (node (i + 1) j) (node i (j + 1)) fx fy
  else comb (node (i + 1) (j + 1)) (node i (j + 1)) (node (i + 1) j) (16 - fx) (16 - fy)

/-- R377: the source coordinate of a destination pixel through a homography of nine FP32 codes. -/
def homMap (h : Nat → Nat) (x y : Nat) : Option Pt :=
  let fx := f32ofInt x
  let fy := f32ofInt y
  let row (r : Nat) : Nat := f32add (f32add (f32mul (h (3 * r)) fx) (f32mul (h (3 * r + 1)) fy)) (h (3 * r + 2))
  let fin (c : Nat) : Bool := !(FFmt.fp32.dec c).isNan && !(FFmt.fp32.dec c).isInf
  let w := row 2
  if fin (row 0) && fin (row 1) && fin w && FV.lt (.fin false 0 0) (FFmt.fp32.dec w) then
    match (FFmt.fp32.dec (f32div (row 0) w)).toInt .rne 6, (FFmt.fp32.dec (f32div (row 1) w)).toInt .rne 6 with
    | some a, some b => if wrpIn a ∧ wrpIn b then some (a, b) else none
    | _, _ => none
  else none

/-- R378: 1,024 · K(a / 64), rounded half away from zero. -/
def cubicW (a : Nat) : Int :=
  let a : Int := a
  if a ≤ 64 then roundAway (1024 * (3 * a ^ 3 - 320 * a ^ 2 + 524288)) 524288
  else roundAway (1024 * (320 * a ^ 2 - a ^ 3 - 32768 * a + 1048576)) 524288

/-- R378: the weights of a fraction: two for bilinear, four for bicubic. -/
def wrpWeights (cubic : Bool) (f : Nat) : List Int :=
  if cubic then
    let w0 := cubicW (64 + f)
    let w2 := cubicW (64 - f)
    let w3 := cubicW (128 - f)
    [w0, 1024 - w0 - w2 - w3, w2, w3]
  else [64 - f, f]

/-- A warp parameter block (R382). -/
structure WrpBlk where
  gen : Bool
  dir : Bool
  cubic : Bool
  edge : Nat
  fmt : Nat
  planes : Nat
  bval : Nat
  sw : Nat
  sh : Nat
  dw : Nat
  dh : Nat
  srch : Nat

/-- R382: bytes per pixel of a format. -/
def fmtBytes (fmt : Nat) : Nat := if fmt = 2 then 1 else 2

/-- R382: a block read. -/
def wrpBlk (l : List Byte) : WrpBlk where
  gen := bit 0 (leAt l 2 1)
  dir := bit 1 (leAt l 2 1)
  cubic := bits 3 2 (leAt l 2 1) == 1
  edge := bits 5 4 (leAt l 2 1)
  fmt := leAt l 3 1
  planes := leAt l 4 1
  bval := leAt l 6 2
  sw := leAt l 8 2
  sh := leAt l 10 2
  dw := leAt l 12 2
  dh := leAt l 14 2
  srch := leAt l 16 2

/-- R383: whether a block passes the acceptance checks: of its addresses the rule names the fields. -/
def wrpBlockOk (l : List Byte) : Bool :=
  let b := wrpBlk l
  let wm := leAt l 2 1
  let n := fmtBytes b.fmt
  let al (a : Nat) : Bool := a % 64 == 0
  let sz (v : Nat) : Bool := decide (16 ≤ v ∧ v ≤ 8192)
  allOk [leAt l 0 2 == 5, decide (bits 3 2 wm < 2), b.edge != 3, bits 7 6 wm == 0, al (leAt l 24 8),
    al (leAt l 112 8)] &&
  (if b.gen then !b.dir && rsv l 3 21 && rsv l 32 80 && rsv l 124 4
  else allOk [b.fmt == 2 || b.fmt == 4 || b.fmt == 8, decide (1 ≤ b.planes ∧ b.planes ≤ 3),
    rsv l 5 1, rsv l 18 6, rsv l 52 4, rsv l 76 4, rsv l 108 4, rsv l 124 4,
    decide (2 ≤ b.srch ∧ b.srch ≤ 16384), sz b.sw, sz b.sh, sz b.dw, sz b.dh,
    al (leAt l 32 8), al (leAt l 56 8), al (leAt l 80 8), al (leAt l 96 8), al (leAt l 44 4), al (leAt l 48 4), al (leAt l 68 4),
    al (leAt l 72 4), al (leAt l 92 4), decide (b.sw * n ≤ leAt l 44 4), decide (b.dw * n ≤ leAt l 68 4),
    leAt l 80 8 == 0 || decide (b.dw ≤ leAt l 92 4),
    b.planes == 1 || decide (leAt l 44 4 * b.sh ≤ leAt l 48 4 ∧ leAt l 68 4 * b.dh ≤ leAt l 72 4)])

/-- R374: the sizes of a descriptor. -/
structure WrpDesc where
  mesh : Bool
  hasinv : Bool
  domw : Nat
  domh : Nat
  ranw : Nat
  ranh : Nat
  gw : Nat
  gh : Nat
  igw : Nat
  igh : Nat
  ioff : Nat

/-- R374: a descriptor header read. -/
def wrpDesc (d : List Byte) : WrpDesc where
  mesh := leAt d 2 1 == 0
  hasinv := bit 0 (leAt d 3 1)
  domw := leAt d 4 2
  domh := leAt d 6 2
  ranw := leAt d 8 2
  ranh := leAt d 10 2
  gw := leAt d 12 2
  gh := leAt d 14 2
  igw := leAt d 16 2
  igh := leAt d 18 2
  ioff := leAt d 24 4

/-- R384: whether a descriptor header serves a block. -/
def wrpDescOk (d l : List Byte) : Bool :=
  let k := wrpDesc d
  let b := wrpBlk l
  let sz (v : Nat) : Bool := decide (16 ≤ v ∧ v ≤ 8192)
  let n (v : Nat) : Nat := if k.mesh then cdiv v 16 + 1 else 0
  allOk [leAt d 0 2 == 0x30, decide (leAt d 2 1 < 2), decide (leAt d 3 1 < 2), rsv d 108 16,
    leAt d 124 4 == crc32c (d.take 124), sz k.domw, sz k.domh, sz k.ranw, sz k.ranh,
    k.gw == n k.domw, k.gh == n k.domh, k.igw == n k.ranw, k.igh == n k.ranh,
    k.ioff == (if k.mesh then 128 + cdiv (8 * k.gw * k.gh) 64 * 64 else 0)] &&
  (b.gen || (if b.dir then k.hasinv && b.dw == k.ranw && b.dh == k.ranh && b.sw == k.domw && b.sh == k.domh
    else b.dw == k.domw && b.dh == k.domh && b.sw == k.ranw && b.sh == k.ranh))

/-- R380: a coordinate reflected and brought into an image of `n`. -/
def wrpMirror (n i : Int) : Int := clampI 0 (n - 1) (if i < 0 then -i else if n ≤ i then 2 * n - 2 - i else i)

/-- R380: what the tap at column `c` and row `r` reads in a plane of `sh` rows, and whether it is outside. -/
def wrpTap (b : WrpBlk) (sh : Nat) (px : List (List Nat)) (c r : Int) : Nat × Bool :=
  let at' (c r : Int) : Nat := nth 0 (nth [] px r.toNat) c.toNat
  if 0 ≤ c ∧ c < b.sw ∧ 0 ≤ r ∧ r < sh then (at' c r, false)
  else if b.edge = 0 then (b.bval % 2 ^ (8 * fmtBytes b.fmt), true)
  else if sh = 0 then (Config.wrpEmpty c r, true)
  else if b.edge = 1 then (at' (clampI 0 (b.sw - 1) c) (clampI 0 ((sh : Int) - 1) r), true)
  else (at' (wrpMirror b.sw c) (wrpMirror sh r), true)

/-- R379: rows of taps weighted, horizontally and then vertically, as the format has it. -/
def wrpBlend (b : WrpBlk) (wx wy : List Int) (taps : List (List Nat)) : Nat :=
  if b.fmt = 8 then
    let den := f32ofInt (if b.cubic then 1024 else 64)
    let w (i : Int) : Nat := f32div (f32ofInt i) den
    let rows := taps.map fun r => f32sum ((r.zip wx).map fun p => f32mul (w p.2) (f16to32 p.1))
    f32to16 (f32sum ((rows.zip wy).map fun p => f32mul (w p.2) p.1))
  else
    let rows := taps.map fun r => sumI ((r.zip wx).map fun p => p.2 * p.1)
    let v := sumI ((rows.zip wy).map fun p => p.2 * p.1)
    if b.cubic then (clampI 0 (2 ^ (8 * fmtBytes b.fmt) - 1) ((v + 524288) / 1048576)).toNat
    else ((v + 2048) / 4096).toNat

/-- What a destination pixel is: R381. -/
inductive WrpKind where
  | valid | edge | invalid
  deriving DecidableEq, Repr

/-- R378 to R380: a destination pixel in one plane. -/
def wrpPixel (b : WrpBlk) (sh : Nat) (px : List (List Nat)) (u : Option Pt) : Nat × WrpKind :=
  match u with
  | none => (b.bval % 2 ^ (8 * fmtBytes b.fmt), .invalid)
  | some u =>
    let wx := wrpWeights b.cubic (u.1 % 64).toNat
    let wy := wrpWeights b.cubic (u.2 % 64).toNat
    let o : Int := if b.cubic then 1 else 0
    let taps := (List.range wy.length).map fun (j : Nat) => (List.range wx.length).map fun (i : Nat) =>
      wrpTap b sh px (u.1 / 64 - o + i) (u.2 / 64 - o + j)
    (wrpBlend b wx wy (taps.map fun r => r.map Prod.fst),
      if taps.any (fun r => r.any Prod.snd) then .edge else .valid)

/-- R387: the summary of a stage on engine `i`. -/
def wrpSummary (t : Task) (i sflags valid edge inval ninv rowlim : Nat) : List Byte :=
  withCrc (leBytes 2 0x24 ++ leBytes 1 t.stream ++ leBytes 1 sflags ++ leBytes 4 t.frame ++ leBytes 4 valid
    ++ leBytes 4 edge ++ leBytes 4 inval ++ leBytes 4 ninv ++ leBytes 2 rowlim ++ leBytes 1 i ++ zeros 33)

/-- R374: the address of the descriptor, and its map for a direction: the nodes' place, columns and rows, or the
homography. -/
def wrpNodesAt (l : List Byte) (k : WrpDesc) (dir : Bool) : Nat × Nat × Nat :=
  if dir then (leAt l 24 8 + k.ioff, k.igw, k.igh) else (leAt l 24 8 + 128, k.gw, k.gh)

/-- R384: the nodes of a map read, and whether their CRC holds; a homography has none. -/
def wrpReadNodes (s : State) (u : Nat) (t : Task) (gen : Nat) (d : List Byte) (dir : Bool) :
    State × Except MemErr ((List Byte × Bool) × Nat) :=
  let k := wrpDesc d
  if ¬ k.mesh then (s, .ok (([], true), gen))
  else
    let (a, w, h) := wrpNodesAt t.block k dir
    bindMem (unitRead s u t.sc gen a (8 * w * h)) fun s r =>
      (s, .ok ((r.1, crc32c r.1 == leAt d (if dir then 104 else 28) 4), r.2))

/-- The map of a descriptor: from a destination pixel to a source coordinate. -/
def wrpMap (d nodes : List Byte) (dir : Bool) : Nat → Nat → Option Pt :=
  let k := wrpDesc d
  if k.mesh then meshMap (wrpNode (if dir then k.igw else k.gw) nodes)
  else homMap fun i => leAt d ((if dir then 68 else 32) + 4 * i) 4

/-- The source planes of a block, up to `sh` rows of each. -/
def wrpReadPlanes (s : State) (u : Nat) (t : Task) (sh : Nat) : Nat → Nat → State × Except MemErr (List (List (List Nat)) × Nat)
  | 0, gen => (s, .ok ([], gen))
  | n + 1, gen =>
    let l := t.block
    let b := wrpBlk l
    let p := b.planes - (n + 1)
    let base := slotAddr l 32 40 t.slot + p * leAt l 48 4
    bindMem (unitReadRows s u t.sc gen (planeRows base (leAt l 44 4) sh (b.sw * fmtBytes b.fmt))) fun s r =>
      bindMem (wrpReadPlanes s u t sh n r.2) fun s q =>
        (s, .ok (r.1.map (rowPixels (fmtBytes b.fmt) b.sw) :: q.1, q.2))

/-- R382 to R384: block and descriptor checked, and the frame info read where it is enabled. -/
def wrpAccept (s : State) (u : Nat) (t : Task) :
    State × Except EngErr (List Byte × Option (Nat × Nat × Nat) × Nat) :=
  let l := t.block
  if ¬ wrpBlockOk l then (s, .error (.inr (1, t.pblk)))
  else
    mem (unitRead s u t.sc t.dataGen (leAt l 24 8) 128) fun s d =>
      if ¬ wrpDescOk d.1 l then (s, .error (.inr (7, leAt l 24 8)))
      else match infoAt s u t d.2 l 96 104 t.slot true with
        | (s, .error e) => (s, .error e)
        | (s, .ok (fi, g)) => (s, .ok (d.1, fi, g))

/-- R378 to R384, R387: a resampling stage. -/
def wrpResample (s : State) (u : Nat) (t : Task) : State × Except EngErr (List EngOut × Nat) :=
  let l := t.block
  let b := wrpBlk l
  match wrpAccept s u t with
  | (s, .error e) => (s, .error e)
  | (s, .ok (d, fi, g)) =>
    let lim := match fi with
      | some (st, n, _) => if bit 0 st ∨ bit 2 st then some (n * b.sh / b.srch) else none
      | none => none
    let sh := min b.sh (lim.getD b.sh)
    mem (wrpReadNodes s u t g d b.dir) fun s nodes =>
      mem (wrpReadPlanes s u t sh b.planes nodes.2) fun s src =>
        let map := wrpMap d nodes.1.1 b.dir
        let grid (f : Nat → Nat → Nat × WrpKind) : List (List (Nat × WrpKind)) :=
          (List.range b.dh).map fun y => (List.range b.dw).map fun x => f x y
        let out := src.1.map fun px => grid fun x y => wrpPixel b sh px (map x y)
        let kinds := (nth [] out 0).map fun r => r.map Prod.snd
        let lines := out.zipIdx.flatMap fun p => p.1.zipIdx.map fun r =>
          (slotAddr l 56 64 t.slot + p.2 * leAt l 72 4 + r.2 * leAt l 68 4,
            r.1.flatMap fun v => leBytes (fmtBytes b.fmt) v.1)
        let mask := if leAt l 80 8 = 0 then [] else kinds.zipIdx.map fun r =>
          (slotAddr l 80 88 t.slot + r.2 * leAt l 92 4, r.1.map fun k => if k = .valid then (255 : Byte) else 0)
        let cnt (k : WrpKind) : Nat := kinds.flatten.countP (· == k)
        let sum := if leAt l 112 8 = 0 then [] else
          [(slotAddr l 112 120 t.slot, wrpSummary t (u - 144) (2 * b2n b.dir + 4 * b2n lim.isSome + 8 * b2n fi.isSome)
            (cnt .valid) (cnt .edge) (cnt .invalid) 0 sh)]
        let inval := if cnt .invalid = 0 then [] else [.count (engBase u + 0x50) 1, .raise (engBase u + 0x20) 2]
        let crc := if nodes.1.2 then [] else [.fail 7 (leAt l 24 8)]
        (s, .ok (rowOuts (lines ++ mask ++ sum) ++ inval ++ crc, src.2))

/-- R385: cross product of two vectors. -/
def cross (p q : Pt) : Int := p.1 * q.2 - p.2 * q.1

/-- The difference of two points. -/
def ptSub (p q : Pt) : Pt := (p.1 - q.1, p.2 - q.2)

/-- A triangle of the forward mesh: its vertices' nodes with their domain positions. -/
abbrev Tri := List (Pt × Pt)

/-- R385: the valid triangles of a forward mesh in raster order of cells, triangle 0 before triangle 1. -/
def wrpTriangles (k : WrpDesc) (node : Nat → Nat → Option Pt) : List Tri :=
  let v (i j : Nat) : Option (Pt × Pt) := (node i j).map fun p => (p, ((1024 * i : Nat), (1024 * j : Nat)))
  (List.range (k.gh - 1)).flatMap fun j => (List.range (k.gw - 1)).flatMap fun i =>
    [[v i j, v (i + 1) j, v i (j + 1)], [v (i + 1) j, v (i + 1) (j + 1), v i (j + 1)]].filterMap fun t =>
      if t.all Option.isSome then some (t.filterMap id) else none

/-- R385: a range point taken back through one triangle, where the triangle holds it. -/
def wrpBack (q : Pt) (t : Tri) : Option Pt :=
  match t with
  | [(pa, a), (pb, b), (pc, c)] =>
    let d := cross (ptSub pb pa) (ptSub pc pa)
    let wb := cross (ptSub q pa) (ptSub pc pa)
    let wc := cross (ptSub pb pa) (ptSub q pa)
    let wa := d - wb - wc
    if d = 0 ∨ wa * d < 0 ∨ wb * d < 0 ∨ wc * d < 0 then none
    else
      let r (a b c : Int) : Int := roundAway (d.sign * (wa * a + wb * b + wc * c)) (d.natAbs : Int)
      some (r a.1 b.1 c.1, r a.2 b.2 c.2)
  | _ => none

/-- R385: the inverse nodes of a mesh, in storage order. -/
def wrpInverse (k : WrpDesc) (nodes : List Byte) : List (Option Pt) :=
  let tris := wrpTriangles k (wrpNode k.gw nodes)
  (List.range k.igh).flatMap fun j => (List.range k.igw).map fun i =>
    tris.findSome? (wrpBack ((1024 * i : Nat), (1024 * j : Nat)))

/-- R385: the adjugate of a homography, element by element in row order. -/
def wrpAdjugate (h : Nat → Nat) : List Nat :=
  let c (a b p q : Nat) : Nat := f32sub (f32mul (h a) (h b)) (f32mul (h p) (h q))
  [c 4 8 5 7, c 2 7 1 8, c 1 5 2 4, c 5 6 3 8, c 0 8 2 6, c 2 3 0 5, c 3 7 4 6, c 1 6 0 7, c 0 4 1 3]

/-- R385 to R387: a generation stage. -/
def wrpGenerate (s : State) (u : Nat) (t : Task) : State × Except EngErr (List EngOut × Nat) :=
  let l := t.block
  match wrpAccept s u t with
  | (s, .error e) => (s, .error e)
  | (s, .ok (d, _, g)) =>
    let k := wrpDesc d
    let base := leAt l 24 8
    mem (wrpReadNodes s u t g d false) fun s nodes =>
      let inv := if k.mesh then wrpInverse k nodes.1.1 else []
      let bytes := inv.flatMap fun n => match n with
        | some p => leBytes 4 (wrap 32 p.1) ++ leBytes 4 (wrap 32 p.2)
        | none => leBytes 4 0x80000000 ++ leBytes 4 0x80000000
      let ninv := inv.countP Option.isNone
      let hi := if k.mesh then slice d 68 36 else (wrpAdjugate fun i => leAt d (32 + 4 * i) 4).flatMap (leBytes 4)
      let icrc := leBytes 4 (if k.mesh then crc32c bytes else 0)
      let flags := leBytes 1 (leAt d 3 1 ||| 1)
      let head := slice d 0 3 ++ flags ++ slice d 4 16 ++ leBytes 4 ninv ++ slice d 24 44 ++ hi ++ icrc ++ slice d 108 16
      let inverse := if k.mesh then [(base + k.ioff, bytes)] else []
      let sum := if leAt l 112 8 = 0 then []
        else [(slotAddr l 112 120 t.slot, wrpSummary t (u - 144) 1 0 0 0 ninv 0)]
      let rest := if ¬ nodes.1.2 then [.fail 7 base]
        else rowOuts ([(base + 104, icrc), (base + 20, leBytes 4 ninv), (base + 68, hi), (base + 3, flags),
          (base + 124, leBytes 4 (crc32c head))] ++ sum) ++ [.count (engBase u + 0x5C) 1]
      (s, .ok (rowOuts inverse ++ rest, nodes.2))

/-- The stage on unit `u` when its block asks for generation as `gen` says. -/
def wrpStage (i : Nat) (gen : Bool) (w : State → Nat → Task → State × Except EngErr (List EngOut × Nat)) (s : State) : Res :=
  match engTask s (144 + i) with
  | some (_, t) => .next (if (wrpBlk t.block).gen = gen then engineWork s (144 + i) (memCode 4) noFinish w else s)
  | none => .next s

/-- WARP_STAGE (R373 to R384, R387, R394): engine `i` resamples planes through a warp descriptor. -/
def execWarpStage (i : Nat) (s : State) : Res := wrpStage i false (fun s _ t => wrpResample s (144 + i) t) s

/-- INVERSE_GENERATION (R383, R385 to R387, R394): engine `i` writes the inverse map of a descriptor. -/
def execInverseGeneration (i : Nat) (s : State) : Res := wrpStage i true (fun s _ t => wrpGenerate s (144 + i) t) s

end Sys2Proof.Machine
end

