-- ==== Sys2Proof/Machine/Pyramid.lean ====
section
/-!
DEFINITION. The pyramid engines (spec/13_warp_and_pyramid_engines.md): layout (R388), block (R389), reduction (R390) and
expansion (R391).
-/
namespace Sys2Proof.Machine

/-- R388: the size of level `l` of a plane of base size `w`. -/
def pyrSize (w : Nat) : Nat → Nat
  | 0 => w
  | l + 1 => (pyrSize w l + 1) / 2

/-- R388: LSTR of a level. -/
def pyrStride (w bpp l : Nat) : Nat := cdiv (pyrSize w l * bpp) 64 * 64

/-- R388: LOFF of a level; at the number of levels, the canonical size. -/
def pyrOff (w h bpp : Nat) : Nat → Nat
  | 0 => 0
  | l + 1 => pyrOff w h bpp l + pyrStride w bpp l * pyrSize h l

/-- A pyramid parameter block (R389). -/
structure PyrBlk where
  op : Nat
  copy : Bool
  fmt : Nat
  n : Nat
  lfmt : Nat
  w0 : Nat
  h0 : Nat

/-- R389: a block read. -/
def pyrBlk (l : List Byte) : PyrBlk where
  op := bits 1 0 (leAt l 2 1)
  copy := bit 2 (leAt l 2 1)
  fmt := leAt l 3 1
  n := leAt l 4 1
  lfmt := leAt l 5 1
  w0 := leAt l 8 2
  h0 := leAt l 10 2

/-- R389, R390: whether a block of a slot passes the acceptance checks. -/
def pyrBlockOk (l : List Byte) (slot : Nat) : Bool :=
  let b := pyrBlk l
  let n := fmtBytes b.fmt
  let lap := b.op == 1 || b.op == 2
  let al (a : Nat) : Bool := a % 64 == 0
  let src := b.op == 3 || (b.op == 0 && b.copy)
  allOk [leAt l 0 2 == 6, bits 7 3 (leAt l 2 1) == 0, b.fmt == 2 || b.fmt == 4 || b.fmt == 8,
    decide (2 ≤ b.n ∧ b.n ≤ 8), if lap then (b.lfmt == 3 && b.fmt == 2) || b.lfmt == 8 else b.lfmt == 0,
    decide (16 ≤ b.w0 ∧ b.w0 ≤ 8192 ∧ 16 ≤ b.h0 ∧ b.h0 ≤ 8192),
    rsv l 6 2, rsv l 12 4, rsv l 44 4, rsv l 60 4, rsv l 80 48,
    (List.range b.n).all fun k => decide (8 ≤ pyrSize b.w0 k ∧ 8 ≤ pyrSize b.h0 k),
    if src then al (slotAddr l 16 24 slot) else leAt l 16 8 == 0, al (slotAddr l 32 40 slot),
    if lap then al (slotAddr l 48 56 slot) else leAt l 48 8 == 0,
    if b.op = 3 then al (slotAddr l 64 72 slot) else leAt l 64 8 == 0, al (leAt l 28 4), al (leAt l 76 4),
    !src || decide (pyrSize b.w0 (if b.op = 3 then 1 else 0) * n ≤ leAt l 28 4),
    b.op != 3 || decide (b.w0 * n ≤ leAt l 76 4)]

/-- A level: its codes by line. -/
abbrev Level := List (List Nat)

/-- A pixel of a level of width `w` and height `h`, mirrored about its edges (R292). -/
def pyrPx (g : Level) (w h : Nat) (x y : Int) : Nat :=
  let m (n : Nat) (i : Int) : Nat := (if i < 0 then -i else if (n : Int) ≤ i then 2 * n - 2 - i else i).toNat
  nth 0 (nth [] g (m h y)) (m w x)

/-- R390: the kernel. -/
def pyrK (i : Nat) : Nat := nth 0 [1, 4, 6, 4, 1] i

/-- R390, R391: the weighted sum over taps: FP32 in tap order for FP16, horizontal first; exact otherwise. Each axis
gives its taps as kernel index and coordinate. -/
def pyrSum (fmt : Nat) (px : Int → Int → Nat) (xs ys : List (Nat × Int)) : Nat :=
  if fmt = 8 then
    f32sum (ys.map fun j => f32mul (f32ofInt (pyrK j.1))
      (f32sum (xs.map fun i => f32mul (f32ofInt (pyrK i.1)) (f16to32 (px i.2 j.2)))))
  else sumN (ys.map fun j => pyrK j.1 * sumN (xs.map fun i => pyrK i.1 * px i.2 j.2))

/-- 2^−k as an FP32 code. -/
def f32pow2 (k : Nat) : Nat := f32div (f32ofInt 1) (f32ofInt (2 ^ k : Nat))

/-- R390: the level above `g`, of width `w` and height `h`. -/
def pyrReduce (fmt : Nat) (g : Level) (w h : Nat) : Level :=
  let taps (x : Nat) : List (Nat × Int) := (List.range 5).map fun (i : Nat) => (i, 2 * (x : Int) + i - 2)
  (List.range ((h + 1) / 2)).map fun y => (List.range ((w + 1) / 2)).map fun x =>
    let s := pyrSum fmt (pyrPx g w h) (taps x) (taps y)
    if fmt = 8 then f32to16 (f32mul s (f32pow2 8)) else (s + 128) / 256

/-- R391: the expansion of a level `g` of width `w` and height `h` at a pixel of the level below: an FP32 code for FP16
and the result otherwise. -/
def pyrExpand (fmt : Nat) (g : Level) (w h x y : Nat) : Nat :=
  let taps (x : Nat) : List (Nat × Int) := (List.range 5).filterMap fun (i : Nat) =>
    if (x + i) % 2 = 0 then some (i, ((x : Int) - i + 2) / 2) else none
  let s := pyrSum fmt (pyrPx g w h) (taps x) (taps y)
  if fmt = 8 then f32mul s (f32pow2 6) else min ((s + 32) / 64) (2 ^ (8 * fmtBytes fmt) - 1)

/-- R391: a pixel of the Laplacian level: G less E. -/
def pyrDiff (fmt lfmt g e : Nat) : Nat :=
  if fmt = 8 then f32to16 (f32sub (f16to32 g) e)
  else if lfmt = 3 then wrap 16 ((g : Int) - e)
  else (FFmt.fp16.enc .rne true (FV.ofInt ((g : Int) - e))).1

/-- R391, R46: a pixel restored: L plus E. -/
def pyrRestore (fmt lfmt lap e : Nat) : Nat :=
  let hi : Int := 2 ^ (8 * fmtBytes fmt) - 1
  if fmt = 8 then f32to16 (f32add (f16to32 lap) e)
  else if lfmt = 3 then (clampI 0 hi (sext 16 lap + e)).toNat
  else (toRange .rne 0 0 hi (FFmt.fp32.dec (f32add (f16to32 lap) (f32ofInt e)))).1.toNat

/-- The rows of level `k` of a pyramid surface at `base`. -/
def pyrRows (b : PyrBlk) (base bpp k : Nat) : List (Nat × Nat) :=
  planeRows (base + pyrOff b.w0 b.h0 bpp k) (pyrStride b.w0 bpp k) (pyrSize b.h0 k) (pyrSize b.w0 k * bpp)

/-- A level read. -/
def pyrRead (s : State) (u : Nat) (t : Task) (gen bpp w : Nat) (rows : List (Nat × Nat)) :
    State × Except MemErr (Level × Nat) :=
  bindMem (unitReadRows s u t.sc gen rows) fun s r => (s, .ok (r.1.map (rowPixels bpp w), r.2))

/-- A level as outputs. -/
def pyrOuts (bpp : Nat) (rows : List (Nat × Nat)) (g : Level) : List EngOut :=
  rowOuts ((rows.zip g).map fun p => (p.1.1, p.2.flatMap (leBytes bpp)))

/-- R390: levels `k + 1` on from level `k`. -/
def pyrReduceFrom (b : PyrBlk) (base : Nat) : Nat → Level → List EngOut
  | 0, _ => []
  | m + 1, g =>
    let k := b.n - 1 - (m + 1)
    let n := fmtBytes b.fmt
    let up := pyrReduce b.fmt g (pyrSize b.w0 k) (pyrSize b.h0 k)
    pyrOuts n (pyrRows b base n (k + 1)) up ++ pyrReduceFrom b base m up

/-- R390: a REDUCE stage. -/
def pyrReduceStage (s : State) (u : Nat) (t : Task) (b : PyrBlk) : State × Except MemErr (List EngOut × Nat) :=
  let l := t.block
  let n := fmtBytes b.fmt
  let base := slotAddr l 32 40 t.slot
  let src := if b.copy then planeRows (slotAddr l 16 24 t.slot) (leAt l 28 4) b.h0 (b.w0 * n) else pyrRows b base n 0
  bindMem (pyrRead s u t t.dataGen n b.w0 src) fun s g =>
    (s, .ok ((if b.copy then pyrOuts n (pyrRows b base n 0) g.1 else []) ++ pyrReduceFrom b base (b.n - 1) g.1, g.2))

/-- R391: E at every pixel of level `k` from level `k + 1`. -/
def pyrExpandAll (b : PyrBlk) (k : Nat) (up : Level) (f : Nat → Nat → Nat → Nat) : Level :=
  (List.range (pyrSize b.h0 k)).map fun y => (List.range (pyrSize b.w0 k)).map fun x =>
    f x y (pyrExpand b.fmt up (pyrSize b.w0 (k + 1)) (pyrSize b.h0 (k + 1)) x y)

/-- R391: the Laplacian levels from `k = N − 1 − m` to N − 2. -/
def pyrLaplaceFrom (u : Nat) (t : Task) (b : PyrBlk) : Nat → State → Nat → State × Except MemErr (List EngOut × Nat)
  | 0, s, gen => (s, .ok ([], gen))
  | m + 1, s, gen =>
    let l := t.block
    let k := b.n - 1 - (m + 1)
    let n := fmtBytes b.fmt
    let base := slotAddr l 32 40 t.slot
    bindMem (pyrRead s u t gen n (pyrSize b.w0 k) (pyrRows b base n k)) fun s g =>
      bindMem (pyrRead s u t g.2 n (pyrSize b.w0 (k + 1)) (pyrRows b base n (k + 1))) fun s up =>
        let lap := pyrExpandAll b k up.1 fun x y e => pyrDiff b.fmt b.lfmt (nth 0 (nth [] g.1 y) x) e
        bindMem (pyrLaplaceFrom u t b m s up.2) fun s r =>
          (s, .ok (pyrOuts 2 (pyrRows b (slotAddr l 48 56 t.slot) 2 k) lap ++ r.1, r.2))

/-- R391: the Gaussian levels from `k` down to 0 restored, from level `k + 1`. -/
def pyrCollapseFrom (u : Nat) (t : Task) (b : PyrBlk) :
    Nat → Level → State → Nat → State × Except MemErr (List EngOut × Nat)
  | 0, _, s, gen => (s, .ok ([], gen))
  | k + 1, up, s, gen =>
    let l := t.block
    bindMem (pyrRead s u t gen 2 (pyrSize b.w0 k) (pyrRows b (slotAddr l 48 56 t.slot) 2 k)) fun s lap =>
      let g := pyrExpandAll b k up fun x y e => pyrRestore b.fmt b.lfmt (nth 0 (nth [] lap.1 y) x) e
      let n := fmtBytes b.fmt
      bindMem (pyrCollapseFrom u t b k g s lap.2) fun s r =>
        (s, .ok (pyrOuts n (pyrRows b (slotAddr l 32 40 t.slot) n k) g ++ r.1, r.2))

/-- R391: a COLLAPSE stage. -/
def pyrCollapseStage (s : State) (u : Nat) (t : Task) (b : PyrBlk) : State × Except MemErr (List EngOut × Nat) :=
  let k := b.n - 1
  let n := fmtBytes b.fmt
  bindMem (pyrRead s u t t.dataGen n (pyrSize b.w0 k) (pyrRows b (slotAddr t.block 32 40 t.slot) n k)) fun s g =>
    pyrCollapseFrom u t b k g.1 s g.2

/-- R391: an EXPAND stage. -/
def pyrExpandStage (s : State) (u : Nat) (t : Task) (b : PyrBlk) : State × Except MemErr (List EngOut × Nat) :=
  let l := t.block
  let n := fmtBytes b.fmt
  let rows := planeRows (slotAddr l 16 24 t.slot) (leAt l 28 4) (pyrSize b.h0 1) (pyrSize b.w0 1 * n)
  bindMem (pyrRead s u t t.dataGen n (pyrSize b.w0 1) rows) fun s up =>
    let e := pyrExpandAll b 0 up.1 fun _ _ e => if b.fmt = 8 then f32to16 e else e
    (s, .ok (pyrOuts n (planeRows (slotAddr l 64 72 t.slot) (leAt l 76 4) b.h0 (b.w0 * n)) e, up.2))

/-- R391: a LAPLACE stage. -/
def pyrLaplaceStage (s : State) (u : Nat) (t : Task) (b : PyrBlk) : State × Except MemErr (List EngOut × Nat) :=
  pyrLaplaceFrom u t b (b.n - 1) s t.dataGen

/-- What a pyramid stage computes: its outputs with their data generation. -/
abbrev PyrWork := State → Nat → Task → PyrBlk → State × Except MemErr (List EngOut × Nat)

/-- R389: a stage with its acceptance checks. -/
def pyrWork (u : Nat) (w : PyrWork) (s : State) (_ : Nat) (t : Task) : State × Except EngErr (List EngOut × Nat) :=
  if ¬ pyrBlockOk t.block t.slot then (s, .error (.inr (1, t.pblk)))
  else mem (w s u t (pyrBlk t.block)) fun s r => (s, .ok r)

/-- The stage on engine `i` when its block asks for `op`. -/
def pyrStage (i op : Nat) (w : PyrWork) (s : State) : Res :=
  match engTask s (152 + i) with
  | some (_, t) =>
    .next (if (pyrBlk t.block).op = op then engineWork s (152 + i) (memCode 4) noFinish (pyrWork (152 + i) w) else s)
  | none => .next s

/-- REDUCE (R373, R389, R390): engine `i` builds Gaussian levels. -/
def execReduce (i : Nat) (s : State) : Res := pyrStage i 0 pyrReduceStage s

/-- LAPLACE (R389, R391): engine `i` derives Laplacian levels. -/
def execLaplace (i : Nat) (s : State) : Res := pyrStage i 1 pyrLaplaceStage s

/-- COLLAPSE (R389, R391): engine `i` restores Gaussian levels. -/
def execCollapse (i : Nat) (s : State) : Res := pyrStage i 2 pyrCollapseStage s

/-- EXPAND (R389, R391): engine `i` expands one level. -/
def execExpand (i : Nat) (s : State) : Res := pyrStage i 3 pyrExpandStage s

end Sys2Proof.Machine
end

