-- ==== Sys2Proof/Machine/Stereo.lean ====
section
/-!
DEFINITION. The stereo engines (spec/11_stereo_engine.md): the parameter block and its checks (R317 to R320), census
costs and semi-global aggregation (R321 to R327), special codes (R328, R329) and outputs (R330 to R333).
-/
namespace Sys2Proof.Machine

/-- A stereo parameter block (R317, R318). -/
structure StrBlk where
  nlev : Nat
  census : Nat
  lrc : Bool
  four : Bool
  bpp : Nat
  p1 : Nat
  p2 : Nat
  gsh : Nat
  w0 : Nat
  h0 : Nat
  dmin : Nat
  ndisp : Nat
  range : Nat
  lrt : Nat
  uniq : Nat
  gthr : Nat
  rmarg : Nat
  srch : Nat

/-- R317: a block read. -/
def strBlk (l : List Byte) : StrBlk where
  nlev := leAt l 2 1
  census := bits 5 4 (leAt l 3 1)
  lrc := bit 1 (leAt l 3 1)
  four := bit 0 (leAt l 3 1)
  bpp := if leAt l 4 1 = 4 then 2 else 1
  p1 := leAt l 5 1
  p2 := leAt l 6 1
  gsh := leAt l 7 1
  w0 := leAt l 8 2
  h0 := leAt l 10 2
  dmin := leAt l 12 2
  ndisp := leAt l 14 2
  range := leAt l 16 1
  lrt := leAt l 17 1
  uniq := leAt l 18 2
  gthr := leAt l 20 2
  rmarg := leAt l 22 2
  srch := leAt l 24 2

/-- R323: candidates searched at a level. -/
def StrBlk.cands (b : StrBlk) (l : Nat) : Nat :=
  if l + 1 = b.nlev then b.ndisp / 2 ^ l else min (2 * b.range + 1) (b.ndisp / 2 ^ l)

/-- R335: the scratch a slot needs. -/
def StrBlk.scratch (b : StrBlk) : Nat :=
  let v := if b.lrc then 2 else 1
  let area (l : Nat) := b.w0 / 2 ^ l * (b.h0 / 2 ^ l)
  let part := if b.four then 0 else maxN ((List.range b.nlev).map fun l => 2 * v * area l * b.cands l)
  cdiv (part + sumN ((List.range (b.nlev - 1)).map fun l => 2 * v * area (l + 1))) 4096 * 4096

/-- R320: whether a block of a slot passes the acceptance checks. -/
def strBlockOk (l : List Byte) (slot : Nat) : Bool :=
  let b := strBlk l
  let mode := leAt l 3 1
  let t := b.nlev - 1
  let base := slotAddr l 32 48 slot
  let rbase := slotAddr l 40 52 slot
  let cout := leAt l 112 8
  let lev := List.range b.nlev
  let al (a : Nat) : Bool := a % 64 == 0
  let opt (o so : Nat) : Bool := leAt l o 8 == 0 || al (slotAddr l o so slot)
  allOk [leAt l 0 2 == 1, decide (1 ≤ b.nlev ∧ b.nlev ≤ 4), mode &&& 0xCC == 0, decide (b.census < 3),
    rsv l 26 6, rsv l 56 8, rsv l 156 4, rsv l 172 20, leAt l 4 1 == 2 || leAt l 4 1 == 4,
    decide (1 ≤ b.p1 ∧ b.p1 ≤ 63), decide (b.p1 ≤ b.p2), decide (b.gsh ≤ 7), decide (2 ≤ b.range), decide (b.lrt ≤ 7),
    decide (b.uniq ≤ 1023), decide (b.rmarg ≤ 255), decide (2 ≤ b.srch ∧ b.srch ≤ 16384),
    b.w0 % 2 ^ t == 0, b.h0 % 2 ^ t == 0, lev.all fun k => decide (32 ≤ b.w0 / 2 ^ k ∧ 16 ≤ b.h0 / 2 ^ k),
    decide (b.w0 ≤ 8192 ∧ b.h0 ≤ 8192), b.dmin % 2 ^ t == 0, b.ndisp % 2 ^ t == 0,
    decide (5 ≤ b.ndisp / 2 ^ t ∧ b.ndisp / 2 ^ t ≤ 512), decide (b.dmin + b.ndisp ≤ 2047),
    al base, al rbase, lev.all fun k => al (leAt l (64 + 4 * k) 4)
      && al (leAt l (80 + 4 * k) 4) && decide (b.w0 / 2 ^ k * b.bpp ≤ leAt l (80 + 4 * k) 4),
    al (slotAddr l 96 104 slot), al (leAt l 108 4), decide (2 * b.w0 ≤ leAt l 108 4),
    opt 112 120, cout == 0 || (al (leAt l 124 4) && decide (b.w0 ≤ leAt l 124 4)),
    b.scratch == 0 || al (slotAddr l 128 136 slot), opt 144 152, opt 160 168, decide (b.scratch ≤ leAt l 140 4)]

/-- An image of one level: a code by column and line, and the free value outside. -/
structure StrImg where
  w : Nat
  h : Nat
  rows : List (List Nat)
  sh : Nat

/-- The code of a pixel. -/
def StrImg.px (f : StrImg) (x y : Int) : Nat :=
  if 0 ≤ x ∧ x < f.w ∧ 0 ≤ y ∧ y < f.h then nth 0 (nth [] f.rows y.toNat) x.toNat
  else (Config.strOutside x y).toNat % 2 ^ (8 + f.sh)

/-- The code in 8-bit units (R324). -/
def StrImg.px8 (f : StrImg) (x y : Int) : Nat := f.px x y / 2 ^ f.sh

/-- R321: RX and RY of a census window. -/
def censusRX (c : Nat) : Nat := if c = 0 then 2 else if c = 1 then 3 else 4
def censusRY (c : Nat) : Nat := if c = 0 then 2 else 3

/-- R321: the census code of a pixel, bit by bit. -/
def census (c : Nat) (f : StrImg) (x y : Int) : List Bool :=
  let rx := censusRX c
  let ry := censusRY c
  (List.range (2 * ry + 1)).flatMap fun j => (List.range (2 * rx + 1)).filterMap fun i =>
    if i = rx ∧ j = ry then none else some (decide (f.px (x + i - rx) (y + j - ry) < f.px x y))

/-- R322: the cost of candidate `d` at a pixel of the reference view: 63 where its match is invalid. `right` is true for
the right view. -/
def strCost (c : Nat) (ref oth : StrImg) (right : Bool) (x y d : Nat) : Nat :=
  let xm : Int := if right then (x : Int) + d else (x : Int) - d
  let rx : Int := censusRX c
  if xm < rx ∨ (ref.w : Int) - 1 - xm < rx then 63
  else ((census c ref x y).zip (census c oth xm y)).countP fun p => p.1 != p.2

/-- R323: the first candidate of each pixel from a centre, shifted into the full range. -/
def strLo (b : StrBlk) (l : Nat) (centre : Int) : Nat :=
  let dlo := b.dmin / 2 ^ l
  let n := b.cands l
  let dhi1 := (b.dmin + b.ndisp) / 2 ^ l
  (clampI dlo ((dhi1 : Int) - n) (centre - b.range)).toNat

/-- R323: the centre from a line of results of the level above: the first number at or left of `x`, then right of it. -/
def strCentre (b : StrBlk) (l : Nat) (line : List Nat) (x : Nat) : Int :=
  let num (v : Nat) : Bool := decide (v < 0xFFFC)
  match ((line.take (x + 1)).reverse.find? num).orElse fun _ => (line.drop (x + 1)).find? num with
  | some v => ((2 * v + 16) / 32 : Nat)
  | none => ((b.dmin / 2 ^ l + ((b.dmin + b.ndisp) / 2 ^ l - 1)) / 2 : Nat)

/-- A pixel's candidates on one path: the first candidate and lr of each. -/
abbrev PathNode := Nat × List Nat

/-- R324: lr of a pixel's candidates from its predecessor. -/
def pathStep (p1 p2a lo : Nat) (cost : List Nat) (prev : Option PathNode) : PathNode :=
  match prev with
  | none => (lo, cost)
  | some (plo, pl) =>
    let m := pl.foldl min (nth 0 pl 0)
    let at' (d : Int) : Nat :=
      if (plo : Int) ≤ d ∧ d < plo + pl.length then nth 0 pl (d - plo).toNat else m + p2a
    (lo, cost.zipIdx.map fun c =>
      let d : Int := lo + c.2
      c.1 + min (min (at' d) (at' (d - 1) + p1)) (min (at' (d + 1) + p1) (m + p2a)) - m)

/-- R324: the penalty between a pixel and its predecessor. -/
def strP2a (b : StrBlk) (f : StrImg) (x y px py : Int) : Nat :=
  let g := ((f.px8 x y : Int) - f.px8 px py).natAbs
  max b.p1 (b.p2 / 2 ^ min 3 (g / 2 ^ b.gsh))

/-- R324, R325: lr of every pixel along direction `(dx, dy)`: by line, by column. -/
def strPath (b : StrBlk) (f : StrImg) (lo : Nat → Nat → Nat) (cost : Nat → Nat → List Nat) (dx dy : Int) :
    List (List PathNode) :=
  let ys := if dy < 0 then (List.range f.h).reverse else List.range f.h
  let xs := if dx < 0 then (List.range f.w).reverse else List.range f.w
  let node (y x : Nat) (prev : Option PathNode) : PathNode :=
    pathStep b.p1 (strP2a b f x y (x - dx) (y - dy)) (lo y x) (cost y x) prev
  let row (y : Nat) (above : List PathNode) : List PathNode :=
    if dy = 0 then
      let r := (xs.foldl (fun (acc : List PathNode) x => node y x acc.head? :: acc) []).reverse
      if dx < 0 then r.reverse else r
    else (List.range f.w).map fun (x : Nat) =>
      let px : Int := x - dx
      node y x (if 0 ≤ px then above[px.toNat]? else none)
  let rows := ys.foldl (fun (acc : List (List PathNode)) y => row y (acc.headD []) :: acc) []
  if dy < 0 then rows else rows.reverse

/-- R325: the path directions. -/
def strDirs (b : StrBlk) : List (Int × Int) :=
  [(1, 0), (0, 1), (1, 1), (-1, 1)] ++ (if b.four then [] else [(-1, 0), (0, -1), (-1, -1), (1, -1)])

/-- R328: the gradient energy. -/
def strEnergy (f : StrImg) (x y : Nat) : Nat :=
  sumN ((List.range 5).flatMap fun (j : Nat) => (List.range 5).map fun (i : Nat) =>
    let px : Int := x + i - 2
    let py : Int := y + j - 2
    ((f.px8 (px + 1) py : Int) - f.px8 (px - 1) py).natAbs)

/-- The outcome at a pixel before the left-right check: its code, its winner and its confidence. -/
structure StrPix where
  code : Nat := 0xFFFC
  win : Nat := 0
  conf : Nat := 0

/-- R326 to R328, R331: the outcome of a pixel from its sums. -/
def strPixel (b : StrBlk) (l : Nat) (f : StrImg) (x y lo : Nat) (cost sum : List Nat) : StrPix :=
  let rx := censusRX b.census
  let ry := censusRY b.census
  let best := sum.foldl min (nth 0 sum 0)
  let k := sum.findIdx (· == best)
  let d := lo + k
  let far := (sum.zipIdx.filter fun p => decide (p.2 + 1 < k ∨ k + 1 < p.2)).map Prod.fst
  let s2 := far.foldl min (nth 0 far 0)
  let dlo := b.dmin / 2 ^ l
  let dhi := (b.dmin + b.ndisp) / 2 ^ l - 1
  if x < rx ∨ f.w ≤ x + rx ∨ y < ry ∨ f.h ≤ y + ry ∨ cost.all (· == 63) then {}
  else if d = dlo ∨ d = dhi then { code := 0xFFFD, win := d }
  else if s2 * 1024 ≤ best * (1024 + b.uniq) ∧ strEnergy f x y < b.gthr then { code := 0xFFFE, win := d }
  else
    let o : Int :=
      if k = 0 ∨ k + 1 = sum.length then 0
      else
        let sm : Int := (nth 0 sum (k - 1) : Nat)
        let sp : Int := (nth 0 sum (k + 1) : Nat)
        let den := sm + sp - 2 * best
        if den ≤ 0 then 0
        else
          let num := 16 * (sm - sp)
          clampI (-16) 16 (num.sign * ((num.natAbs + den / 2) / den))
    { code := (d * 32 + o).toNat, win := d, conf := min 255 (max 1 (256 * (s2 - best) / (s2 + 1))) }

/-- R321 to R328: the outcomes of one view at one level, from the level above (none at the top). -/
def strLevel (b : StrBlk) (l : Nat) (ref oth : StrImg) (right : Bool) (above : Option (List (List StrPix))) :
    List (List StrPix) :=
  let lo (y x : Nat) : Nat := match above with
    | none => b.dmin / 2 ^ l
    | some a => strLo b l (strCentre b l ((nth [] a (y / 2)).map StrPix.code) (x / 2))
  let cost (y x : Nat) : List Nat := (List.range (b.cands l)).map fun i => strCost b.census ref oth right x y (lo y x + i)
  let paths := (strDirs b).map fun d => strPath b ref lo cost d.1 d.2
  (List.range ref.h).map fun y => (List.range ref.w).map fun x =>
    let sum := (List.range (b.cands l)).map fun i =>
      sumN (paths.map fun p => nth 0 (nth (0, []) (nth [] p y) x).2 i)
    strPixel b l ref x y (lo y x) (cost y x) sum

/-- The levels of one view, from the top down to level 0. -/
def strView (b : StrBlk) (ref oth : Nat → StrImg) (right : Bool) : Nat → List (List StrPix)
  | 0 => strLevel b (b.nlev - 1) (ref (b.nlev - 1)) (oth (b.nlev - 1)) right none
  | k + 1 =>
    let l := b.nlev - 2 - k
    strLevel b l (ref l) (oth l) right (some (strView b ref oth right k))

/-- R329: the left-right check of the left view against the right one. -/
def strCheck (b : StrBlk) (right : List (List StrPix)) (y x : Nat) (p : StrPix) : StrPix :=
  if p.code ≥ 0xFFFC then { p with conf := 0 }
  else
    let bad := if x < p.win then true else
      let r := nth {} (nth [] right y) (x - p.win)
      decide (0xFFFC ≤ r.code) || decide (b.lrt < ((p.win : Int) - r.win).natAbs)
    if bad then { code := 0xFFFF } else p

/-- R321 to R331: the level-0 outcomes of a pair. -/
def strCompute (b : StrBlk) (left right : Nat → StrImg) : List (List StrPix) :=
  let lv := strView b left right false (b.nlev - 1)
  if ¬ b.lrc then lv.map fun r => r.map fun p => if p.code ≥ 0xFFFC then { p with conf := 0 } else p
  else
    let rv := strView b right left true (b.nlev - 1)
    lv.zipIdx.map fun r => r.1.zipIdx.map fun p => strCheck b rv r.2 p.2 p.1

/-- R332: the summary of a stage on unit `i`. -/
def strSummary (l : List Byte) (t : Task) (i sflags rowlim : Nat) (px : List StrPix) : List Byte :=
  let cnt (c : Nat) : Nat := px.countP fun p => p.code == c
  let meas := px.filter fun p => decide (p.code < 0xFFFC)
  let n := meas.length
  withCrc (leBytes 2 0x20 ++ leBytes 1 t.stream ++ leBytes 1 sflags ++ leBytes 4 t.frame ++ leBytes 4 n
    ++ leBytes 4 (cnt 0xFFFC) ++ leBytes 4 (cnt 0xFFFD) ++ leBytes 4 (cnt 0xFFFE) ++ leBytes 4 (cnt 0xFFFF)
    ++ leBytes 2 rowlim ++ leBytes 2 (if n = 0 then 0 else 256 * sumN (meas.map StrPix.conf) / n)
    ++ leBytes 8 (sumN (meas.map StrPix.code)) ++ leBytes 1 i ++ leBytes 1 (leAt l 2 1) ++ zeros 18)

/-- Reads of one image of a pair: every searched level. -/
def strRead (s : State) (u : Nat) (t : Task) (gen : Nat) (l : List Byte) (base : Nat) :
    State × Except MemErr ((Nat → StrImg) × Nat) :=
  let b := strBlk l
  let rows := (List.range b.nlev).flatMap fun k =>
    planeRows (base + leAt l (64 + 4 * k) 4) (leAt l (80 + 4 * k) 4) (b.h0 / 2 ^ k) (b.w0 / 2 ^ k * b.bpp)
  bindMem (unitReadRows s u t.sc gen rows) fun s r =>
    let first (k : Nat) : Nat := sumN ((List.range k).map fun j => b.h0 / 2 ^ j)
    let img (k : Nat) : StrImg := {
      w := b.w0 / 2 ^ k, h := b.h0 / 2 ^ k, sh := 8 * (b.bpp - 1),
      rows := ((r.1.drop (first k)).take (b.h0 / 2 ^ k)).map (rowPixels b.bpp (b.w0 / 2 ^ k)) }
    (s, .ok (img, r.2))

/-- R330 to R333: the outputs of a stage, line by line, and the summary. -/
def strOuts (u : Nat) (t : Task) (sflags rowlim : Nat) (px : List (List StrPix)) : List EngOut :=
  let l := t.block
  let dout := slotAddr l 96 104 t.slot
  let cout := slotAddr l 112 120 t.slot
  let px := px.zipIdx.map fun r => if rowlim ≤ r.2 then r.1.map fun _ => ({} : StrPix) else r.1
  let lines := px.zipIdx.flatMap fun r =>
    (dout + r.2 * leAt l 108 4, r.1.flatMap fun p => leBytes 2 p.code) ::
      (if leAt l 112 8 = 0 then [] else [(cout + r.2 * leAt l 124 4, r.1.flatMap fun p => leBytes 1 p.conf)])
  let sum := if leAt l 160 8 = 0 then []
    else [(slotAddr l 160 168 t.slot, strSummary l t (u - 132) sflags rowlim px.flatten)]
  rowOuts (lines ++ sum)

/-- R317 to R333: the work of a stereo stage on engine `i`. -/
def strStage (i : Nat) (s : State) (_ : Nat) (t : Task) : State × Except EngErr (List EngOut × Nat) :=
  let u := 132 + i
  let l := t.block
  if ¬ strBlockOk l t.slot then (s, .error (.inr (1, t.pblk)))
  else
    let finfo := leAt l 144 8 != 0
    let fa := slotAddr l 144 152 t.slot
    mem (if finfo then unitRead s u t.sc t.dataGen fa 64 else (s, .ok ([], t.dataGen))) fun s fr =>
      match (if finfo then frameInfoOf fr.1 t.frame else some (0, 0, 0)) with
      | none => (s, .error (.inr (2, fa)))
      | some (fstat, lines, plines) =>
        if finfo ∧ bit 4 fstat then
          let b := strBlk l
          let px := List.replicate b.h0 (List.replicate b.w0 ({} : StrPix))
          (s, .ok (strOuts u t 5 b.h0 px ++ [.count (engBase u + 0x50) 1, .raise (engBase u + 0x20) 2], fr.2))
        else
          let b := strBlk l
          let lim := finfo && (bit 0 fstat || bit 2 fstat)
          let rowlim := if lim then min b.h0 (min lines plines * b.h0 / b.srch - b.rmarg) else b.h0
          mem (strRead s u t fr.2 l (slotAddr l 32 48 t.slot)) fun s left =>
            mem (strRead s u t left.2 l (slotAddr l 40 52 t.slot)) fun s right =>
              let (s, k) := freshUse s
              (s, .ok (scratchOuts (slotAddr l 128 136 t.slot) b.scratch k
                ++ strOuts u t (2 * b2n lim + 4 * b2n finfo) rowlim (strCompute b left.1 right.1), right.2))

/-- STEREO_STAGE (R317 to R333, R335, R339): engine `i` checks its block and computes its stage. -/
def execStereoStage (i : Nat) (s : State) : Res :=
  .next (engineWork s (132 + i) (memCode 4) noFinish (strStage i))

end Sys2Proof.Machine
end

