-- ==== Sys2Proof/Machine/Loader.lean ====
section
/-!
DEFINITION. The loader's checks of a container: steps 1 to 5 of R74. The container is read as R63 to R72 lay it out; the
sequencer program is checked under R127, tensor programs under R468, cost tables under R137, and the parameter blocks that
its `KICK`s name by the checks of their units' chapters. Blocks are judged with nominal addresses in place of those that
placement will write through relocations (log entry 39).
-/
namespace Sys2Proof.Machine

/-! ### The container (R63 to R72) -/

/-- R65: a section-table entry. -/
structure Sect where
  type   : Nat
  flags  : Nat
  off    : Nat
  len    : Nat
  target : Nat

/-- R70: a queue declaration. -/
structure QDecl where
  qid     : Nat
  qmode   : Nat
  nrecv   : Nat
  depth   : Nat
  maxpkt  : Nat
  reserve : Nat
  lag     : Nat

def QDecl.mode (q : QDecl) : Nat := bits 1 0 q.qmode
def QDecl.host (q : QDecl) : Bool := bit 2 q.qmode
def QDecl.lockstep (q : QDecl) : Bool := bit 3 q.qmode

/-- R72: a relocation entry. -/
structure Reloc where
  at_  : Nat
  sect : Nat
  kind : Nat
  sym  : Nat

/-- A container read: its bytes up to LENGTH, header, sections and declarations. -/
structure Xzb where
  data   : List Byte
  hdr    : Header
  sects  : List Sect
  surfs  : List (List Byte)
  queues : List QDecl
  relocs : List Reloc
  lines  : List CostLine
  prog   : List Nat

/-- A byte string cut into entries of `n` bytes; a rest is left out. -/
def cut (n : Nat) (l : List Byte) : List (List Byte) := (List.range (l.length / n)).map fun i => slice l (n * i) n

/-- R63: the header's facts. -/
def headerOf (l : List Byte) : Header :=
  { gid := leAt l 28 4, grev := leAt l 32 4, gflags := leAt l 14 2, cclass := leAt l 36 1, prio := leAt l 37 1,
    eveslots := leAt l 38 1, decim := leAt l 39 1, period := leAt l 40 4, deadline := leAt l 44 4,
    maxrec := leAt l 48 2, nflag := leAt l 50 2, nstage := leAt l 52 2 }

/-- R65: the section table. -/
def sectsOf (l : List Byte) : List Sect :=
  (List.range (min 64 (leAt l 20 4))).map fun i =>
    let o := leAt l 24 4 + 16 * i
    ⟨leAt l o 2, leAt l (o + 2) 2, leAt l (o + 4) 4, leAt l (o + 8) 4, leAt l (o + 12) 4⟩

/-- The bytes of a section. -/
def sectBytes (l : List Byte) (x : Sect) : List Byte := slice l x.off x.len

/-- The bytes of the first section of a type; none where there is no such section. -/
def bodyOf (l : List Byte) (xs : List Sect) (type : Nat) : List Byte :=
  ((xs.find? fun x => x.type == type).map (sectBytes l)).getD []

/-- R136: a cost line. -/
def lineOf (l : List Byte) : CostLine :=
  { stage := leAt l 0 1, type := leAt l 1 1, inst := leAt l 2 1, cores := leAt l 3 1, lflags := leAt l 4 1,
    wcet := [leAt l 8 4, leAt l 12 4, leAt l 16 4], rows := leAt l 20 4, dramb := leAt l 24 8, pix := leAt l 32 4,
    gthr := leAt l 36 2 }

/-- R68: a surface declaration. -/
def surfOf (l : List Byte) : Surface :=
  { sid := leAt l 0 2, kind := leAt l 2 1, attr := leAt l 3 1, size := leAt l 4 4, width := leAt l 8 2, height := leAt l 10 2,
    stride := leAt l 12 4, fmt := leAt l 16 1, qual := leAt l 17 1, levels := leAt l 18 1 }

/-- A container read from its bytes. -/
def xzbOf (l : List Byte) : Xzb :=
  let l := slice l 0 (leAt l 16 4)
  let xs := sectsOf l
  { data := l, hdr := headerOf l, sects := xs, surfs := cut 32 (bodyOf l xs 4),
    queues := (cut 16 (bodyOf l xs 5)).map fun b =>
      ⟨leAt b 0 2, leAt b 2 1, leAt b 3 1, leAt b 4 4, leAt b 8 2, leAt b 10 2, leAt b 12 4⟩,
    relocs := (cut 8 (bodyOf l xs 9)).map fun b => ⟨leAt b 0 4, leAt b 4 1, leAt b 5 1, leAt b 6 2⟩,
    lines := (cut 48 ((bodyOf l xs 7).drop 16)).map lineOf,
    prog := (cut 8 (bodyOf l xs 1)).map leNat }

/-- The first check that fails, of pairs of a check with its status; 0 when all hold. -/
def firstStatus (l : List (Bool × Nat)) : Nat := ((l.find? fun p => !p.1).map Prod.snd).getD 0

/-- The first non-zero status. -/
def orStatus (a : Nat) (b : Unit → Nat) : Nat := if a = 0 then b () else a

/-! ### Steps 1 to 4 -/

/-- R74 step 1, R63, R73, R81: MAGIC and LENGTH, HCRC, versions, reserved fields. -/
def headerStatus (l : List Byte) : Nat := firstStatus [
  (decide (128 ≤ l.length) && leAt l 0 4 == 0x1A425A58 && decide (128 ≤ leAt l 16 4 ∧ leAt l 16 4 ≤ l.length), 0x01),
  (leAt l 124 4 == crc32c (l.take 124), 0x04),
  (leAt l 4 2 == 1 && leAt l 6 2 == 0 && leAt l 8 2 == 1 && leAt l 10 2 == 0x100 && leAt l 12 2 == 0x100, 0x02),
  (decide (leAt l 14 2 < 32) && decide (leAt l 36 1 < 8) && rsv l 54 2 && rsv l 112 12, 0x03)]

/-- R65, R66: how many sections of a type there are. -/
def countType (xs : List Sect) (t : Nat) : Nat := (xs.filter fun x => x.type == t).length

/-- R65: sections that hold no byte in common. -/
def apart (a b : Sect) : Bool := a.len == 0 || b.len == 0 || decide (a.off + a.len ≤ b.off ∨ b.off + b.len ≤ a.off)

/-- R65: no two sections overlap. -/
def allApart : List Sect → Bool
  | [] => true
  | x :: t => t.all (apart x) && allApart t

/-- R74 step 2, R63, R65, R66: the section table. -/
def sectionStatus (l : List Byte) (xs : List Sect) : Nat :=
  let n := leAt l 20 4
  let off := leAt l 24 4
  let len := leAt l 16 4
  let stop := off + 16 * n
  let progs := (xs.filter fun x => x.type == 2).map Sect.target
  firstStatus [
    (decide (1 ≤ n ∧ n ≤ 64) && off % 16 == 0 && decide (128 ≤ off ∧ stop ≤ len), 0x07),
    (xs.all fun x => decide (1 ≤ x.type ∧ x.type ≤ 11 ∧ x.flags < 16), 0x03),
    (xs.all fun x => x.off % 64 == 0 && decide (128 ≤ x.off ∧ x.off + x.len ≤ len)
      && (x.len == 0 || decide (x.off + x.len ≤ off ∨ stop ≤ x.off)), 0x07),
    (allApart xs, 0x07),
    (progs.all (fun t => decide (t < 64)) && progs.eraseDups.length == progs.length
      && (xs.all fun x => x.type == 2 || x.target == 0), 0x07),
    ([1, 6, 7].all (fun t => countType xs t == 1) && [3, 4, 5, 9, 10, 11].all (fun t => decide (countType xs t ≤ 1)), 0x07)]

/-- R63: whether DIGEST is the digest of the container, with the bytes of a SIGNATURE section taken as zero. -/
def digestOk (l : List Byte) (xs : List Sect) : Bool :=
  let z := (xs.filter fun x => x.type == 10).foldl (fun l x => l.take x.off ++ zeros x.len ++ l.drop (x.off + x.len)) l
  (Config.sha384 (z.drop 128)).toNat == beNat (slice l 64 48)

/-- R67, R563: whether the container is signed as it must be: under an unrevoked key of the provisioning record. -/
def signatureOk (s : State) (l : List Byte) (xs : List Sect) : Bool :=
  match xs.find? fun x => x.type == 10 with
  | none => leAt l 14 2 % 4 == 0
  | some x => x.len == 96 && (s.fwl.prov.map ProvRecord.keys |>.getD []).any fun k =>
      !k.2 && Config.ecdsaOk k.1 (Config.sha384 (l.take 112)) (sectBytes l x)

/-! ### The sequencer program (R97, R127) -/

/-- R97: the fields of an opcode, as bit ranges, for a word that holds it; none for an undefined opcode. -/
def seqFields (w : Nat) : Option (List (Nat × Nat)) :=
  let op := bits 63 56 w
  let i := bit 51 w
  if op = 0x00 then some []
  else if op = 0x01 then some [(15, 0)]
  else if op = 0x09 then some [(55, 52), (51, 51), (50, 46), (45, 41), if i then (31, 0) else (40, 36)]
  else if op = 0x10 then
    some [(55, 54), (53, 50), (49, 49), (45, 41), (10, 0), if bit 49 w then (31, 16) else (40, 36)]
  else if op = 0x11 then some [(45, 41)]
  else if op = 0x20 then some [(50, 46), (40, 36)]
  else if op = 0x21 then some [(55, 54), (52, 52), (15, 0), if bit 52 w then (39, 32) else (45, 41)]
  else if op = 0x22 then some [(55, 54), (45, 41), (15, 0)]
  else if op = 0x30 then some [(47, 40), (31, 0)]
  else if op = 0x40 then some [(55, 54), (53, 44), (43, 36), (35, 35), (31, 12)]
  else if op = 0x41 then some [(55, 54), (45, 41), (35, 12)]
  else if op = 0x50 then some [(55, 54), (53, 52), (51, 51), (39, 32), if i then (31, 0) else (45, 41)]
  else if op = 0x51 ∨ op = 0x52 then
    some [(55, 54), (52, 52), (51, 51), (50, 46), (39, 32), if i then (31, 0) else (45, 41)]
  else if op = 0x58 then some [(55, 54), (53, 52)]
  else if op = 0x60 then some [(55, 54), (53, 53), (52, 48), (47, 32)]
  else if op = 0x61 then some [(53, 53), (52, 48), (47, 32)]
  else if op = 0x70 then some [(49, 48), (47, 47), (23, 0)]
  else if op = 0x71 then some [(49, 48)]
  else if op = 0x72 then some [(55, 54), (50, 46), (42, 40)]
  else if op = 0x78 then some [(53, 44), (43, 36), (31, 24)]
  else none

/-- R95, R98, R99, R106, R116, R118, R122, R123: a field that uses a reserved encoding. -/
def seqResv (w : Nat) : Bool :=
  let op := bits 63 56 w
  let ssel := [0x10, 0x21, 0x22, 0x40, 0x41, 0x50, 0x51, 0x52, 0x58, 0x60, 0x72].contains op
  (ssel && bit 55 w) || (op == 0x09 && decide (12 ≤ bits 55 52 w)) || (op == 0x10 && decide (12 ≤ bits 53 50 w))
    || (op == 0x22 && (bits 15 0 w == 0 || decide (14 ≤ bits 15 0 w)))
    || ((op == 0x50 || op == 0x58) && bits 53 52 w == 3) || (op == 0x70 && bits 23 0 w == 0)
    || (op == 0x72 && decide (6 ≤ bits 42 40 w))

/-- R97: a defined opcode with every bit the table does not give 0 and no reserved encoding. -/
def seqEncOk (w : Nat) : Bool :=
  match seqFields w with
  | none => false
  | some fs =>
    let named := ((63, 56) :: fs).foldl (fun a f => a.lor ((2 ^ (f.1 + 1 - f.2) - 1) * 2 ^ f.2)) 0
    w.lor named == named && !seqResv w

/-- R108: whether a TGT names a unit type and an instance of it. -/
def tgtExists (ty i : Nat) : Bool :=
  decide (ty ≤ 9) && (decide (i < instances ty) || (i == 0x3F && (decide (ty ≤ 4) || ty == 6)))

/-- R686: the system queues of which a unit or sequencer of a graph may be a receiver (R619, R651). -/
def receivable (q : Nat) : Bool := [3968, 3969, 3972, 3976, 3977, 3980, 3981].contains q

/-- R686: whether a graph of a world may name queue `q` in an instruction; `recv` is the receiver a dequeue names, which no loaded
graph must name on a system queue. -/
def qidOk (s : State) (secure : Bool) (qs : List QDecl) (recv : Option Nat) (q : Nat) : Bool :=
  if q < 3968 then qs.any fun d => d.qid == q
  else decide (q < 4096) && qValid s q && (getQ s q).cfg.world == secure &&
    (match recv with
    | none => true
    | some r => receivable q && !s.graphs.any fun p => p.2.pl.sysRecv.contains (q, r))

/-- What R127 judges a program by. -/
structure ProgCtx where
  n      : Nat
  secure : Bool
  hdr    : Header
  len    : Nat
  params : Nat
  queues : List QDecl
  tcs    : List Nat

/-- R127: the checks of one instruction. -/
def seqWordOk (s : State) (x : ProgCtx) (w : Nat) : Bool :=
  let op := bits 63 56 w
  let flagged (f : Nat) := decide (f < x.hdr.nflag)
  let qid := bits 47 32 w
  let ty := bits 53 50 w
  let inst := bits 49 44 w
  let worldOk := (ty != 5 && ty != 9 && inst == 0x3F) || ty == 5 || unitWorld s (unitOfType ty inst) == x.secure
  seqEncOk w
    && (op != 0x10 || decide (bits 10 0 w < x.len))
    && (!(op == 0x50 || op == 0x51 || op == 0x52 || (op == 0x21 && bit 52 w)) || flagged (bits 39 32 w))
    && (!(op == 0x40 || op == 0x78) || (flagged (bits 43 36 w) && tgtExists ty inst && worldOk))
    && (op != 0x30 || decide (bits 47 40 w < x.hdr.nstage))
    && (op != 0x40 || (ty != 9 && decide (64 * bits 31 12 w < x.params) && (ty != 5 || x.tcs.contains inst)))
    && (op != 0x41 || decide (4 * bits 35 12 w < x.params))
    && (op != 0x78 || (x.n == 17 && ty != 5))
    && (op != 0x60 || (!bit 48 w && qidOk s x.secure x.queues none qid
          && !x.queues.any fun d => d.qid == qid && d.host))
    && (op != 0x61 || (!bit 48 w && qidOk s x.secure x.queues (some 0) qid))

/-- A stage of a program: the `KICK` in program order, its number in the program, and the STAGE of the `WIN` it takes (log
entry 40). -/
structure StageUse where
  pc    : Nat
  win   : Option Nat
  type  : Nat
  inst  : Nat
  pbidx : Nat

/-- The stages of a program's words from number `pc` on, with the window pending there. -/
def stagesFrom (pc : Nat) : Option Nat → List Nat → List StageUse
  | _, [] => []
  | win, w :: t =>
    let op := bits 63 56 w
    if op = 0x30 then stagesFrom (pc + 1) (some (bits 47 40 w)) t
    else if op = 0x40 then
      { pc := pc, win := win, type := bits 53 50 w, inst := bits 49 44 w, pbidx := bits 31 12 w } :: stagesFrom (pc + 1) none t
    else if op = 0x78 then stagesFrom (pc + 1) none t
    else stagesFrom (pc + 1) win t

/-- The stages of a program. -/
def stagesOf (l : List Nat) : List StageUse := stagesFrom 0 none l

/-! ### Relocations and blocks (R72, R107, R320) -/

/-- Bytes replaced in a byte string, as far as it reaches. -/
def setBytes (l : List Byte) (o : Nat) (b : List Byte) : List Byte := (l.take o ++ b ++ l.drop (o + b.length)).take l.length

/-- What relocations resolve to. -/
structure Resolve where
  surf  : Nat → Nat
  queue : Nat → Nat
  base  : Nat
  entry : Nat → Nat

/-- R72: the bytes that a relocation writes. -/
def Reloc.bytes (r : Resolve) (x : Reloc) : List Byte :=
  if x.kind = 0 then leBytes 8 (r.surf x.sym) else if x.kind = 1 then leBytes 2 (r.queue x.sym)
  else if x.kind = 2 then leBytes 2 r.base else leBytes 4 (r.entry x.sym)

/-- R72: the bytes of section `i` with its relocations applied. -/
def relocated (x : Xzb) (r : Resolve) (i : Nat) (l : List Byte) : List Byte :=
  (x.relocs.filter fun e => e.sect == i).foldl (fun l e => setBytes l e.at_ (e.bytes r)) l

/-- The nominal values under which blocks are judged before placement: aligned addresses, and queues by their graph-local
numbers (log entry 39). -/
def nominal : Resolve := ⟨fun _ => Config.somBase, fun q => q, 4096, fun _ => Config.somBase⟩

/-- The PARAMS section, relocated. -/
def paramsOf (x : Xzb) (r : Resolve) : List Byte :=
  match x.sects.findIdx? fun y => y.type == 3 with
  | some i => relocated x r i (bodyOf x.data x.sects 3)
  | none => []

/-- The parameter block of a stage. -/
def StageUse.block (u : StageUse) (params : List Byte) : List Byte := slice params (64 * u.pbidx) 1024

/-- R320, R344, R355, R365, R383, R389, R438, R478: whether the block of a stage passes the checks of its unit's chapter,
in every slot. -/
def blockOk (x : Xzb) (u : StageUse) (l : List Byte) : Bool :=
  let each (f : List Byte → Nat → Bool) (n : Nat) : Bool := (List.range 4).all fun i => f (l.take n) i
  if u.type = 0 then each strBlockOk 192
  else if u.type = 1 then each flwBlockOk 192
  else if u.type = 2 then each detBlockOk 128 || each matchBlockOk 128
  else if u.type = 3 then each (fun l _ => wrpBlockOk l) 128
  else if u.type = 4 then each pyrBlockOk 128
  else if u.type = 5 then
    tcBlockOk l (((x.queues.find? fun q => q.qid == leAt l 4 2).map QDecl.nrecv).getD 0)
  else if u.type = 6 then
    let gthr := (u.win.bind fun w => x.lines.find? fun c => c.stage == w).map CostLine.gthr
    gthBlockOk (l.take 64) && (match gthr with
      | some g => decide (leAt l 12 1 * leAt l 10 2 ≤ g)
      | none => true)
  else true

/-- R265: whether a stage's block is LONG. -/
def StageUse.long (u : StageUse) (l : List Byte) : Bool := u.type == 7 && bit 3 (leAt l 10 1)

/-- R242: the served stages whose blocks set ORDERED, by the numbers of their `KICK`s. -/
def orderedStages (us : List StageUse) (params : List Byte) : List Nat :=
  (us.filter fun u => (u.type == 5 || u.type == 6) && leAt (u.block params) 3 1 % 4 == 3).map StageUse.pc

/-- The symbols of the relocations of a kind that write a field of a stage's parameter block. -/
def fieldSyms (x : Xzb) (kind : Nat) (u : StageUse) (o : Nat) : List Nat :=
  match x.sects.findIdx? fun y => y.type == 3 with
  | some i => (x.relocs.filter fun r => r.sect == i && r.kind == kind && r.at_ == 64 * u.pbidx + o).map Reloc.sym
  | none => []

/-- R69: the address fields of a stage's block to which the unit writes with the generation of its data: outputs and scratch.
The inverse of a warp descriptor is usually not EVECAP (R386), and a decode stage writes with generation 0 (R513). -/
def eveOutputs (u : StageUse) (l : List Byte) : List Nat :=
  if u.type = 0 then [96, 112, 160] ++ (if (strBlk l).scratch = 0 then [] else [128])
  else if u.type = 1 then [96, 112, 168] ++ (if (flwBlk l).scratch = 0 then [] else [128])
  else if u.type = 2 then (if leAt l 0 2 = 3 then [40, 72] else [72, 88])
  else if u.type = 3 then (if (wrpBlk l).gen then [112] else [56, 80, 112])
  else if u.type = 4 then [32, 48, 64]
  else []

/-- R69: every surface that a stage writes, as far as a relocation of its block names it, is declared EVECAP (log entry 118). -/
def outputsEve (x : Xzb) (params : List Byte) (u : StageUse) : Bool :=
  (eveOutputs u (u.block params)).all fun o => (fieldSyms x 0 u o).all fun sid =>
    x.surfs.all fun b => leAt b 0 2 != sid || bit 0 (leAt b 3 1)

/-- R71: no block of a feature engine names the HOST queue as its output. -/
def outputNotHost (x : Xzb) (params : List Byte) (u : StageUse) : Bool :=
  let l := u.block params
  u.type != 2 || !bit 1 (leAt l 7 1) || (fieldSyms x 1 u (if leAt l 0 2 = 3 then 52 else 10)).all fun q =>
    x.queues.all fun d => d.qid != q || !d.host

/-! ### Tensor programs (R468) -/

/-- The words of a tensor program. -/
def tcWords (l : List Byte) : List (BitVec 128) := tcProgram (l.length / 16) l

/-- R468: the checks of a program. -/
def tcprogOk (s : State) (secure : Bool) (x : Xzb) (l : List Byte) : Bool :=
  let host (q : Nat) : Bool := x.queues.any fun d => d.qid == q && d.host
  decide (l.length ≤ 65536) && l.length % 16 == 0 && (tcWords l).all fun w =>
    tcWordOk (l.length / 16) x.hdr.nflag
      (fun q => !host q && qidOk s secure x.queues (if wOp w = 0x12 then some (wf w 83 81) else none) q) w

/-! ### Declarations -/

/-- R63, R138, R537: the header's ranges, and what the lantern graph must be. -/
def headerRanges (n : Nat) (h : Header) : Bool :=
  let lim (lo hi v : Nat) := decide (lo ≤ v ∧ v ≤ hi)
  lim 0 31 h.prio && lim 1 2 h.eveslots && lim 1 8 h.decim && lim 1 256 h.maxrec && lim 1 256 h.nflag
    && lim 1 256 h.nstage && (n == 17 || h.deadline == 0 || lim 1 0xFFFFFFFF h.period)
    && (n != 17 || (bit 1 h.gflags && bit 3 h.gflags && lim 200000 60000000 h.period))

/-- R137: a WCET field of a class present, or absent. -/
def wcetOk (cclass c v : Nat) : Bool := if bit c cclass then decide (1 ≤ v ∧ v < 0xFFFFFFFF) else v == 0xFFFFFFFF

/-- R136: the ranges of a cost line; `b` is its image. -/
def lineOk (h : Header) (l : CostLine) (b : List Byte) : Bool :=
  decide (l.stage < h.nstage) && tgtExists l.type l.inst
    && (if l.type = 5 ∨ l.type = 9 then decide (1 ≤ l.cores ∧ l.cores ≤ 64) else l.cores == 1)
    && decide (l.lflags < 2) && rsv b 5 3 && rsv b 38 10
    && ((List.range 3).all fun c => wcetOk h.cclass c (nth 0 l.wcet c))
    && (l.type == 8 || l.pix == 0) && (l.type == 6 || l.gthr == 0)

/-- R135 to R137: the cost table. -/
def costOk (x : Xzb) : Bool :=
  let b := bodyOf x.data x.sects 7
  let n := leAt b 2 2
  decide (16 ≤ b.length) && b.length == 16 + 48 * n && leAt b 0 2 == 1 && n == x.hdr.nstage
    && leAt b 4 1 == x.hdr.cclass && decide (1 ≤ leAt b 5 1 ∧ leAt b 5 1 ≤ 16) && rsv b 6 10
    && (x.lines.zip (cut 48 (b.drop 16))).all (fun p => lineOk x.hdr p.1 p.2)
    && (x.lines.map CostLine.stage).eraseDups.length == x.lines.length

/-- R68: the reserved fields and encodings of a surface declaration. -/
def surfResvOk (b : List Byte) : Bool :=
  let f := surfOf b
  decide (f.kind ≤ 1 ∧ f.attr < 16 ∧ f.fmt < 15 ∧ f.qual < 64) && rsv b 19 13

/-- R388: a pyramid surface has the canonical layout. -/
def levelsOk (f : Surface) : Bool :=
  let bpp := fmtWidth f.fmt / 8
  f.levels == 1 || (f.stride == pyrStride f.width bpp 0 && decide (pyrOff f.width f.height bpp f.levels ≤ f.size)
    && (List.range f.levels).all fun l => decide (8 ≤ pyrSize f.width l ∧ 8 ≤ pyrSize f.height l))

/-- R34, R68, R167, R388, R546: the ranges of a surface declaration. -/
def surfOk (secure : Bool) (f : Surface) : Bool :=
  f.size % 64 == 0 && f.stride % 64 == 0 && (f.fmt == 14 || f.qual == 0) && decide (1 ≤ f.levels ∧ f.levels ≤ 8)
    && (!bit 1 f.attr || secure) && (!(bit 0 f.attr && bit 2 f.attr) || f.size % 4096 == 0) && levelsOk f

/-- R70, R71, R209, R686: the ranges of a queue declaration. -/
def queueOk (h : Header) (q : QDecl) : Bool :=
  decide (q.qid < 3968 ∧ 1 ≤ q.nrecv ∧ q.nrecv ≤ 8 ∧ 1 ≤ q.maxpkt) && (q.mode == 2 || q.nrecv == 1)
    && (q.mode != 0 || decide (q.maxpkt ≤ q.reserve)) && (!q.lockstep || q.mode == 2)
    && (!q.host || (q.mode == 0 && decide (2 * h.maxrec + 1 ≤ q.reserve)))
    && (q.mode != 2 || q.lockstep || decide (q.maxpkt ≤ q.lag ∧ q.lag + q.maxpkt ≤ q.depth ∧ q.lag ≤ q.reserve))

/-- R71: how many HOST queues the graph must declare. -/
def hostCount (n : Nat) (prog : List Nat) : Nat :=
  if n < 16 ∨ prog.any (fun w => bits 63 56 w == 0x20) then 1 else 0

/-- R210: the receivers that a stage names: its block's served input and the `LDQ`s of its program. -/
def namedRecvs (x : Xzb) (params : List Byte) (u : StageUse) : List (Nat × Nat) :=
  let b := u.block params
  (if (u.type = 5 ∨ u.type = 6) ∧ bit 0 (leAt b 3 1) then [(leAt b 4 2, leAt b 6 1)] else [])
    ++ (if u.type = 5 then
      (x.sects.filter fun y => y.type == 2 && y.target == u.inst).flatMap fun y =>
        ((tcWords (sectBytes x.data y)).filter fun w => wOp w == 0x12).map fun w => (wf w 47 32, wf w 83 81)
      else [])

/-- R210: a LOCKSTEP declaration: every receiver named, each stage that names one windowed and on the PATH, no `DEQ`. -/
def lockstepOk (x : Xzb) (us : List StageUse) (params : List Byte) (q : QDecl) : Bool :=
  let users := us.filter fun u => (namedRecvs x params u).any fun r => r.1 == q.qid
  let onPath (u : StageUse) : Bool :=
    ((u.win.bind fun w => x.lines.find? fun l => l.stage == w).map fun l => bit 0 l.lflags).getD false
  !q.lockstep || ((List.range q.nrecv).all (fun r => us.any fun u => (namedRecvs x params u).contains (q.qid, r))
    && users.all onPath && x.prog.all fun w => !(bits 63 56 w == 0x61 && bits 47 32 w == q.qid))

/-- R104: the record area. -/
def recordAreaOk (h : Header) (fs : List Surface) : Bool :=
  fs.any fun f => f.sid == 0 && f.kind == 0 && bit 2 f.attr && bit 0 f.attr && decide (h.maxrec * 128 ≤ f.size)

/-! ### Pipeline outputs (R296, R297, R309) -/

/-- R309: whether `p` and `q` are a pair, `p` its primary. -/
def isPair (s : State) (p q : Nat) : Bool :=
  let a := cfg s p 0x1C
  let b := cfg s q 0x1C
  p != q && bit 31 a && !bit 30 a && bits 19 16 a == q && bit 31 b && bit 30 b && bits 19 16 b == p

/-- R309: the partner of a primary pipeline. -/
def pairOf (s : State) (p : Nat) : Option Nat := (List.range 16).find? (isPair s p)

/-- R309: whether pipeline `q` is the partner of a pair. -/
def isPartner (s : State) (q : Nat) : Bool := (List.range 16).any fun p => isPair s p q

/-- R280, R296, R297, R316: the ranges of a pipeline's configuration. -/
def pipeCfgOk (s : State) (n : Nat) : Bool :=
  let w := bits 13 0 (cfg s n 0x14)
  let h := bits 30 16 (cfg s n 0x14)
  let pair := cfg s n 0x1C
  let out (o : Nat) (fmts : List Nat) : Bool :=
    let sz := cfg s n (0x20 + 8 * o)
    let ow := bits 13 0 sz
    let oh := bits 29 16 sz
    !bit 31 (cfg s n (0x24 + 8 * o)) || (ow % 2 == 0 && oh % 2 == 0
      && decide (16 ≤ ow ∧ 16 ≤ oh ∧ cdiv w 16 ≤ ow ∧ ow ≤ w ∧ cdiv h 16 ≤ oh ∧ oh ≤ h)
      && fmts.contains (bits 3 0 (cfg s n (0x24 + 8 * o))))
  let dt := bits 13 8 (cfg s n 0x10)
  decide (0x2A ≤ dt ∧ dt ≤ 0x2E) && bits 9 8 (cfg s n 0x40) != 0
    && decide (64 ≤ w ∧ w ≤ 8192 ∧ 2 ≤ h ∧ h ≤ 16384 ∧ w * h ≤ 8388608) && w % 2 == 0 && h % 2 == 0
    && decide (bits 2 0 (cfg s n 0x18) ≤ 4) && (!bit 31 pair || bits 13 0 pair != 0)
    && out 0 [0, 1] && out 1 [0, 2, 3]

/-- R296: the surface FMT, WIDTH and HEIGHT of output `o` (0 full, 1 analysis, 2 statistics) of a pipeline; none where
the pipeline does not make it. -/
def outShape (s : State) (n o : Nat) : Option (Nat × Nat × Nat) :=
  if o = 2 then some (2, 8192, 1)
  else
    let ctl := cfg s n (0x24 + 8 * o)
    let w := bits 13 0 (cfg s n (0x20 + 8 * o))
    let h := bits 29 16 (cfg s n (0x20 + 8 * o))
    if ¬ bit 31 ctl then none
    else
      let f := bits 3 0 ctl
      some (if f = 1 then 4 else 2, w, if f = 2 then 3 * h else if f = 3 then h else 3 * h / 2)

/-- R296, R297: whether a surface that stands for a pipeline output matches the configuration. -/
def outputOk (s : State) (n : Nat) (f : Surface) : Bool :=
  if f.sid = 0 ∨ 6 < f.sid then true
  else
    let src := if f.sid ≤ 3 then some n else pairOf s n
    match src.bind fun m => outShape s m ((f.sid - 1) % 3) with
    | none => false
    | some (fmt, w, h) => bit 2 f.attr && f.fmt == fmt && f.width == w && f.height == h && decide (f.stride * f.height ≤ f.size)

/-- R297: the pipelines of a stream graph, with its outputs. -/
def pipesOk (s : State) (n : Nat) (fs : List Surface) : Bool :=
  let paired := bit 31 (cfg s n 0x1C)
  pipeCfgOk s n && (!paired || (match pairOf s n with
    | some q => pipeCfgOk s q
    | none => false)) && fs.all (outputOk s n)

/-! ### Step 5 -/

/-- R72: the bytes a relocation writes. -/
def relocWidth (k : Nat) : Nat := if k = 0 then 8 else if k = 3 then 4 else 2

/-- R72: the status of one relocation. -/
def relocStatus (x : Xzb) (r : Reloc) : Nat :=
  let ok := match x.sects[r.sect]? with
    | some y => decide (1 ≤ y.type ∧ y.type ≤ 3 ∧ r.at_ + relocWidth r.kind ≤ y.len)
    | none => false
  let sym := if r.kind = 0 then x.surfs.any fun b => leAt b 0 2 == r.sym
    else if r.kind = 1 then x.queues.any fun q => q.qid == r.sym
    else if r.kind = 2 then r.sym == 0
    else x.sects.any fun y => y.type == 2 && y.target == r.sym
  firstStatus [(decide (r.kind ≤ 3), 0x03), (ok, 0x09), (sym, 0x09)]

/-- The first status of a list of checks that are statuses. -/
def statuses (l : List Nat) : Nat := (l.find? (· != 0)).getD 0

/-- R75, R546: the worlds: of the command, of the sequencer, and of the pipelines of a stream graph. -/
def worldsOk (s : State) (b n : Nat) (secure : Bool) : Bool :=
  (!secure || boxSecure b) && unitWorld s (176 + n) == secure
    && (16 ≤ n || (unitWorld s (160 + n) == secure
      && (match pairOf s n with
        | some q => unitWorld s (160 + q) == secure
        | none => true)))

/-- R127, R210, R265, R320, R495: the checks of the program with the blocks its stages name. -/
def programOk (s : State) (n : Nat) (x : Xzb) : Bool :=
  let secure := bit 1 x.hdr.gflags
  let params := paramsOf x nominal
  let us := stagesOf x.prog
  let timed := n != 17 && x.hdr.deadline != 0
  let t := x.hdr.period * x.hdr.decim
  let ctx : ProgCtx := ⟨n, secure, x.hdr, x.prog.length, params.length, x.queues,
    (x.sects.filter fun y => y.type == 2).map Sect.target⟩
  x.prog.all (seqWordOk s ctx) && us.all (fun u => blockOk x u (u.block params) && outputsEve x params u && outputNotHost x params u)
    && us.all (fun u => !u.long (u.block params) || (!timed && u.inst != 0x3F
        && !s.graphs.any fun p => p.2.pl.longs.contains u.inst))
    && us.all (fun u => !(u.type == 8 && u.inst == 0 && (timed || n == 17))
        || decide (leAt (u.block params) 8 2 * leAt (u.block params) 10 2 * 1000000 ≤ 1069547520 * t))
    && x.queues.all (lockstepOk x us params) && decide ((orderedStages us params).length ≤ 960)

/-- R74 step 5, after the worlds and the pairing: the declarations in the order header, sections, cost table, surfaces,
queues, flags, programs, record area and pipeline outputs, then the relocations (log entry 41). -/
def declStatus (s : State) (n : Nat) (x : Xzb) : Nat :=
  let secure := bit 1 x.hdr.gflags
  let fs := x.surfs.map surfOf
  let host := x.queues.filter QDecl.host
  let seqprog := bodyOf x.data x.sects 1
  statuses [
    firstStatus [(headerRanges n x.hdr, 8),
      (x.sects.all fun y => (!bit 0 y.flags || secure) && !(y.type == 8 && bit 1 y.flags), 8),
      (costOk x, 8), (bit s.cls x.hdr.cclass, 0x0C), ((bodyOf x.data x.sects 4).length % 32 == 0, 8)],
    statuses (x.surfs.map fun b => firstStatus [(surfResvOk b, 3), (surfOk secure (surfOf b), 8)]),
    firstStatus [((fs.map Surface.sid).eraseDups.length == fs.length, 8), ((bodyOf x.data x.sects 5).length % 16 == 0, 8)],
    statuses (x.queues.map fun q => firstStatus [(q.mode != 3 && decide (q.qmode < 16), 3), (queueOk x.hdr q, 8)]),
    firstStatus [((x.queues.map QDecl.qid).eraseDups.length == x.queues.length, 8),
      (host.length == hostCount n x.prog, 8),
      ((bodyOf x.data x.sects 6).length == 4 * x.hdr.nflag, 8),
      (seqprog.length % 8 == 0 && decide (seqprog.length ≤ 16384), 8),
      (programOk s n x, 8),
      ((x.sects.filter fun y => y.type == 2).all fun y => tcprogOk s secure x (sectBytes x.data y), 8),
      ((16 ≤ n && host.isEmpty) || recordAreaOk x.hdr fs, 8),
      (decide (16 ≤ n) || pipesOk s n fs, 8),
      ((bodyOf x.data x.sects 9).length % 8 == 0, 8)],
    statuses (x.relocs.map (relocStatus x))]

/-- R74 steps 1 to 5 on the staged bytes, for a command of box `b` and sequencer `n`: the status of the first step that
fails, or 0. -/
def loadStatus (s : State) (b n : Nat) (l : List Byte) : Nat :=
  orStatus (headerStatus l) fun _ =>
  let d := slice l 0 (leAt l 16 4)
  let xs := sectsOf d
  orStatus (sectionStatus d xs) fun _ =>
  let x := xzbOf d
  firstStatus [(digestOk d xs, 5), (signatureOk s d xs, 6), (worldsOk s b n (bit 1 x.hdr.gflags), 0x0B),
    (bit 3 x.hdr.gflags == decide (16 ≤ n), 8)]
  |> fun r => orStatus r fun _ => declStatus s n x

end Sys2Proof.Machine
end

