-- ==== Sys2Proof/Machine/Graphs.lean ====
section
/-!
DEFINITION. Graph commands (R61, R74 to R80, R145 to R150, R185, R242, R297, R473, R474, R550, R607): admission of a staged
container, its placement, start, stop, replacement and unloading; the almanac, the cooling class and the table registry.
-/
namespace Sys2Proof.Machine

/-! ### The graph a container gives -/

/-- R139: bytes rounded up to 4 KiB. -/
def align4k (n : Nat) : Nat := cdiv n 4096 * 4096

/-- R139: the capacity that a placement of `b` bytes costs in DRAM. -/
def dramCost (ecc : Bool) (b : Nat) : Nat := if ecc then align4k (cdiv (align4k b * 8) 7) else align4k b

/-- R69: whether a placement that asks for ECC, or not, has it in DRAM. -/
def eccOf (h : Header) (asked : Bool) : Bool := asked || bit 0 h.gflags || bit 1 h.gflags

/-- R139: bytes of all copies of a surface. -/
def surfBytes (f : Surface) : Nat := f.size * (if bit 2 f.attr then 4 else 1)

/-- R139: whether a section is loaded, and its placed size. -/
def loadedSect (y : Sect) : Bool := [1, 2, 3, 8].contains y.type
def placeBytes (y : Sect) : Nat := if y.type = 3 then 4 * (cdiv y.len 64 * 64) else y.len

/-- The graph that a container declares, not yet placed. -/
def graphOf (x : Xzb) : Graph :=
  let fs := x.surfs.map surfOf
  let ld := x.sects.filter loadedSect
  { hdr := x.hdr, nrule := leAt (bodyOf x.data x.sects 7) 5 1, lines := x.lines,
    som := sumN ((fs.filter fun f => f.kind == 0).map surfBytes) + sumN ((ld.filter fun y => bit 2 y.flags).map placeBytes),
    dram := sumN ((fs.filter fun f => f.kind == 1).map fun f => dramCost (eccOf x.hdr (bit 3 f.attr)) (surfBytes f))
      + sumN ((ld.filter fun y => !bit 2 y.flags).map fun y => dramCost (eccOf x.hdr (bit 3 y.flags)) (placeBytes y)),
    cells := sumN (x.queues.map QDecl.reserve),
    wins := (x.prog.filter fun w => bits 63 56 w == 0x30).map fun w => (bits 47 40 w, bits 15 0 w) }

/-! ### Placement (R74 step 7, R550) -/

/-- What is placed: a surface or a section, by number, with the kind of R550 that it belongs to — 0 and 1 in SOM, writable
and RO; 2 to 4 in DRAM without ECC and 5 to 7 with ECC, plain, EVECAP and RO — its bytes, alignment and EVECAP. -/
structure Item where
  surf  : Bool
  id    : Nat
  kind  : Nat
  size  : Nat
  align : Nat
  eve   : Bool

/-- R69, R167, R414, R550: one placement. WEIGHTS sections are read-only. -/
def itemOf (h : Header) (surf : Bool) (id bytes : Nat) (som eve ecc ro : Bool) : Item :=
  if som then
    { surf := surf, id := id, kind := b2n ro, size := if eve then align4k bytes else bytes,
      align := if eve || ro then 4096 else 64, eve := eve }
  else
    let e := eccOf h ecc
    { surf := surf, id := id, kind := 2 + 3 * b2n e + (if ro then 2 else b2n eve), size := dramCost e bytes, align := 4096,
      eve := eve }

/-- The placements of a container: surfaces in declaration order, then sections in table order (log entry 42). -/
def itemsOf (x : Xzb) : List Item :=
  (x.surfs.map surfOf).map (fun f => itemOf x.hdr true f.sid (surfBytes f) (f.kind == 0) (bit 0 f.attr) (bit 3 f.attr) false)
    ++ (x.sects.zipIdx.filter fun p => loadedSect p.1).map fun p =>
      itemOf x.hdr false p.2 (placeBytes p.1) (bit 2 p.1.flags) (bit 1 p.1.flags) (bit 3 p.1.flags) (p.1.type == 8)

/-- The offsets of items placed one after another, and the bytes they come to. An EVECAP item has its pages to itself. -/
def layoutOf (l : List Item) : List (Item × Nat) × Nat :=
  l.foldl (fun (acc, o) i =>
    let a := cdiv o i.align * i.align
    (acc ++ [(i, a)], a + i.size)) ([], 0)

/-- The lowest run of `n` numbers below `total` that holds none of the runs `taken`, given as first and last. -/
def findRun (taken : List (Nat × Nat)) (total n : Nat) : Option Nat :=
  let fits (c : Nat) : Bool := decide (c + n ≤ total) && taken.all fun t => decide (c + n ≤ t.1 ∨ t.2 < c)
  ((0 :: taken.map fun t => t.2 + 1).filter fits).foldl (fun a c => some (min c (a.getD c))) none

/-- The pages that VALID entries of a region table cover. -/
def takenPages (tbl : List (Nat × Region)) : List (Nat × Nat) :=
  (tbl.filter fun p => bit 31 p.2.flags.toNat).map fun p => (p.2.first, p.2.last)

/-- Placement as far as it has come: addresses by item, and the region tables with the entries taken. -/
structure PlaceAcc where
  addrs : List (Item × Nat) := []
  dram  : List (Nat × Region)
  som   : List (Nat × Region)
  dents : List Nat := []
  sents : List Nat := []

/-- R549, R550: word 2 of a graph's region of a kind. -/
def regionFlags (h : Header) (n kind : Nat) : Reg :=
  let ro := kind == 1 || kind == 4 || kind == 7
  reg (2 ^ 31 + b2n (bit 1 h.gflags) * 2 ^ 29 + b2n ro * 2 ^ 28 + b2n (bit 0 h.gflags) * 2 ^ 27
    + b2n (decide (5 ≤ kind)) * 2 ^ 25 + b2n (kind == 3 || kind == 6) * 2 ^ 24 + n * 2 ^ 16)

/-- R550: the placements of one kind put in the lowest free run of pages, under the lowest free entry; or the resource
that lacks: 4 SOM, 5 DRAM. -/
def placeKind (h : Header) (n : Nat) (items : List Item) (r : Except Nat PlaceAcc) (kind : Nat) : Except Nat PlaceAcc :=
  match r with
  | .error e => .error e
  | .ok a =>
    let (l, size) := layoutOf (items.filter fun i => i.kind == kind)
    if size = 0 then .ok { a with addrs := a.addrs ++ l.map fun p => (p.1, if kind ≤ 1 then Config.somBase else 0) }
    else
      let np := cdiv size 4096
      let som := decide (kind ≤ 1)
      let tbl := if som then a.som else a.dram
      let total := (if som then Config.somBytes else Config.dramBytes) / 4096
      let free (e : Nat) : Bool := !bit 31 (kvGet (fun _ => ({} : Region)) tbl e).flags.toNat
      let lo := if som then 8 else 32
      match findRun (takenPages tbl) total np, findFrom free ((if som then 64 else 256) - lo) lo with
      | some p, some e =>
        let base := (if som then Config.somBase else 0) + 4096 * p
        let ent : Region := { first := p, last := p + np - 1, flags := regionFlags h n kind }
        let put : List (Item × Nat) := l.map fun q => (q.1, base + q.2)
        let a := { a with addrs := a.addrs ++ put }
        .ok (if som then { a with som := kvPut a.som e ent, sents := a.sents ++ [e] }
          else { a with dram := kvPut a.dram e ent, dents := a.dents ++ [e] })
      | _, _ => .error (if som then 4 else 5)

/-- What placement has found free: queues by declaration, the flag window, flows by `KICK`, and memory. -/
structure Found where
  queues : List (Nat × Nat)
  base   : Nat
  flows  : List (Nat × Nat)
  mem    : PlaceAcc

/-- R185: the lowest graph queues that are not VALID. -/
def freeQueues (s : State) (n : Nat) : List Nat :=
  ((List.range 3968).filter fun q => !(getQ s q).cfg.valid && !s.pool.badQueues.contains q).take n

/-- R61: the flag windows in use, with the firmware words. -/
def flagWindows (s : State) : List (Nat × Nat) :=
  (0, 4095) :: s.graphs.map fun p => (p.2.pl.flagBase, p.2.pl.flagBase + 4 * p.2.hdr.nflag - 1)

/-- R242: the lowest free flows of 0–959. -/
def freeFlows (s : State) (n : Nat) : List Nat := ((List.range 960).filter fun f => !(getFlow s f).valid).take n

/-- R74 step 7, R81: everything placement needs, or the resource that lacks: 1 queue, 2 flag words, 3 ordered flow, 4 SOM,
5 DRAM, looked for in that order (log entry 42). -/
def findPlace (s : State) (n : Nat) (x : Xzb) : Except Nat Found :=
  let qs := freeQueues s x.queues.length
  let ob := orderedStages (stagesOf x.prog) (paramsOf x nominal)
  let fs := freeFlows s ob.length
  if qs.length < x.queues.length then .error 1
  else match findRun (flagWindows s) 65536 (4 * x.hdr.nflag) with
    | none => .error 2
    | some base =>
      if fs.length < ob.length then .error 3
      else match (List.range 8).foldl (placeKind x.hdr n (itemsOf x)) (.ok { dram := s.fwl.dram, som := s.fwl.som }) with
        | .error e => .error e
        | .ok m => .ok { queues := (x.queues.map QDecl.qid).zip qs, base := base, flows := ob.zip fs, mem := m }

/-- The address at which an item was placed. -/
def Found.addr (f : Found) (surf : Bool) (id : Nat) : Nat :=
  ((f.mem.addrs.find? fun p => p.1.surf == surf && p.1.id == id).map Prod.snd).getD 0

/-- R185: the queue assigned to a graph-local QID. -/
def Found.queue (f : Found) (q : Nat) : Nat := kvGet (fun k => k) f.queues q

/-- The tensor programs of a container: number, entry address and bytes. -/
def tcEntries (x : Xzb) (f : Found) : List (Nat × Nat × Nat) :=
  (x.sects.zipIdx.filter fun p => p.1.type == 2).map fun p => (p.1.target, f.addr false p.2, p.1.len)

/-- R72: what the relocations of a placed container resolve to. -/
def Found.resolve (f : Found) (x : Xzb) : Resolve :=
  ⟨f.addr true, f.queue, f.base, fun k => (((tcEntries x f).find? fun p => p.1 == k).map fun p => p.2.1).getD 0⟩

/-- R686: a sequencer word with its graph-local QID replaced by the queue assigned. -/
def seqQid (f : Found) (w : Nat) : Nat :=
  let op := bits 63 56 w
  let q := bits 47 32 w
  if (op = 0x60 ∨ op = 0x61) ∧ q < 3968 then w - q * 2 ^ 32 + f.queue q * 2 ^ 32 else w

/-- R686: a tensor word with its graph-local QID replaced by the queue assigned. -/
def tcQid (f : Found) (w : BitVec 128) : Nat :=
  let q := wf w 47 32
  if (wOp w = 0x12 ∨ wOp w = 0x13 ∨ wOp w = 0x14) ∧ q < 3968 then w.toNat - q * 2 ^ 32 + f.queue q * 2 ^ 32 else w.toNat

/-- The bytes of section `i` as they are loaded: queues written into its instructions, then its relocations. -/
def sectImage (x : Xzb) (f : Found) (i : Nat) (y : Sect) : List Byte :=
  let l := sectBytes x.data y
  let l := if y.type = 1 then (cut 8 l).flatMap fun b => leBytes 8 (seqQid f (leNat b))
    else if y.type = 2 then (tcWords l).flatMap fun w => leBytes 16 (tcQid f w)
    else l
  relocated x (f.resolve x) i l

/-- R70, R185, R191, R197: a graph queue as the loader sets it up. The sequencer is told of packets on a queue that its
program dequeues, at the first receiver that no stage names. -/
def queueOf (s : State) (n : Nat) (x : Xzb) (d : QDecl) : Queue :=
  let us := stagesOf x.prog
  let params := paramsOf x nominal
  let deq := x.prog.any fun w => bits 63 56 w == 0x61 && bits 47 32 w == d.qid
  let staged (r : Nat) : Bool := us.any fun u => (namedRecvs x params u).contains (d.qid, r)
  let mine := if deq then findFrom (fun r => !staged r) d.nrecv 0 else none
  { cfg := { valid := true, world := unitWorld s (176 + n), out := d.host, lockstep := d.lockstep,
             mode := if d.mode = 0 then .lossless else if d.mode = 1 then .lossy else .multicast,
             depth := d.depth, reserve := d.reserve, maxpkt := d.maxpkt, lag := d.lag, ownerSeq := n,
             ownerBE := n != 17 && x.hdr.deadline == 0, ownerPrio := x.hdr.prio },
    recvs := (List.range d.nrecv).map fun r => if mine = some r then { kind := 1, target := n } else {} }

/-- R686: the receivers of system queues that a container's programs name. -/
def sysRecvs (x : Xzb) : List (Nat × Nat) :=
  ((x.prog.filter fun w => bits 63 56 w == 0x61 && decide (3968 ≤ bits 47 32 w)).map fun w => (bits 47 32 w, 0))
    ++ (x.sects.filter fun y => y.type == 2).flatMap fun y =>
      ((tcWords (sectBytes x.data y)).filter fun w => wOp w == 0x12 && decide (3968 ≤ wf w 47 32)).map fun w =>
        (wf w 47 32, wf w 83 81)

/-- What the loader placed, as the graph holds it. -/
def placedOf (x : Xzb) (f : Found) : Placed :=
  let at_ (type : Nat) := (x.sects.zipIdx.find? fun p => p.1.type == type).map fun p => (p.2, p.1)
  let us := stagesOf x.prog
  let params := paramsOf x nominal
  { prog := match at_ 1 with
      | some (i, y) => (cut 8 (sectImage x f i y)).map fun b => BitVec.ofNat 64 (leNat b)
      | none => [],
    flagBase := f.base, flagInit := (cut 4 (bodyOf x.data x.sects 6)).map leNat,
    params := ((at_ 3).map fun p => f.addr false p.1).getD 0, paramLen := ((at_ 3).map fun p => p.2.len).getD 0,
    surfaces := (x.surfs.map surfOf).map fun y => { y with addr := f.addr true y.sid },
    queues := f.queues, hostQ := (x.queues.find? QDecl.host).map fun d => f.queue d.qid,
    tcprogs := tcEntries x f,
    weights := (x.sects.zipIdx.filter fun p => p.1.type == 8).map fun p => (f.addr false p.2, p.1.len),
    flows := f.flows, dramEnts := f.mem.dents, somEnts := f.mem.sents, sysRecv := sysRecvs x,
    longs := (us.filter fun u => u.long (u.block params)).map StageUse.inst }

/-- R107: the sections written to memory, PARAMS once for each slot. -/
def writeSections (s : State) (x : Xzb) (f : Found) : State :=
  (x.sects.zipIdx.filter fun p => loadedSect p.1).foldl (fun s p =>
    let l := sectImage x f p.2 p.1
    let a := f.addr false p.2
    if p.1.type = 3 then
      (List.range 4).foldl (fun s i => poke s (a + i * (cdiv p.1.len 64 * 64)) l) s
    else poke s a l) s

/-- R167: the pages of EVECAP placements, each memory's as module pages. -/
def evePages (f : Found) : List (Nat × Nat) :=
  (f.mem.addrs.filter fun p => p.1.eve && p.1.size != 0).map fun p => (p.2 / 4096, (p.2 + p.1.size - 1) / 4096)

/-- R297: a pipeline's configuration captured. -/
def capturePipe (s : State) (n : Nat) : State :=
  setPipe s n { getPipe s n with cap := some (capturedRegs.map fun o => (o, getR s (ispBase n + o))), diff := false }

/-- R297: the slot addresses of the declared outputs in ISP_OBASE. -/
def writeObase (s : State) (n : Nat) (g : Graph) : State :=
  (List.range 6).foldl (fun s o => (List.range 4).foldl (fun s i =>
    let a := ((surfaceOf g (o + 1)).map fun f => f.at i).getD 0
    let r := ispBase n + 0x100 + 32 * o + 8 * i
    setR (setR s r (reg a)) (r + 4) (reg (a / 2 ^ 32))) s) s

/-- R74 step 7: a container placed in context `c` of sequencer `n`; the state stays as it was where something lacks. -/
def placeGraph (s : State) (n c : Nat) (x : Xzb) (g : Graph) : State × Option Nat :=
  match findPlace s n x with
  | .error e => (s, some e)
  | .ok f =>
    let held := (getGraph s n (1 - c)).isSome
    let g := { g with pl := placedOf x f, order := s.admits }
    let eve := evePages f
    let s := { s with
      admits := s.admits + 1,
      fwl := { s.fwl with dram := f.mem.dram, som := f.mem.som },
      somEve := s.somEve ++ eve.filter (fun p => decide (Config.somBase / 4096 ≤ p.1)),
      tags := s.tags.filter fun t => !eve.any fun p => decide (p.1 ≤ t.1 ∧ t.1 ≤ p.2),
      flags := s.flags.filter fun p => !decide (f.base ≤ p.1 ∧ p.1 < f.base + 4 * x.hdr.nflag) }
    let s := writeSections s x f
    let s := x.queues.foldl (fun s d => setQ s (f.queue d.qid) (queueOf s n x d)) s
    let s := f.flows.foldl (fun s p => setFlow s p.2 { valid := true, seq := n }) s
    let s := setCtx (setGraph s n c g) n c {}
    let s := if bit 4 x.hdr.gflags then { s with resident := kvPut s.resident n x.data } else s
    let s := if n < 16 then
        let s := if held then s else (n :: (pairOf s n).toList).foldl capturePipe s
        writeObase s n g
      else s
    (shed s, none)

/-! ### Unloading (R147, R185, R242, R550) -/

/-- The module pages of a graph's regions. -/
def graphPages (s : State) (g : Graph) : List (Nat × Nat) :=
  let r (tbl : List (Nat × Region)) (o : Nat) (es : List Nat) := es.map fun e =>
    let x := kvGet (fun _ => ({} : Region)) tbl e
    (x.first + o, x.last + o)
  r s.fwl.dram 0 g.pl.dramEnts ++ r s.fwl.som (Config.somBase / 4096) g.pl.somEnts

/-- R131: the words of program bank `c` of sequencer `n`: only a load writes it. -/
def bankOf (s : State) (n c : Nat) : List Word :=
  let old := kvGet (fun _ => []) s.banks (2 * n + c)
  match getGraph s n c with
  | some g => g.pl.prog ++ old.drop g.pl.prog.length
  | none => old

/-- R147, R185, R242, R473, R550: the graph of context `c` of sequencer `n` leaves with everything it held. -/
def unloadGraph (s : State) (n c : Nat) (g : Graph) : State :=
  let inPages (p : Nat) : Bool := (graphPages s g).any fun r => decide (r.1 ≤ p ∧ p ≤ r.2)
  let held := (getGraph s n (1 - c)).isSome
  let bases := g.pl.surfaces.map Surface.addr
  let s := { s with
    banks := kvPut s.banks (2 * n + c) (bankOf s n c),
    tags := s.tags.filter fun t => !inPages t.1,
    somEve := s.somEve.filter fun p => !inPages p.1,
    ptags := s.ptags.filter fun p => !inPages (p.1 / 4096),
    fwl := { s.fwl with dram := s.fwl.dram.filter (fun p => !g.pl.dramEnts.contains p.1),
                        som := s.fwl.som.filter fun p => !g.pl.somEnts.contains p.1 },
    flags := s.flags.filter fun p => !decide (g.pl.flagBase ≤ p.1 ∧ p.1 < g.pl.flagBase + 4 * g.hdr.nflag),
    tables := s.tables.filter fun p => !(leAt p.2 3 1 == n && bases.contains (leAt p.2 8 8)) }
  let s := g.pl.queues.foldl (fun s q => setQ s q.2 {}) s
  let s := g.pl.flows.foldl (fun s f => setFlow s f.2 {}) s
  let s := setCtx (delGraph s n c) n c {}
  let s := if n < 16 ∧ ¬ held then
      (n :: (pairOf s n).toList).foldl (fun s m => setPipe s m { getPipe s m with cap := none, diff := false }) s
    else s
  if s.graphs.any fun p => p.2.shed then { s with health := { s.health with freed := true } } else s

/-! ### Commands -/

/-- R90: whether a graph command of sequencer `n` is recorded and has not taken effect. -/
def cmdPending (s : State) (n : Nat) : Bool :=
  [0, 1].any fun c => match getGraph s n c with
    | some g => g.startAt.isSome || g.stopAt.isSome || g.takeAt.isSome
    | none => false

/-- The loaded graphs without those of sequencer `n` in the contexts `cs`. -/
def setWithout (s : State) (n : Nat) (cs : List Nat) : SetOf :=
  (s.graphs.filter fun p => !(p.1 / 2 == n && cs.contains (p.1 % 2))).map fun p => (p.1 / 2, p.2)

/-- The answer of a verdict (R143). -/
def verdictRes (s : State) (status : Nat) (v : Verdict) : BoxRes := .done status (wordsOf 8 (v.bytes s.cls))

/-- R76, R607: an effective time: 0, or a time already past, is now. -/
def effective (s : State) (t : Nat) : Nat := max t (now s)

/-- R74, R78, R149: steps 1 to 7 on staged bytes for context `c` of sequencer `n`; `old` is the context of the graph that
a GRAPH_REPLACE stands in place of. -/
def loadGraph (s : State) (b n c : Nat) (old : Option Nat) (l : List Byte) : State × BoxRes :=
  let st := loadStatus s b n l
  if st ≠ 0 then (s, .done st)
  else
    let x := xzbOf l
    let g := graphOf x
    let rest := setWithout s n (old.toList)
    let v := admitted (shedding s) (rest ++ [(n, g)]) n s.cls
    let v := if v.code = 0 ∧ old.isSome then
        let w := bothFit (loadedSet s ++ [(n, g)]) n s.cls
        if w.code = 0 then v else w
      else v
    if v.code ≠ 0 then (s, verdictRes s 0x0D v)
    else match placeGraph s n c x g with
      | (s, some r) => (s, .done 0x0E [r])
      | (s, none) => (s, .done 0)

/-- GRAPH_LOAD (R50, R74, R90, R309). -/
def cmdGraphLoad : BoxWork := fun s b a =>
  let n := argN a 3
  if 20 ≤ n ∨ ¬ boxSpan s b false (arg64 a 0) (argN a 2) then (s, .done 0x21)
  else if (getGraph s n 0).isSome ∨ (getGraph s n 1).isSome ∨ (n < 16 ∧ isPartner s n) then (s, .done 0x0A)
  else loadGraph s b n 0 none (peek s (arg64 a 0) (argN a 2))

/-- GRAPH_START (R76, R607): it takes effect at once when its time has come. -/
def cmdGraphStart : BoxWork := fun s b a =>
  let n := argN a 0
  if 20 ≤ n then (s, .done 0x21)
  else if ¬ boxMay b (unitWorld s (176 + n)) then (s, .done 0x0B)
  else if cmdPending s n then (s, .done 0x0A)
  else match [0, 1].findSome? fun c => (getGraph s n c).bind fun g => if g.st = .ready then some (c, g) else none with
    | none => (s, .done 0x0A)
    | some (c, g) =>
      let t := effective s (arg64 a 1)
      (if t = now s then startEffect s n c g else setGraph s n c { g with startAt := some t }, .done 0 (words64 t))

/-- GRAPH_STOP (R76, R607). -/
def cmdGraphStop : BoxWork := fun s b a =>
  let n := argN a 0
  if 20 ≤ n then (s, .done 0x21)
  else if ¬ boxMay b (unitWorld s (176 + n)) then (s, .done 0x0B)
  else if cmdPending s n then (s, .done 0x0A)
  else match runningGraph s n with
    | none => (s, .done 0x0A)
    | some (c, g) =>
      let t := effective s (arg64 a 1)
      (if t = now s then stopEffect s n c g else setGraph s n c { g with stopAt := some t }, .done 0 (words64 t))

/-- GRAPH_REPLACE (R78, R149): the new graph stands loaded beside the running one until its effective time. -/
def cmdGraphReplace : BoxWork := fun s b a =>
  let n := argN a 3
  if 20 ≤ n ∨ ¬ boxSpan s b false (arg64 a 0) (argN a 2) then (s, .done 0x21)
  else if cmdPending s n then (s, .done 0x0A)
  else match runningGraph s n with
    | none => (s, .done 0x0A)
    | some (c, _) =>
      if (getGraph s n (1 - c)).isSome then (s, .done 0x0A)
      else
        let t := effective s (arg64 a 4)
        match loadGraph s b n (1 - c) (some c) (peek s (arg64 a 0) (argN a 2)) with
        | (s, .done 0 r) =>
          (match getGraph s n (1 - c) with
            | some g => if t = now s then takeEffect s n (1 - c) g else setGraph s n (1 - c) { g with takeAt := some t }
            | none => s, .done 0 r)
        | r => r

/-- GRAPH_UNLOAD (R147). A resident graph leaves the resident store (log entry 43). -/
def cmdGraphUnload : BoxWork := fun s b a =>
  let n := argN a 0
  if 20 ≤ n then (s, .done 0x21)
  else if ¬ boxMay b (unitWorld s (176 + n)) then (s, .done 0x0B)
  else if cmdPending s n then (s, .done 0x0A)
  else match [0, 1].findSome? fun c => (getGraph s n c).bind fun g => if g.st = .ready then some (c, g) else none with
    | none => (s, .done 0x0A)
    | some (c, g) => (unloadGraph { s with resident := kvDel s.resident n } n c g, .done 0)

/-- ADMIT_TRIAL (R145): a candidate for a sequencer that holds a graph is judged in its place (log entry 43). -/
def cmdAdmitTrial : BoxWork := fun s b a =>
  let n := argN a 3
  if 20 ≤ n ∨ ¬ boxSpan s b false (arg64 a 0) (argN a 2) then (s, .done 0x21)
  else
    let l := peek s (arg64 a 0) (argN a 2)
    let st := loadStatus s b n l
    if st ≠ 0 then (s, .done st)
    else
      let v := admitted (shedding s) (setWithout s n [0, 1] ++ [(n, graphOf (xzbOf l))]) n s.cls
      (s, verdictRes s (if v.code = 0 then 0 else 0x0D) v)

/-- The refusal codes of the capacities, in order. -/
def capacityCodes : List Nat := (List.range 19).map (· + 3)

/-- ALMANAC_READ (R145): the almanac of a class and the charges held per graph under the declared class, in a layout the
specification leaves open. -/
def cmdAlmanacRead : BoxWork := fun s b a =>
  let c := argN a 0
  let image := Config.almanacImage (capacityCodes.map fun k => almanac k c)
    ((loadedSet s).map fun p => (p.1, chargesHeld p.1 p.2 s.cls))
  if 3 ≤ c ∨ ¬ boxSpan s b true (arg64 a 1) image.length then (s, .done 0x21)
  else (poke s (arg64 a 1) image, .done 0)

/-- COOLING_SET (R148); during an entry it waits for the return to RUN (R585). -/
def cmdCoolingSet : BoxWork := fun s b a =>
  let c := argN a 0
  if s.power.entering.isSome then (s, .wait)
  else if 3 ≤ c then (s, .done 0x21)
  else if ¬ boxMay b (flag s (fwlBase + 0xA0) 2) then (s, .done 0x0B)
  else match (s.graphs.find? fun p => !bit c p.2.hdr.cclass).map fun p => p.1 / 2 with
    | some n => (s, .done 0x0C [n])
    | none =>
      let v := admitted (shedding s) (loadedSet s) 0xFF c
      if v.code ≠ 0 then (s, .done 0x0D (wordsOf 8 (v.bytes c)))
      else
        let old := s.clock.fromF.getD (classClock s.cls)
        let s := diary s 7 0 false { code := c, detail := s.cls }
        let s := { s with cls := c }
        let stream := (List.range 16).any fun n => (runningGraph s n).isSome
        (if stream then { s with clock := { s.clock with fromF := some old } } else moveForClass s old,
          .done 0 (wordsOf 8 (v.bytes c)))

/-- R474 to R476: whether the fields of a descriptor fit each other and a surface of `size` bytes at `base`. -/
def tableFits (kind rfmt elems rowBytes nrows dir nlist base size : Nat) : Bool :=
  let pow2 := [16, 32, 64, 128, 256, 512, 1024].contains rowBytes
  let rows := decide (nrows * rowBytes ≤ size)
  let limit := decide (size ≤ (if Config.variant = 1 then 96 else 48) * 2 ^ 30)
  base % 4096 == 0 && limit && (if kind = 0 then
      pow2 && rows && dir == 0 && nlist == 0 && decide (rfmt ≤ 3) && (
        if rfmt = 0 then true
        else if rfmt = 1 then decide (2 * elems ≤ rowBytes)
        else if rfmt = 2 then elems % 4 == 0 && decide (elems + 4 ≤ rowBytes)
        else elems % 32 == 0 && decide (elems / 2 + elems / 32 ≤ rowBytes))
    else rfmt == 0 && rowBytes == 64 && [8, 16, 32, 64].contains elems && dir % 64 == 0
      && decide (1 ≤ nlist ∧ nlist ≤ 65536 ∧ base ≤ dir ∧ dir + 16 * nlist ≤ base + size ∧ nrows * elems ≤ size))

/-- TABLE_REGISTER (R473, R474). -/
def cmdTableRegister : BoxWork := fun s b a =>
  let t := argN a 0
  let n := argN a 1
  let surf := [0, 1].findSome? fun c => (getGraph s n c).bind fun g => (surfaceOf g (argN a 2)).map fun f => (g, f)
  match surf with
  | none => (s, .done 0x21)
  | some (g, f) =>
    let kind := argN a 3
    let fl := argN a 5
    if ¬ boxMay b g.secure then (s, .done 0x0B)
    else if 64 ≤ t ∨ 2 ≤ kind ∨ ¬ bit 0 fl ∨ 4 ≤ fl ∨ bit 1 fl ≠ g.secure
        ∨ ¬ tableFits kind (argN a 4) (argN a 6) (argN a 7) (arg64 a 8) (arg64 a 10) (argN a 12) f.addr f.size then
      (s, .done 0x21)
    else
      let d := leBytes 1 kind ++ leBytes 1 (argN a 4) ++ leBytes 1 fl ++ leBytes 1 n ++ leBytes 2 (argN a 6)
        ++ leBytes 2 (argN a 7) ++ leBytes 8 f.addr ++ leBytes 8 (arg64 a 8) ++ leBytes 8 (arg64 a 10)
        ++ leBytes 4 (argN a 12) ++ zeros 28
      ({ s with tables := kvPut s.tables t d }, .done 0)

/-! ### The rows -/

/-- GRAPH_LOAD (R74). -/
def execGraphLoad (secure : Bool) (tag : BitVec 16) (addr : BitVec 64) (len seq : Reg) (s : State) : Res :=
  mailbox secure 0x0101 tag (addrArgs addr ++ [len, seq]) cmdGraphLoad s

/-- GRAPH_START (R76). -/
def execGraphStart (secure : Bool) (tag : BitVec 16) (seq : Reg) (time : BitVec 64) (s : State) : Res :=
  mailbox secure 0x0102 tag (seq :: addrArgs time) cmdGraphStart s

/-- GRAPH_STOP (R76). -/
def execGraphStop (secure : Bool) (tag : BitVec 16) (seq : Reg) (time : BitVec 64) (s : State) : Res :=
  mailbox secure 0x0103 tag (seq :: addrArgs time) cmdGraphStop s

/-- GRAPH_REPLACE (R78). -/
def execGraphReplace (secure : Bool) (tag : BitVec 16) (addr : BitVec 64) (len seq : Reg) (time : BitVec 64) (s : State) : Res :=
  mailbox secure 0x0104 tag (addrArgs addr ++ [len, seq] ++ addrArgs time) cmdGraphReplace s

/-- GRAPH_UNLOAD (R147). -/
def execGraphUnload (secure : Bool) (tag : BitVec 16) (seq : Reg) (s : State) : Res :=
  mailbox secure 0x0105 tag [seq] cmdGraphUnload s

/-- ADMIT_TRIAL (R145). -/
def execAdmitTrial (secure : Bool) (tag : BitVec 16) (addr : BitVec 64) (len seq : Reg) (s : State) : Res :=
  mailbox secure 0x0106 tag (addrArgs addr ++ [len, seq]) cmdAdmitTrial s

/-- ALMANAC_READ (R145). -/
def execAlmanacRead (secure : Bool) (tag : BitVec 16) (cls : Reg) (addr : BitVec 64) (s : State) : Res :=
  mailbox secure 0x0107 tag (cls :: addrArgs addr) cmdAlmanacRead s

/-- COOLING_SET (R148). -/
def execCoolingSet (secure : Bool) (tag : BitVec 16) (cls : Reg) (s : State) : Res :=
  mailbox secure 0x0108 tag [cls] cmdCoolingSet s

/-- TABLE_REGISTER (R473): table, sequencer, SID, TKIND, RFMT, TFLAGS, ELEMS, ROWBYTES, NROWS, DIRBASE and NLIST, one
argument word each, NROWS and DIRBASE two (log entry 44). -/
def execTableRegister (secure : Bool) (tag : BitVec 16) (args : List Reg) (s : State) : Res :=
  mailbox secure 0x0109 tag args cmdTableRegister s

/-- R52, R77: whether every slot of a context is FREE. -/
def slotsFree (s : State) (n c : Nat) : Bool :=
  (List.range 4).all fun i => (getSlot s n i).st == .free || (getSlot s n i).ctx != c

/-- R78: whether the graph of context `c` has been replaced by the other context's. -/
def replaced (s : State) (n c : Nat) : Bool :=
  (getSeq s n).newCtx != c && (match getGraph s n (1 - c) with
    | some g => g.takeAt.isNone
    | none => false)

/-- GRAPH_DRAINED (R77): a DRAINING graph whose last slot has become FREE is READY again. -/
def execGraphDrained (n c : Nat) (s : State) : Res :=
  .next <| match getGraph s n c with
  | some g =>
    if g.st = .draining ∧ slotsFree s n c ∧ ¬ replaced s n c then
      let x := getCtx s n c
      let s := setGraph s n c { g with st := .ready, stopAt := none }
      if x.rst = .run ∨ x.rst = .wait then setCtx s n c { x with rst := .idle, wait := none } else s
    else s
  | none => s

/-- REPLACE_OLD_GRAPH_UNLOAD (R78): the replaced graph leaves once its last slot is FREE; its resident copy stays (log entry 120). -/
def execReplaceOldGraphUnload (n : Nat) (s : State) : Res :=
  let c := 1 - (getSeq s n).newCtx
  .next <| match getGraph s n c with
  | some g => if g.st ≠ .running ∧ replaced s n c ∧ slotsFree s n c then unloadGraph s n c g else s
  | none => s

end Sys2Proof.Machine
end

