-- ==== Sys2Proof/Machine/PowerOps.lean ====
section
/-!
DEFINITION. Wake sources (R575), the cancelling of an entry (R576), the start of an exit (R572) and the conditions of DOZE
(R569, R574).
-/
namespace Sys2Proof.Machine

/-- R575: the sources that wake the module from a state, or that cancel the entry into it. -/
def wakeMask : PState → Nat
  | .doze => 0x1FF
  | .vigil => 0x13F
  | .solstice => 0x137
  | _ => 0

/-- R585: COOLING_SET commands that waited for the return to RUN are served. -/
def serveWaiting (s : State) : State :=
  s.boxes.foldl (fun s x =>
    if x.2.op = 0x0108 ∧ s.power.entering.isNone then
      match cmdCoolingSet s x.1 [reg x.2.arg] with
      | (s, .done r rsp) => boxDone s x.1 x.2.tag r rsp
      | (s, _) => s
    else s) s

/-- R576: a graph stopped at step 1 gets GRAPH_START: at once when it is READY, else as soon as it is. -/
def restartNow (s : State) (key : Nat) : State :=
  match getGraph s (key / 2) (key % 2) with
  | some g =>
    if g.st = .ready then startEffect s (key / 2) (key % 2) g
    else if g.st = .draining then setGraph s (key / 2) (key % 2) { g with startAt := some (now s) }
    else s
  | none => s

/-- R576: an entry in its steps 1 to 5 is cancelled. -/
def cancelEntry (s : State) : State :=
  let keys := s.power.restart
  let s := { s with power := { s.power with entering := none, heldWake := false, restart := [] } }
  let s := keys.foldl restartNow (inc s (pwrBase + 0x30C))
  serveWaiting (stateDone s 4)

/-- R572: exit to RUN begins; out of VIGIL and SOLSTICE the queue pool goes through TEST and BUILD again. -/
def beginExit (s : State) : State :=
  let s := { s with power := { s.power with exiting := true, heldWake := false } }
  if s.power.st = .vigil ∨ s.power.st = .solstice then { s with pool := { s.pool with st := .test } } else s

/-- R575, R576: wake source `b`, when it is enabled and wakes from the state the module is in or enters: recorded; it
cancels an entry, is held during step 6, or starts the exit. -/
def wakeSource (s : State) (b : Nat) : State :=
  let tgt := match s.power.entering with
    | some (t, _) => t
    | none => s.power.st
  if s.power.exiting ∨ s.power.bootStep ≠ 7 ∨ s.health.tripped ∨ ¬ bit b (wakeMask tgt) ∨ ¬ flag s (pwrBase + 0x30) b then s
  else
    let s := wakePin (setR s (pwrBase + 0x34) (setBit b (getR s (pwrBase + 0x34))))
    match s.power.entering with
    | some (_, k) => if k < 6 then cancelEntry s else { s with power := { s.power with heldWake := true } }
    | none => beginExit s

/-- WAKE_SOURCE (R575, R576). -/
def execWakeSource (b : Nat) (s : State) : Res := .next (wakeSource s b)

/-- R569, R586: the module time of PWR_WAKETIME; 0xFFFFFFFF in the upper half never comes. -/
def wakeTime (s : State) : Option Nat :=
  let hi := getN s (pwrBase + 0x3C)
  if hi = 0xFFFFFFFF then none else some (2 ^ 32 * hi + getN s (pwrBase + 0x38))

/-- WAKETIME_REACHED (R575): module time reaches PWR_WAKETIME while the module can be woken. -/
def execWaketimeReached (s : State) : Res :=
  .next <| match wakeTime s with
  | some t =>
    if s.power.st ≠ .off ∧ (s.power.st ≠ .run ∨ s.power.entering.isSome) then wakeSource (advance s t) 2 else s
  | none => s

/-- R569, R574: no graph is RUNNING and no task is in any pool. -/
def quiet (s : State) : Bool :=
  (s.graphs.all fun p => p.2.st != .running) && s.sched.tasks.isEmpty && s.sched.posted.isEmpty

/-- R574: DOZE is entered. -/
def enterDoze (s : State) : State :=
  let s := { s with power := { s.power with st := .doze, dozePend := false } }
  stateDone (diary (inc s (pwrBase + 0x300)) 5 0 false { code := 1 }) 0

/-- R574: a DOZE command that waits takes effect in the first clock in which its conditions hold. -/
def dozeDue (s : State) : State := if s.power.dozePend ∧ quiet s then enterDoze s else s

/-- DOZE_IDLE_EXPIRY (R569): PWR_DOZEIDLE µs have passed with no graph RUNNING and no task in any pool. -/
def execDozeIdleExpiry (s : State) : Res :=
  .next <|
    if getN s (pwrBase + 0x44) ≠ 0 ∧ s.power.st = .run ∧ dieOn s ∧ s.power.entering.isNone ∧ ¬ s.power.dozePend ∧ quiet s then
      enterDoze s
    else s

end Sys2Proof.Machine
end

