-- ==== Sys2Proof/Machine/Field.lean ====
section
/-!
DEFINITION. The field block (spec/22_field_side.md): its events, the 10BASE-T1S segments, the supervised alarm inputs and
the supervised outputs, R615 to R634.
-/
namespace Sys2Proof.Machine

/-! ### Events (R628) -/

/-- The segment counters of R634, by their place in the list. -/
def segCount (s : State) (g i : Nat) : State := inc s (segBase g + 0x20 + 4 * i)

/-- Whether the queue manager runs. -/
def qmRuns (s : State) : Bool := dieOn s && s.power.st == .run

/-- R628: the 32 bytes of a field event. -/
def FieldEvent.bytes (e : FieldEvent) : List Byte :=
  withCrc (leBytes 2 0x70 ++ leBytes 1 e.src ++ leBytes 1 e.old ++ leBytes 1 e.new ++ zeros 1 ++ leBytes 2 e.meas
    ++ leBytes 8 e.time ++ leBytes 4 e.seq ++ zeros 8)

/-- A field event placed on queue 3,972. -/
def placeEvent (s : State) (e : FieldEvent) : State := (enqPacket s 3972 207 0 (bytesToWords e.bytes)).1

/-- R628: the events the AON monitor has kept are placed once the queue manager runs. -/
def placeHeld (s : State) : State :=
  if qmRuns s then s.fld.held.foldl placeEvent { s with fld := { s.fld with held := [] } } else s

/-- R628: a change of state yields one field event, kept while the queue manager does not run; beyond 64 it is lost. -/
def fieldEvent (s : State) (src old new meas : Nat) : State :=
  let e : FieldEvent := ⟨src, old, new, meas, now s, getN s (fldBase + 0xF4)⟩
  let s := inc s (fldBase + 0xF4)
  if qmRuns s then placeEvent (placeHeld s) e
  else if s.fld.held.length < 64 then { s with fld := { s.fld with held := s.fld.held ++ [e] } }
  else raise (inc s (fldBase + 0xF0)) (fldBase + 0x10) 7

/-! ### Segments (R615 to R624) -/

/-- One segment, and one replaced. -/
def getSeg (s : State) (g : Nat) : Segment := kvGet (fun _ => {}) s.fld.segs g
def setSeg (s : State) (g : Nat) (x : Segment) : State := { s with fld := { s.fld with segs := kvPut s.fld.segs g x } }

/-- STATE of FLD_SEG_STATE: 0 DISABLED, 1 UP, 2 ISOLATED. -/
def segState (s : State) (g : Nat) : Nat := field s (segBase g + 0x10) 31 30

/-- R628, R634: a segment changes its state. -/
def segChange (s : State) (g st : Nat) : State :=
  let old := segState s g
  if old = st then s
  else fieldEvent (setField s (segBase g + 0x10) 31 30 st) (12 + g) old st (field s (segBase g + 0x10) 15 0)

/-- PLCA and CSMA of FLD_SEG_STATE. -/
def segAccess (s : State) (g : Nat) (plca csma : Bool) : State :=
  setField (setField s (segBase g + 0x10) 29 29 (b2n plca)) (segBase g + 0x10) 28 28 (b2n csma)

/-- Whether a segment carries frames: enabled, UP, and its data path powered (R569, R623). -/
def segUp (s : State) (g : Nat) : Bool := dieOn s && segState s g == 1

/-- The six bytes of an address in a LO and HI register pair, its byte i at bits [8i+7:8i] (log entry 45). -/
def macAt (s : State) (a : Nat) : List Byte := leBytes 4 (getN s a) ++ leBytes 2 (field s (a + 4) 15 0)

/-- R617 step 3: whether a frame from `src`, received in transmit opportunity `node` (none under CSMA/CD), is a stranger. -/
def stranger (s : State) (g : Nat) (src : List Byte) (node : Option Nat) : Bool :=
  let hits := (List.range 32).filter fun k => flag s (segBase g + 0x104 + 8 * k) 31 && macAt s (segBase g + 0x100 + 8 * k) == src
  match node with
  | none => hits.all fun k => flag s (segBase g + 0x104 + 8 * k) 30
  | some n => hits.isEmpty || hits.any fun k =>
      let m := field s (segBase g + 0x104 + 8 * k) 23 16
      m != 0xFF && m != n

/-- R618: the words of a received frame. -/
def frameWords (w0 time : Nat) (l : List Byte) : List Word := bytesToWords (leBytes 8 w0 ++ leBytes 8 time ++ l)

/-- A frame of received bytes that a receive queue takes, or drops and counts at `drop`. -/
def rxEnqueue (s : State) (q init drop : Nat) (ws : List Word) : State :=
  let (s, r) := enqPacket s q init 0 ws
  if r = .taken then s else inc s drop

/-- SEGMENT_FRAME_RECEIVE (R617, R618, R620): a frame without its FCS, in transmit opportunity `node` while PLCA is active. -/
def execSegmentFrameReceive (g node : Nat) (fcsOk : Bool) (l : List Byte) (s : State) : Res :=
  .next <|
    if ¬ segUp s g then s
    else if ¬ fcsOk ∨ l.length < 60 ∨ 1518 < l.length then segCount s g 3
    else
      let dst := l.take 6
      let multi := (List.range 8).any fun k =>
        flag s (segBase g + 0x84 + 8 * k) 31 && macAt s (segBase g + 0x80 + 8 * k) == dst
      if ¬ (dst = macAt s (segBase g + 0x08) ∨ dst = List.replicate 6 0xFF ∨ multi) then segCount s g 2
      else
        let plca := flag s (segBase g + 0x10) 29
        let op := if plca then some node else none
        let st := stranger s g (slice l 6 6) op
        let w0 := l.length + 2 ^ 16 * g + 2 ^ 24 * (b2n st + 2 * b2n (!plca)) + 2 ^ 32 * (op.getD 0xFF)
        rxEnqueue (segCount s g (if st then 1 else 0)) ((if st then 3970 else 3968) + g) 207 (segBase g + 0x20 + 4 * 4)
          (frameWords w0 (now s) l)

/-- R621, R652: the frame that a transmit packet holds, when its word 0 is good: its LEN in range, the bits outside `mask`
zero, and its words the packet's. -/
def txFrame (ws : List QWord) (max mask : Nat) : Option (Nat × List Byte) :=
  let l := packetBytes ws
  let w0 := leAt l 0 8
  let n := w0 % 2 ^ 16
  if 60 ≤ n ∧ n ≤ max ∧ w0.land (2 ^ 64 - 1 - mask) = 0 ∧ ws.length = 1 + cdiv n 8 then some (w0, slice l 8 n) else none

/-- SEGMENT_TRANSMIT (R621): the packet at the head of the segment's transmit queue is sent or, with a bad word 0,
discarded. -/
def execSegmentTransmit (g : Nat) (s : State) : Res :=
  .next <|
    if ¬ segUp s g ∨ (headWords (getQ s (3973 + g)) 0).isNone then s
    else
      let (s, ws, leap) := deqPacket s (3973 + g) 207 0 2048
      match txFrame ws 1518 0xFFFF with
      | some (_, l) => if leap then segCount s g 12 else emit (segCount s g 10) (.segTx g l)
      | none => segCount s g 12

/-- BEACON (R616): the coordinator sends a BEACON; or one of another node is `heard`, which ends a follower's CSMA/CD and is
a conflict for a coordinator. -/
def execBeacon (g : Nat) (heard : Bool) (s : State) : Res :=
  let c := getN s (segBase g)
  let x := getSeg s g
  .next <|
    if ¬ segUp s g ∨ ¬ bit 30 c then s
    else if ¬ heard then
      if bit 29 c ∧ ¬ x.held ∧ x.backoff ≤ now s then segAccess (emit s (.beacon g)) g true false else s
    else if ¬ bit 29 c then segAccess s g true false
    else
      let k := (x.conflicts.filter fun t => decide (now s < t + 1000000000)) ++ [now s]
      let off := now s + 1000000 * (10 + (Config.beaconBackoff s.uses).val)
      let s := segAccess (segCount { s with uses := s.uses + 1 } g 13) g false true
      if 3 ≤ k.length then raise (setSeg s g { x with conflicts := k, held := true }) (fldBase + 0x10) 6
      else setSeg s g { x with conflicts := k, backoff := off }

/-- BEACON_LOSS (R616): a follower has seen no BEACON for 4 cycle times. -/
def execBeaconLoss (g : Nat) (s : State) : Res :=
  let c := getN s (segBase g)
  .next (if segUp s g ∧ bit 30 c ∧ ¬ bit 29 c then segAccess s g false true else s)

/-- JABBER (R622): an event on the wire is counted: noise, jabber, a collision, a late collision or the module's own
transmission cut. -/
def execJabber (g : Nat) (k : LineEvent) (s : State) : Res :=
  .next <|
    if ¬ segUp s g then s
    else match k with
      | .noise => segCount s g 5
      | .jabber => raise (segCount s g 6) (fldBase + 0x10) 4
      | .collision =>
        if flag s (segBase g + 0x10) 29 then raise (segCount s g 8) (fldBase + 0x10) 5 else segCount s g 7
      | .late => segCount s g 9
      | .own => raise (segCount s g 11) (fldBase + 0x10) 4

/-- SEGMENT_ISOLATE (R623): a conductor has read `v` (10 mV) for 2 ms. -/
def execSegmentIsolate (g : Nat) (v : BitVec 16) (s : State) : Res :=
  .next <|
    if segState s g ≠ 1 ∨ v.toInt.natAbs ≤ 500 then s
    else
      let s := setField s (segBase g + 0x10) 15 0 v.toNat
      let s := raise (segChange (segCount s g 14) g 2) (fldBase + 0x10) 3
      diary s Config.segmentKind.toNat 1 (unitWorld s 207) { unit := 207, detail := g }

/-- SEGMENT_LINE_TEST (R623): the test of an isolated segment, whose larger conductor voltage is `v` (10 mV). -/
def execSegmentLineTest (g : Nat) (v : BitVec 16) (s : State) : Res :=
  .next <|
    if segState s g ≠ 2 then s
    else
      let s := setField s (segBase g + 0x10) 15 0 v.toNat
      if v.toInt.natAbs ≤ 300 then segChange s g 1 else s

/-- WAKE_BURST (R622, R624): jabber while the data path runs, else a wake source where it is enabled. -/
def execWakeBurst (g : Nat) (s : State) : Res :=
  .next <|
    if segState s g = 2 ∨ s.power.st = .off then s
    else if qmRuns s then (if segState s g = 1 then raise (segCount s g 6) (fldBase + 0x10) 4 else s)
    else if flag s (fldBase + 0x18) g ∧ flag s (pwrBase + 0x30) 5 then wakeSource (segCount s g 15) 5
    else s

/-- R634: the value FLD_SEG_CFG takes: a field outside its range stays as it was, and so do COORD and NODEID where a coordinator
would have another node than 0 (log entry 124). -/
def segCfgValue (old v : Reg) : Reg :=
  let x := ((rowOf (segBase 0)).map fun r => r.write false old v).getD old
  if bit 29 x.toNat ∧ bits 23 16 x.toNat ≠ 0 then (x &&& ~~~0x20FF0000#32) ||| (old &&& 0x20FF0000#32) else x

/-- FLD_SEG_CFG (R616, R634): the write enables or disables the segment, sets its role and ends the hold of a third conflict. -/
def segCfg (g : Nat) (v : Reg) (s : State) : State :=
  let x := segCfgValue (getR s (segBase g)) v
  let n := x.toNat
  let s := setR s (segBase g) x
  let s := setSeg s g { getSeg s g with conflicts := [], held := false }
  let s := segAccess s g (bit 31 n && bit 30 n) false
  if ¬ bit 31 n then segChange s g 0 else if segState s g = 0 then segChange s g 1 else s

/-! ### Alarm inputs (R625 to R628) -/

/-- R626: the class of a sample, coded as STATE: 6 FOREIGN, 5 REVERSED, 3 SHORT, 1 NORMAL, 2 ALARM, 4 OPEN. -/
def sampleClass (s : State) (i : Nat) (voff : Int) (fwd rev : Nat) : Nat :=
  let short := field s (fldBase + 0x40) 15 0
  let alarm := field s (fldBase + 0x40) 31 16
  let open_ := field s (fldBase + 0x44) 15 0
  if 10 * field s (fldBase + 0x44) 25 16 < voff.natAbs then 6
  else if flag s (fldBase + 0x20 + 4 * i) 29 ∧ open_ ≤ fwd ∧ rev < open_ then 5
  else if fwd < short then 3
  else if fwd < alarm then 1
  else if fwd < open_ then 2
  else 4

/-- R627, R628: an input changes its state: the event, its count, INEVT, and wake source 4 where WAKE is set. -/
def inputChange (s : State) (i st : Nat) : State :=
  let a := fldBase + 0x60 + 4 * i
  let old := field s a 31 28
  let s := fieldEvent (setField s a 31 28 st) i old st (field s a 15 0)
  let s := raise (inc s (fldBase + 0xE0)) (fldBase + 0x10) 0
  if flag s (fldBase + 0x20 + 4 * i) 30 then wakeSource s 4 else s

/-- INPUT_SAMPLE (R625 to R628): VOFF in 10 mV, FWD and REV in 10 Ω; DEB consecutive samples of one class that differs from
the state change it. -/
def execInputSample (i : Nat) (voff fwd rev : BitVec 16) (s : State) : Res :=
  let cfg := getN s (fldBase + 0x20 + 4 * i)
  let a := fldBase + 0x60 + 4 * i
  .next <|
    if ¬ bit 31 cfg ∨ s.power.st = .off then s
    else
      let c := sampleClass s i voff.toInt fwd.toNat rev.toNat
      let run := if field s a 27 24 = c then satN 255 (field s a 23 16 + 1) else 1
      let s := setR s (fldBase + 0x80 + 4 * i) (reg voff.toNat)
      let s := setR s a (reg (field s a 31 28 * 2 ^ 28 + c * 2 ^ 24 + run * 2 ^ 16 + fwd.toNat))
      if c ≠ field s a 31 28 ∧ bits 7 0 cfg ≤ run then inputChange s i c else s

/-! ### Supervised outputs (R629 to R631) -/

/-- One output, and one replaced. -/
def getOut (s : State) (o : Nat) : Output := kvGet (fun _ => {}) s.fld.outs o
def setOut (s : State) (o : Nat) (x : Output) : State := { s with fld := { s.fld with outs := kvPut s.fld.outs o x } }

/-- Whether an output is enabled, and whether it is commanded on. -/
def outEn (s : State) (o : Nat) : Bool := flag s (fldBase + 0xA0 + 4 * o) 31
def outCmd (s : State) (o : Nat) : Bool := flag s (fldBase + 0xB0) o

/-- R628, R629: an output takes a state, with the current last measured. -/
def outChange (s : State) (o st current : Nat) : State :=
  let x := getOut s o
  let s := setOut s o { x with st := st, current := current, retryAt := if st = 3 then x.retryAt else none }
  if x.st = st then s else fieldEvent s (8 + o) x.st st current

/-- R629: the state of an output that follows its command, with its supply in band and its junction cool. -/
def outFollow (s : State) (o : Nat) : State :=
  if ¬ outEn s o then outChange s o 0 0
  else if s.fld.vfldBad then outChange s o 6 0
  else if ¬ outCmd s o then outChange s o 1 0
  else if (getOut s o).hot then outChange s o 5 0
  else outChange { s with uses := s.uses + 1 } o 2 (Config.outCurrent s.uses).toNat

/-- Whether an output's switch is on. -/
def outOn (s : State) (o : Nat) : Bool :=
  outEn s o && outCmd s o && ((getOut s o).st == 2 || (getOut s o).st == 4)

/-- FLD_OUT_CMD (R629, R630): bit o commands output o; the bit of an output that is not enabled is ignored, and a change of
command takes effect at once. -/
def outWrite (v : Reg) (s : State) : State :=
  let mine := (List.range 4).filter (outEn s)
  let old := getN s (fldBase + 0xB0)
  let s := mine.foldl (fun s o => setField s (fldBase + 0xB0) o o (b2n (bit o v.toNat))) s
  (mine.filter fun o => bit o old != bit o v.toNat).foldl outFollow s

/-- OUTPUT_SHORT (R629, R630, R633): 0.75 A or more for 50 µs opens the switch. -/
def execOutputShort (o current : Nat) (s : State) : Res :=
  .next <|
    if ¬ outOn s o then s
    else
      let wait := 1000000 * field s (fldBase + 0xA0 + 4 * o) 13 0
      let s := setOut s o { getOut s o with retryAt := some (now s + wait) }
      raise (outChange (inc s (fldBase + 0xE4)) o 3 current) (fldBase + 0x10) 1

/-- OUTPUT_RETRY (R630, R633): RETRY ms after a short the switch closes again, unless the junction is still hot. -/
def execOutputRetry (o : Nat) (s : State) : Res :=
  let x := getOut s o
  .next <| match x.retryAt with
  | some t =>
    if x.st ≠ 3 then s
    else
      let s := advance s t
      let hot := x.hot
      let s := outFollow s o
      if hot then raise (inc s (fldBase + 0xE8)) (fldBase + 0x10) 1 else s
  | none => s

/-- OUTPUT_OPEN (R629): an open load for 100 ms: while on, below 5 mA; while off, where OLOFF is set. -/
def execOutputOpen (o current : Nat) (s : State) : Res :=
  .next <|
    if outEn s o ∧ ((getOut s o).st = 2 ∨ ((getOut s o).st = 1 ∧ flag s (fldBase + 0xA0 + 4 * o) 30)) then
      raise (outChange (inc s (fldBase + 0xEC)) o 4 current) (fldBase + 0x10) 1
    else s

/-- OPEN_LOAD_CLEARED (R630): the condition of OPEN has ended. -/
def execOpenLoadCleared (o current : Nat) (s : State) : Res :=
  .next (if (getOut s o).st = 4 then outChange s o (if outCmd s o then 2 else 1) current else s)

/-- OUTPUT_THERM (R629, R630, R633): the switch junction reaches 150 °C, or has cooled to 130 °C. -/
def execOutputTherm (o : Nat) (hot : Bool) (current : Nat) (s : State) : Res :=
  let x := getOut s o
  .next <|
    if hot then
      let on := outOn s o
      let s := setOut s o { x with hot := true }
      if on then raise (outChange (inc s (fldBase + 0xE8)) o 5 current) (fldBase + 0x10) 1 else s
    else
      let s := setOut s o { x with hot := false }
      if x.st = 5 then outFollow s o else s

/-- R631: VFLD leaves or returns to its band. -/
def vfldChange (s : State) (bad : Bool) (mv : Nat) : State :=
  if s.fld.vfldBad = bad then s
  else
    let s := { s with fld := { s.fld with vfldBad := bad } }
    let s := fieldEvent s 14 (Config.vfldState (!bad)).toNat (Config.vfldState bad).toNat (mv / 100)
    let s := raise s (fldBase + 0x10) 2
    ((List.range 4).filter (outEn s)).foldl outFollow s

/-- VFLD_RESTORE (R631): VFLD, now at `mv`, has stayed within ±8% of 24,000 mV for 100 ms. -/
def execVfldRestore (mv : Nat) (s : State) : Res :=
  .next (if 22080 ≤ mv ∧ mv ≤ 25920 ∧ s.power.st ≠ .off then vfldChange s false mv else s)

/-- R629, R634: FLD_OUT_CFG written: an output enabled follows its command; one no longer enabled is DISABLED. -/
def outCfg (o : Nat) (old : Reg) (s : State) : State :=
  if bit 31 old.toNat = outEn s o then s else outFollow s o

/-- R626, R634: FLD_IN_CFG written: an input no longer enabled is DISABLED, and its count of samples begins again. -/
def inCfg (i : Nat) (s : State) : State :=
  let a := fldBase + 0x60 + 4 * i
  if flag s (fldBase + 0x20 + 4 * i) 31 then s
  else
    let s := if field s a 31 28 = 0 then s else inputChange s i 0
    setField s a 27 16 0

/-- R626: whether SHORTT, ALARMT and OPENT rise strictly. -/
def thresholdsOk (thr0 thr1 : Nat) : Bool := decide (bits 15 0 thr0 < bits 31 16 thr0 ∧ bits 31 16 thr0 < bits 15 0 thr1)

end Sys2Proof.Machine
end

