-- ==== Sys2Proof/Machine/Host.lean ====
section
/-!
DEFINITION. The PCIe endpoint with its functions, windows, interrupts and delivery rings (R635 to R646, R656 to R658, R677),
the Ethernet MACs, module time and the MDIO master (R650 to R655, R661).
-/
namespace Sys2Proof.Machine

/-! ### Delivery rings (R643 to R646) -/

/-- The receiver that ring `r` of function `f` names: queue and receiver. -/
def ringRecv (s : State) (f r : Nat) : Nat × Nat :=
  (field s (ringBase f r + 0x10) 15 0, field s (ringBase f r + 0x10) 23 21)

/-- Whether a ring is BOUND. -/
def ringBound (s : State) (f r : Nat) : Bool := flag s (ringBase f r + 0x20) 31

/-- A receiver's notice target (R191). -/
def setNotice (s : State) (q r kind target : Nat) : State :=
  let x := getQ s q
  setQ s q (setRecv x r { nth {} x.recvs r with kind := kind, target := target })

/-- R643: a ring unbound: its receiver returns to KIND 0. -/
def unbindRing (s : State) (f r : Nat) : State :=
  let s := if ringBound s f r then setNotice s (ringRecv s f r).1 (ringRecv s f r).2 0 0 else s
  setField (setField s (ringBase f r + 0x20) 31 31 0) (ringBase f r + 0x10) 31 31 0

/-- Whether a queue is a HOST queue of a loaded graph. -/
def hostQueue (s : State) (q : Nat) : Bool := s.graphs.any fun p => p.2.pl.hostQ == some q

/-- R643: whether a unit or a graph's program holds a receiver's role. -/
def roleHeld (s : State) (q r : Nat) : Bool :=
  [3973, 3974, 3978, 3979, 3982, 3983, 4048].contains q || decide (4032 ≤ q ∧ q < 4048)
    || s.graphs.any fun p => p.2.pl.sysRecv.contains (q, r)

/-- R643: the first condition that refuses a binding, 0 for none. -/
def bindResult (s : State) (f r v : Nat) : Nat :=
  let q := bits 15 0 v
  let x := getQ s q
  let k := bits 23 21 v
  let size := bits 28 24 v
  if ¬ qValid s q ∨ ¬ (hostQueue s q ∨ x.cfg.sys) then 1
  else if x.cfg.world ≠ decide (f = 1) then 2
  else if x.recvs.length ≤ k ∨ (nth {} x.recvs k).kind ≠ 0 ∨ roleHeld s q k then 3
  else if size < 7 ∨ 16 < size ∨ 2 ^ size < 2 * (1 + x.cfg.maxpkt) then 4
  else if getN s (ringBase f r) % 4096 ≠ 0 ∨ getN s (ringBase f r + 8) % 64 ≠ 0 then 5
  else 0

/-- R643: RING_CFG written with EN 1. A refused write leaves a ring that is bound as it is (log entry 46). -/
def ringBind (f r : Nat) (v : Reg) (s : State) : State :=
  let res := bindResult s f r v.toNat
  let b := ringBase f r
  if res ≠ 0 then
    let s := if ringBound s f r then s else setR s (b + 0x10) (v &&& 0x7FE0FFFF)
    setField s (b + 0x20) 7 0 res
  else
    let s := setR (unbindRing s f r) (b + 0x10) (v &&& 0xFFE0FFFF)
    let s := setNotice s (bits 15 0 v.toNat) (bits 23 21 v.toNat) 3 (getN s (b + 0x14))
    setR (setR (setR s (b + 0x18) 0) (b + 0x1C) 0) (b + 0x20) (reg (2 ^ 31))

/-- R643: RING_CFG written with EN 0. -/
def ringUnbind (f r : Nat) (v : Reg) (s : State) : State :=
  setR (unbindRing s f r) (ringBase f r + 0x10) (v &&& 0x7FE0FFFF)

/-- RING_BIND (R643). -/
def execRingBind (f r : Nat) (v : Reg) (s : State) : Res :=
  .next (if fnReach s f then ringBind f r (v ||| 0x80000000) s else s)

/-- RING_UNBIND (R643). -/
def execRingUnbind (f r : Nat) (v : Reg) (s : State) : Res := .next (if fnReach s f then ringUnbind f r v s else s)

/-- R646: a host doorbell: it leaves DOZE, and its CI is taken when (PI − CI) mod 2³² ≤ N. -/
def ringDoorbell (f r : Nat) (ci : Reg) (s : State) : State :=
  let s := if s.power.st = .doze then toRun s else s
  let b := ringBase f r
  if (getR s (b + 0x18) - ci).toNat ≤ 2 ^ field s (b + 0x10) 28 24 then setR s (b + 0x1C) ci
  else raise (setField s (b + 0x20) 7 0 6) (hifBase + 0x10) 6

/-- RING_DB (R646). -/
def execRingDb (f r : Nat) (ci : Reg) (s : State) : Res := .next (if fnReach s f then ringDoorbell f r ci s else s)

/-- The packet that waits at a ring's receiver, its own marker first: words, and whether it is a leap marker. -/
def ringHead (s : State) (f r : Nat) : Option (List QWord × Bool) :=
  let (q, k) := ringRecv s f r
  let x := getQ s q
  match (nth {} x.recvs k).markers with
  | m :: _ => some ([{ data := markerWord m.lkind m.first m.count, gen := 0, world := x.cfg.world }], true)
  | [] => (headFor x (nth {} x.recvs k)).map fun p => (p.words, p.leap)

/-- R644: cells that the next packet of `k` cells needs, with the pad before it. -/
def ringNeed (pi n k : Nat) : Nat := if k ≤ n - pi % n then k else n - pi % n + k

/-- R644, R645: whether a ring has a packet and room for it. -/
def ringReady (s : State) (f r : Nat) : Bool :=
  let b := ringBase f r
  let n := 2 ^ field s (b + 0x10) 28 24
  ringBound s f r && match ringHead s f r with
    | none => false
    | some (ws, _) =>
      let k := 1 + cdiv ws.length 8
      decide (ringNeed (getN s (b + 0x18)) n k ≤ n - (getR s (b + 0x18) - getR s (b + 0x1C)).toNat)

/-- R645: the ring that function `f` serves next, in ring order after the last one. -/
def nextRingOf (s : State) (f : Nat) : Option Nat :=
  let l := (getFn s f).lastRing
  ((List.range 32).map fun i => (l + 1 + i) % 32).find? (ringReady s f)

/-- R644, R645: the packet at a ring's head written to host memory: the pad where it does not fit before the end, the
image, PI and the packet count; then the packet removed and the message sent. -/
def deliver (s : State) (f r : Nat) : State :=
  let b := ringBase f r
  let (q, k) := ringRecv s f r
  let s := eccCheck (usePtr s q) q k
  match ringHead s f r with
  | none => s
  | some (ws, leap) =>
    let n := 2 ^ field s (b + 0x10) 28 24
    let pi := getN s (b + 0x18)
    let base := getN s b + 2 ^ 32 * getN s (b + 4)
    let cells := 1 + cdiv ws.length 8
    let pad := if cells ≤ n - pi % n then 0 else n - pi % n
    let s := if pad = 0 then s
      else emit s (.hostWrite f (base + 64 * (pi % n)) (leBytes 2 0 ++ leBytes 2 0xFFFF ++ zeros 60))
    let s := emit s (.hostWrite f (base + 64 * ((pi + pad) % n)) (packetImage ws leap))
    let s := setR s (b + 0x18) (reg (pi + pad + cells))
    let s := inc s (b + 0x24)
    let s := emit s (.hostWrite f (getN s (b + 8) + 2 ^ 32 * getN s (b + 0xC))
      (leBytes 4 (getN s (b + 0x18)) ++ leBytes 4 (getN s (b + 0x24))))
    let x := getQ s q
    let s := setQ s q (match (nth {} x.recvs k).markers with
      | _ :: l => setRecv x k { nth {} x.recvs k with markers := l }
      | [] => takePacket x k)
    msix (retrySquash s) f (field s (b + 0x14) 10 0)

/-- RING_DELIVERY (R640, R644, R645): function `f`'s engine serves the next ring that has a packet and room; a function that
does not reach the host leaves the packet where it is. -/
def execRingDelivery (f : Nat) (s : State) : Res :=
  .next <|
    if ¬ qmRuns s then s
    else match nextRingOf s f with
      | none => s
      | some r =>
        if ¬ hostReach s (f == 1) then
          inc (violation s (initId s (202 + f) false) 8 1 4 0xFF (getN s (ringBase f r) + 2 ^ 32 * getN s (ringBase f r + 4)))
            (hifBase + 0x30)
        else
          let s := setFn s f { getFn s f with lastRing := r }
          deliver s f r

/-! ### Resets of a function and the link (R637, R658, R676) -/

/-- R637: a function-level reset. -/
def fnReset (s : State) (f : Nat) : State :=
  let s := (List.range 32).foldl (fun s r => unbindRing s f r) s
  setFn (clearRegs s (fnPage f) (fnPage f + 0x1_0000)) f { lastRing := (getFn s f).lastRing }

/-- FUNCTION_LEVEL_RESET (R637). -/
def execFunctionLevelReset (f : Nat) (s : State) : Res :=
  .next (if dieOn s ∧ s.hif.link = .l0 ∧ fnPresent s f then fnReset s f else s)

/-- The link's state replaced, with HIF_LINK, which shows width and speed at L0 only. -/
def setLink (s : State) (l : Link) : State := setR { s with hif := { s.hif with link := l } } (hifBase + 4) 0

/-- R637: a reset of the link acts on both functions and is counted. -/
def linkReset (s : State) (l : Link) : State :=
  raise (inc (setLink (fnReset (fnReset s 0) 1) l) (hifBase + 0x3C)) (hifBase + 0x10) 0

/-- PCIE_PERST_N_ASSERT (R637): PCIE_PERST_N asserted, a hot reset, or a link-down. -/
def execPciePerstNAssert (k : LinkReset) (s : State) : Res :=
  .next <| match k with
  | .perst =>
    let s := { s with pins := { s.pins with perstN := false } }
    if dieOn s ∧ s.hif.link ≠ .reset then linkReset s .reset else s
  | _ => if dieOn s ∧ s.hif.link = .l0 then linkReset s .training else s

/-- PCIE_PERST_N_DEASSERT (R676): the endpoint leaves reset and trains its link. -/
def execPciePerstNDeassert (s : State) : Res :=
  .next <|
    let s := { s with pins := { s.pins with perstN := true } }
    if dieOn s ∧ s.hif.link = .reset then setLink s .training else s

/-- PME_TURN_OFF (R658). -/
def execPmeTurnOff (s : State) : Res := .next (if dieOn s ∧ s.hif.link = .l0 then setLink s .l2 else s)

/-- LINK_REACHES_L0 (R658, R661): the link has trained to a width and speed; PCIE_WAKE_N is released. -/
def execLinkReachesL0 (width speed : Nat) (s : State) : Res :=
  .next <|
    if dieOn s ∧ s.pins.perstN ∧ s.hif.link ≠ .l0 then
      let s := setR (setLink s .l0) (hifBase + 4) (reg (2 ^ 31 + width % 16 * 2 ^ 16 + speed % 8))
      { s with pins := { s.pins with pcieWakeN := true } }
    else s

/-! ### Configuration space and MSI-X (R636, R637, R642, R677) -/

/-- R642: messages pending on vectors that are no longer masked are sent. -/
def sendPending (s : State) (f : Nat) : State :=
  if ¬ (getFn s f).msixEn ∨ (getFn s f).msixMask then s
  else (List.range 64).foldl (fun s w =>
    let p := getN s (fnPage f + 0x8000 + 4 * w)
    if p = 0 then s
    else (List.range 32).foldl (fun s i =>
      let v := 32 * w + i
      if bit i p ∧ ¬ flag s (fnPage f + 16 * v + 12) 0 then
        msix (setR s (fnPage f + 0x8000 + 4 * w) (clearBit i (getR s (fnPage f + 0x8000 + 4 * w)))) f v
      else s) s) s

/-- MSIX_VECTOR_UNMASK (R642): the mask bit of a vector is cleared. -/
def execMsixVectorUnmask (f vec : Nat) (s : State) : Res :=
  .next <|
    if ¬ fnReach s f then s
    else
      let a := fnPage f + 16 * vec + 12
      sendPending (setR s a (clearBit 0 (getR s a))) f

/-- R636, R637: what a register of configuration space reads. -/
def cfgRead (s : State) (f : Nat) : CfgReg → Reg
  | .id => reg ((0x7160 + f) * 2 ^ 16 + 0x1E9B)
  | .cls => reg (0x120000 * 2 ^ 8 + Config.step.toNat)
  | .sub => reg ((if Config.variant = 1 then 0x0128 else 0x0064) * 2 ^ 16 + 0x1E9B)
  | .command => reg (4 * b2n (getFn s f).busMaster)
  | .power => reg (getFn s f).dstate
  | .msix => reg (2 ^ 31 * b2n (getFn s f).msixEn + 2 ^ 30 * b2n (getFn s f).msixMask + 2047 * 2 ^ 16 + 0x11)
  | .other o => Config.cfgOther o

/-- R636, R637: a write to configuration space. D0 and D3hot are the states the function has. -/
def cfgWrite (s : State) (f : Nat) (v : Nat) : CfgReg → State
  | .command => setFn s f { getFn s f with busMaster := bit 2 v }
  | .power => if v % 4 = 0 ∨ v % 4 = 3 then setFn s f { getFn s f with dstate := v % 4 } else s
  | .msix => sendPending (setFn s f { getFn s f with msixEn := bit 31 v, msixMask := bit 30 v }) f
  | _ => s

/-- CONFIG_REQUEST (R636, R637, R677): status 2 is Configuration Request Retry Status, 1 Unsupported Request. -/
def execConfigRequest (f : Nat) (write : Bool) (r : CfgReg) (v : Reg) (s : State) : Res :=
  .next <|
    if s.power.bootStep < 6 then emit s (.config f 2 0)
    else if ¬ dieOn s ∨ s.hif.link ≠ .l0 then s
    else if ¬ fnPresent s f then emit s (.config f 1 0)
    else if write then emit (cfgWrite s f v.toNat r) (.config f 0 0)
    else emit s (.config f 0 (cfgRead s f r))

/-! ### The memory window (R639, R171) -/

/-- The module address of byte `o` of BAR2 (R639). -/
def winAddr (s : State) (f o : Nat) : Nat := 2 ^ 32 * getN s (fnPage f + 0x1_0004) + o

/-- MEMORY_WINDOW_ACCESS (R639, R171, R552): a write of bytes, or a read of `n` bytes. -/
def execMemoryWindowAccess (f : Nat) (write : Bool) (o n : Nat) (l : List Byte) (s : State) : Res :=
  .next <|
    let len := if write then l.length else n
    let a := winAddr s f o
    let zero (s : State) : State := if write then s else emit s (.readData f (zeros n))
    if ¬ fnReach s f ∨ len = 0 then s
    else match access s (202 + f) false write a len with
      | (s, .unmapped) => zero (inc s (hifBase + 0x24))
      | (s, .denied) => zero s
      | (s, .nohost) => zero s
      | (s, .ok) =>
        if write then
          let s := { s with memBad := s.memBad.filter fun c => !(decide (a ≤ 64 * c) && decide (64 * c + 64 ≤ a + len)) }
          poke s a l
        else if (pagesOf a n).any fun p => tagOf s p != 0 then zero (inc s (hifBase + 0x2C))
        else if cellBad s a n then
          emit { s with uses := s.uses + 1 } (.readData f ((List.range n).map fun i => Config.freeByte s.uses i))
        else emit s (.readData f (peek s a n))

/-! ### Ethernet (R650 to R652, R655) -/

/-- Counter `i` of MAC `m` (R661). -/
def macCount (s : State) (m i : Nat) : State := inc s (macBase m + 0x80 + 4 * i)

/-- Whether MAC `m` is enabled, and whether its link is up. -/
def macOn (s : State) (m : Nat) : Bool := dieOn s && flag s (macBase m) 31
def macLink (s : State) (m : Nat) : Bool := flag s (macBase m + 4) 31

/-- R651: a frame's EtherType field behind an 802.1Q tag, with its offset. -/
def etherType (l : List Byte) : Nat × Nat :=
  if beNat (slice l 12 2) = 0x8100 then (beNat (slice l 16 2), 16) else (beNat (slice l 12 2), 12)

/-- R651: whether a frame is a PTP message. -/
def isPtp (l : List Byte) : Bool :=
  let (ty, o) := etherType l
  let ip := o + 2
  let ihl := 4 * (leAt l ip 1 % 16)
  let port := beNat (slice l (ip + ihl + 2) 2)
  ty == 0x88F7 || (ty == 0x0800 && leAt l (ip + 9) 1 == 17 && (port == 319 || port == 320))

/-- R651: whether the filter of MAC `m` passes a destination. -/
def macPasses (s : State) (m : Nat) (dst : List Byte) : Bool :=
  flag s (macBase m) 30 || dst == macAt s (macBase m + 8) || dst == List.replicate 6 0xFF ||
    (List.range 8).any fun k => flag s (macBase m + 0x24 + 8 * k) 31 && macAt s (macBase m + 0x20 + 8 * k) == dst

/-- R655: module time with a signed correction of 16 bits. -/
def stamped (s : State) (corr : Nat) : Nat := ((now s : Int) + sext 16 corr).toNat

/-- ETH_FRAME_RECEIVE (R651, R655, R659): a frame without its FCS; in DOZE it is a wake source and is received. -/
def execEthFrameReceive (m : Nat) (fcsOk : Bool) (l : List Byte) (s : State) : Res :=
  .next <|
    if ¬ macOn s m ∨ ¬ macLink s m then s
    else
      let s := wakeSource s 6
      if ¬ fcsOk ∨ l.length < 60 ∨ 9212 < l.length then macCount s m 2
      else if ¬ macPasses s m (l.take 6) then macCount s m 3
      else
        let ptp := isPtp l
        let flags := b2n (beNat (slice l 12 2) == 0x8100) + 2 * b2n ptp + 4 * (leAt l 0 1 % 2)
        let q := if ptp ∧ field s (hifBase + 0x20C) 1 0 = 1 then 3982 + m else 3976 + m
        rxEnqueue (macCount s m 0) q (205 + m) (macBase m + 0x84)
          (frameWords (l.length + 2 ^ 16 * m + 2 ^ 24 * flags) (stamped s (field s (macBase m + 0x10) 15 0)) l)

/-- R652: the transmit status of a packet with TSREQ. -/
def txStatus (s : State) (m w0 : Nat) (sent : Bool) : State :=
  if ¬ bit 16 w0 then s
  else
    let stamp := if sent then stamped s (field s (macBase m + 0x10) 31 16) else 0
    let st := bits 47 32 w0 + 2 ^ 16 * b2n sent + 2 ^ 17 * b2n (!sent)
    (enqPacket s (3980 + m) (205 + m) 0 [BitVec.ofNat 64 st, BitVec.ofNat 64 stamp]).1

/-- ETH_TRANSMIT (R652): the packet at the head of MAC `m`'s transmit queue is sent, or discarded. -/
def execEthTransmit (m : Nat) (s : State) : Res :=
  let q := getQ s (3978 + m)
  .next <|
    if ¬ macOn s m ∨ (headWords q 0).isNone then s
    else
      let (s, ws, leap) := deqPacket s (3978 + m) (205 + m) 0 2048
      match if leap then none else txFrame ws 9212 0xFFFF0001FFFF with
      | none => macCount s m 6
      | some (w0, l) =>
        if macLink s m then txStatus (emit (macCount s m 4) (.ethTx m l)) m w0 true
        else txStatus (macCount s m 5) m w0 false

/-- ETH_LINK_CHANGE (R652, R661): MAC `m`'s link comes up at a rate, or goes down (0). -/
def execEthLinkChange (m rate : Nat) (s : State) : Res :=
  .next <|
    if ¬ dieOn s then s
    else
      let was := macLink s m
      let s := setR s (macBase m + 4) (if rate = 0 then 0 else reg (2 ^ 31 + rate % 8))
      if was = macLink s m then s else raise s (hifBase + 0x10) (3 + m)

/-! ### Module time (R653, R654, R661) -/

/-- SERVO of HIF_TIME_CFG. -/
def servo (s : State) : Nat := field s (hifBase + 0x20C) 1 0

/-- R653: a value of ADJ in range. -/
def adjOk (v : Reg) : Bool := decide (v.toInt.natAbs ≤ 85899345)

/-- R653, R654: HIF_TIME_ADJ written. -/
def adjWrite (v : Reg) (s : State) : State := if servo s ≠ 1 ∧ adjOk v then setR s (hifBase + 0x208) v else s

/-- R653, R654, R661: HIF_TIME_OFS_HI written: both halves apply. -/
def ofsWrite (hi : Reg) (s : State) : State :=
  if servo s = 1 then s
  else
    let s := setR s (hifBase + 0x214) hi
    { s with hif := { s.hif with ptp := { s.hif.ptp with ofs := getN s (hifBase + 0x210) + 2 ^ 32 * hi.toNat } } }

/-- R654: the client's packet at the head of a PTP queue taken. -/
def takePtp (s : State) (m : Nat) : State := (deqPacket s (3982 + m) 201 0 2048).1

/-- R653, R654: ADJ as the client slews it, held within its range. -/
def slewed (use : Nat) : Reg := BitVec.ofInt 32 (clampI (-85899345) 85899345 (Config.ptpAdj use).toInt)

/-- PTP_SYNC (R654): the firmware client takes a PTP message of MAC MSEL, by which it has measured an offset in ns, and
discards what the other MAC's queue holds. -/
def execPtpSync (off : BitVec 64) (s : State) : Res :=
  let m := field s (hifBase + 0x20C) 16 16
  let q := getQ s (3982 + m)
  .next <|
    if servo s ≠ 1 ∨ ¬ qmRuns s ∨ (headFor q (nth {} q.recvs 0)).isNone then s
    else
      let o := off.toInt
      let s := takePtp s m
      let other := getQ s (3982 + (1 - m))
      let s := setQ s (3982 + (1 - m)) (if other.cfg.valid then flushQueue other else other)
      let s :=
        if 1000000 < o.natAbs then
          let n := wrap 64 ((s.hif.ptp.ofs : Int) - o)
          let s := setR (setR s (hifBase + 0x210) (reg (n % 2 ^ 32))) (hifBase + 0x214) (reg (n / 2 ^ 32))
          { s with hif := { s.hif with ptp := { s.hif.ptp with ofs := n } } }
        else setR { s with uses := s.uses + 1 } (hifBase + 0x208) (slewed s.uses)
      let good := if o.natAbs ≤ 1000 then s.hif.ptp.good + 1 else 0
      let lock := decide (10 ≤ good)
      let was := s.hif.ptp.locked
      let s := { s with hif := { s.hif with ptp := { s.hif.ptp with good := good, locked := lock } } }
      let s := setR s (hifBase + 0x218) (reg (2 ^ 31 * b2n lock + wrap 31 (clampI (-(2 ^ 30)) (2 ^ 30 - 1) o)))
      if was = lock then s else raise s (hifBase + 0x10) 5

/-- The world of the HIF_ block. -/
def hifWorld (s : State) : Bool := flag s (fwlBase + 0xA0) 0

/-- TIME_ADJ_WRITE (R653, R654). -/
def execTimeAdjWrite (secure : Bool) (v : Reg) (s : State) : Res :=
  .next (hostAccess secure (hifWorld s) (hifBase + 0x208) s (adjWrite v))

/-- TIME_OFS_WRITE (R653, R654, R661). -/
def execTimeOfsWrite (secure : Bool) (hi : Reg) (s : State) : Res :=
  .next (hostAccess secure (hifWorld s) (hifBase + 0x214) s (ofsWrite hi))

/-- R568, R661: HIF_TIME_LO answers the low half of module time and latches the high half. -/
def timeRead (secure : Bool) (s : State) : State :=
  let s := emit s (.readData (b2n secure) (leBytes 4 (now s)))
  { s with time := { s.time with latch := reg (now s / 2 ^ 32) } }

/-- TIME_READ_LATCH (R661): a read of HIF_TIME_LO answers the lower half of module time and latches the upper; a read that
R17 refuses answers 0. -/
def execTimeReadLatch (secure : Bool) (s : State) : Res :=
  .next <| ctlAccess secure false (hifWorld s) (hifBase + 0x200) s (timeRead secure)

/-! ### MDIO (R650, R661) -/

/-- An MDIO transaction: OP, C45, MAC, port, device or register, and the data or address it carries. -/
def mdio (op : Nat) (c45 : Bool) (m port dev data : Nat) (s : State) : State :=
  setR (emit s (.mdio op c45 m port dev data)) (hifBase + 0x1204) 0

/-- The key of a PHY device's Clause 45 address. -/
def mdioKey (m port dev : Nat) : Nat := 1024 * m + 32 * port + dev

/-- MDIO_WRITE (R650). -/
def execMdioWrite (secure c45 : Bool) (m port dev data : Nat) (s : State) : Res :=
  .next (hostAccess secure (hifWorld s) (hifBase + 0x1200) s (mdio 1 c45 m port dev data))

/-- MDIO_READ (R650): `v` is what the PHY answers. -/
def execMdioRead (secure c45 : Bool) (m port dev : Nat) (v : BitVec 16) (s : State) : Res :=
  .next (hostAccess secure (hifWorld s) (hifBase + 0x1200) s fun s =>
    setR (mdio 2 c45 m port dev 0 s) (hifBase + 0x1204) (reg v.toNat))

/-- MDIO_ADDRESS (R650): a Clause 45 address cycle; with C45 clear it is no transaction. -/
def execMdioAddress (secure c45 : Bool) (m port dev addr : Nat) (s : State) : Res :=
  .next (hostAccess secure (hifWorld s) (hifBase + 0x1200) s fun s =>
    if ¬ c45 then s
    else
      let s := mdio 3 c45 m port dev addr s
      { s with hif := { s.hif with mdioAddr := kvPut s.hif.mdioAddr (mdioKey m port dev) addr } })

end Sys2Proof.Machine
end

