-- ==== Sys2Proof/Machine/Diary.lean ====
section
/-!
DEFINITION. The diary in managed flash, its chain and its seals (R598 to R604), and the commands on it (R607, R608, R613).
-/
namespace Sys2Proof.Machine

/-- The first bytes of a SHA-384 as a byte string (R600, R604). -/
def hashBytes (n : Nat) (l : List Byte) : List Byte := ((leBytes 48 (Config.sha384 l).toNat).reverse).take n

/-- R599: the 48 bytes of an entry before its CHAIN, with or without REDACTED. -/
def DiaryItem.head (x : DiaryItem) (redacted : Bool) (data : List Byte) : List Byte :=
  leBytes 4 x.seq ++ leBytes 2 x.kind ++ leBytes 1 x.sev ++ leBytes 1 (b2n x.secure + 2 * b2n redacted)
    ++ leBytes 8 x.time ++ slice data 0 32

/-- R599: the 64 bytes of an entry. -/
def DiaryEntry.bytes (e : DiaryEntry) : List Byte :=
  withCrc (e.item.head false e.item.data ++ leBytes 12 e.chain.toNat)

/-- R604: an entry as the non-secure world reads it. -/
def DiaryEntry.redacted (e : DiaryEntry) : List Byte :=
  if e.item.secure then
    e.item.head true (hashBytes 32 (slice e.item.data 0 32)) ++ (e.bytes.drop 48)
  else e.bytes

/-- R600: the canonical form of an entry. -/
def DiaryEntry.canonical (e : DiaryEntry) : List Byte :=
  e.bytes.take 16 ++ hashBytes 32 (slice e.item.data 0 32) ++ e.bytes.drop 48

/-- R600: the CHAIN of the entry after `last`, zero for the first. -/
def chainAfter (last : Option DiaryEntry) : BitVec 96 :=
  match last with
  | some e => BitVec.ofNat 96 (leNat (hashBytes 12 e.canonical))
  | none => 0

/-- R600: an entry linked behind `last`. -/
def linkItem (last : Option DiaryEntry) (x : DiaryItem) : DiaryEntry := ⟨x, chainAfter last⟩

/-- The last entry that will stand in flash once every waiting entry is written. -/
def lastLinked (s : State) : Option DiaryEntry :=
  s.diary.buffer.foldl (fun last x => some (linkItem last x)) s.diary.flash.getLast?

/-- R601: a seal: the SEAL entry over the entries since the previous one, and its signature in three SIG entries. -/
def sealNow (s : State) : State :=
  let seq := s.diary.nextSeq
  let count := (seq + 2 ^ 32 - s.diary.sealFrom) % 2 ^ 32
  let data := leBytes 4 s.diary.sealFrom ++ leBytes 4 count ++ zeros 24
  let e := linkItem (lastLinked s) ⟨seq, 0x10, 0, false, now s, data⟩
  let sig := (leBytes 96 (Config.attest (Config.sha384 e.canonical)).toNat).reverse
  let s := diaryRaw s 0x10 0 false data
  let s := [0, 32, 64].foldl (fun s o => diaryRaw s 0x11 0 false (slice sig o 32)) s
  { s with diary := { s.diary with sealFrom := s.diary.nextSeq, sealWait := false } }

/-- R601, R613: a seal made, or held until the buffer has room for its four entries. -/
def sealDiary (s : State) : State :=
  if s.diary.buffer.length + 4 ≤ 1024 then sealNow s else { s with diary := { s.diary with sealWait := true } }

/-- R602: entries not recorded are named by a LOST entry once there is room. -/
def nameLost (s : State) : State :=
  if s.diary.lost = 0 ∨ 1024 ≤ s.diary.buffer.length then s
  else diary { s with diary := { s.diary with lost := 0 } } 0x13 1 false { aux := s.diary.lost }

/-- R597, R606: a write of flash fails: the FLASH cause is declared. -/
def flashFailed (s : State) : State := service { s with firm := { s.firm with flashBad := false } } 5

/-- R598: the ring of 4,194,304 entries, erased 4,096 entries at a time ahead of its write pointer. -/
def flashAppend (l : List DiaryEntry) (e : DiaryEntry) : List DiaryEntry :=
  (if 4194304 ≤ l.length then l.drop 4096 else l) ++ [e]

/-- R602: the oldest waiting entry reaches managed flash; a write that fails loses it. -/
def writeEntry (s : State) : State :=
  match s.diary.buffer with
  | [] => s
  | x :: t =>
    let s := { s with diary := { s.diary with buffer := t } }
    if s.firm.flashBad ∨ s.health.railsDown.contains 7 then
      let s := inc s (mgcBase + 0x50)
      flashFailed { s with diary := { s.diary with lost := s.diary.lost + 1 } }
    else
      { s with diary := { s.diary with flash := flashAppend s.diary.flash (linkItem s.diary.flash.getLast? x) } }

/-- DIARY_ENTRY_WRITTEN (R601, R602, R613): the oldest waiting entry is written; a LOST entry and a seal that waited for room,
and the seal due after 65,536 entries, follow. -/
def execDiaryEntryWritten (s : State) : Res :=
  .next <|
    if s.diary.buffer.isEmpty ∨ s.power.st = .off then s
    else
      let s := nameLost (writeEntry s)
      let due := decide (65536 ≤ (s.diary.nextSeq + 2 ^ 32 - s.diary.sealFrom) % 2 ^ 32)
      if s.diary.sealWait ∨ due then
        let s := sealDiary s
        if s.diary.sealWait then s else boxFinish s (fun c => c.op == 0x0402) 0 []
      else s

/-- R678: every waiting entry is written. -/
def flushDiary (s : State) : State := s.diary.buffer.foldl (fun s _ => writeEntry s) s

/-- R602: the check of the last 4,096 entries at a reset: on a break, a BREAK entry names the first SEQ that fails. -/
def checkChain (s : State) : State :=
  let recent := s.diary.flash.drop (s.diary.flash.length - 4096)
  match recent.find? fun e => s.diary.damaged.contains e.item.seq with
  | some e => service (diary s 0x14 3 false { aux := e.item.seq }) 6
  | none => s

/-! ### Commands (R607, R608) -/

/-- The entries in flash from `first` on, or from the oldest where that is later, at most `n`. -/
def entriesFrom (s : State) (first n : Nat) : List DiaryEntry :=
  let l := s.diary.flash
  match l.head? with
  | none => []
  | some h =>
    let skip := (first + 2 ^ 32 - h.item.seq) % 2 ^ 32
    ((if skip < 2 ^ 31 then l.drop skip else l)).take n

/-- The bytes of an entry as the world of box `b` reads it. -/
def entryFor (b : Nat) (e : DiaryEntry) : List Byte := if boxSecure b then e.bytes else e.redacted

/-- DIARY_READ (R604, R607, R608). -/
def cmdDiaryRead : BoxWork := fun s b a =>
  let n := argN a 1
  let es := entriesFrom s (argN a 0) n
  let first := (es.head?.map fun e => e.item.seq).getD (argN a 0)
  if b = 2 then
    if n ≠ 1 then (s, .done 0x21)
    else match es with
      | e :: _ => (s, .done 0 (wordsOf 16 (entryFor b e)))
      | [] => (s, .done 0x21)
  else if 65536 < n ∨ (es ≠ [] ∧ ¬ boxSpan s b true (arg64 a 2) (64 * es.length)) then (s, .done 0x21)
  else (poke s (arg64 a 2) (es.flatMap (entryFor b)), .done 0 [first, es.length])

/-- DIARY_SEAL (R601, R613). -/
def cmdDiarySeal : BoxWork := fun s _ _ =>
  let s := sealDiary s
  (s, if s.diary.sealWait then .wait else .done 0)

/-- DIARY_KEY (R601, R607). -/
def cmdDiaryKey : BoxWork := fun s b a =>
  if ¬ boxSpan s b true (arg64 a 0) Config.attestKey.length then (s, .done 0x21)
  else (poke s (arg64 a 0) Config.attestKey, .done 0)

/-- DIARY_NOTE (R603, R607). -/
def cmdDiaryNote : BoxWork := fun s b a =>
  (diaryRaw s 0x12 0 (boxSecure b) ((List.range 8).flatMap fun i => leBytes 4 (argN a i)), .done 0)

/-- DIARY_READ. -/
def execDiaryRead (via : Via) (tag : BitVec 16) (first count : Reg) (addr : BitVec 64) (s : State) : Res :=
  mailboxVia via 0x0401 tag ([first, count] ++ addrArgs addr) cmdDiaryRead s

/-- DIARY_SEAL. -/
def execDiarySeal (secure : Bool) (tag : BitVec 16) (s : State) : Res := mailbox secure 0x0402 tag [] cmdDiarySeal s

/-- DIARY_KEY. -/
def execDiaryKey (via : Via) (tag : BitVec 16) (addr : BitVec 64) (s : State) : Res :=
  mailboxVia via 0x0403 tag (addrArgs addr) cmdDiaryKey s

/-- DIARY_NOTE: eight argument words. -/
def execDiaryNote (secure : Bool) (tag : BitVec 16) (words : List Reg) (s : State) : Res :=
  mailbox secure 0x0404 tag (words.take 8) cmdDiaryNote s

end Sys2Proof.Machine
end

