-- ==== Sys2Proof/Machine/Firmware.lean ====
section
/-!
DEFINITION. The boot flash and its images (R557 to R559, R609 to R612), fuses and provisioning (R560 to R563), the version
handshake (R656), and the commands on them (R607).
-/
namespace Sys2Proof.Machine

/-! ### Images (R558, R559) -/

/-- An image slot: 0 A, 1 B; and one replaced. -/
def getSlotImage (s : State) (k : Nat) : ImageSlot := if k = 0 then s.firm.slotA else s.firm.slotB
def setSlotImage (s : State) (k : Nat) (x : ImageSlot) : State :=
  if k = 0 then { s with firm := { s.firm with slotA := x } } else { s with firm := { s.firm with slotB := x } }

/-- `n` bytes of a slot from offset `o`. -/
def slotBytes (x : ImageSlot) (o n : Nat) : List Byte :=
  (List.range n).map fun i => kvGet (fun _ => Config.erasedByte) x.bytes (o + i)

/-- R558: the security version and VERSION of a slot's image. -/
def slotSvn (x : ImageSlot) : Nat := if x.factory then Config.firmwareSvn.val else leAt (slotBytes x 0 512) 7 1
def slotVersion (x : ImageSlot) : Nat := if x.factory then Config.firmwareVersion else leAt (slotBytes x 0 512) 8 4

/-- R558, R559: every condition on an image but its security version. -/
def imageSigned (s : State) (x : ImageSlot) : Bool :=
  x.factory ||
    let h := slotBytes x 0 512
    let slot := leAt h 6 1
    let size := leAt h 12 4
    slice h 0 4 == [0x4B, 0x37, 0x46, 0x57] && leAt h 4 2 == 1 && (slice h 161 255).all (· == 0)
      && decide (slot < 3) && !bit slot s.fwl.fuses.rootrev && decide (leAt h 7 1 ≤ 32) && decide (size ≤ 29359616)
      && Config.sha384 (slice h 64 97) == Config.rooth slot
      && Config.ecdsaOk (slice h 64 97) (Config.sha384 (h.take 416)) (slice h 416 96)
      && (Config.sha384 (slotBytes x 512 size)).toNat == beNat (slice h 16 48)

/-- R559: whether the boot ROM accepts a slot's image; a slot being written holds none. -/
def imageOk (s : State) (x : ImageSlot) : Bool :=
  !x.open_ && imageSigned s x && decide (s.fwl.fuses.fwsvn ≤ slotSvn x)

/-! ### The boot selector (R609 to R611) -/

/-- R609: whether copy 0 is the one in force: the valid copy with the higher GEN. -/
def selFirst (s : State) : Bool :=
  s.firm.sel0.valid && (!s.firm.sel1.valid || decide (s.firm.sel1.gen ≤ s.firm.sel0.gen))

/-- The selector in force. -/
def selector (s : State) : Selector := if selFirst s then s.firm.sel0 else s.firm.sel1

/-- R609: the selector changed: the copy with the lower GEN is written, with GEN advanced by one. -/
def writeSelector (s : State) (x : Selector) : State :=
  let x := { x with gen := (selector s).gen + 1, valid := true }
  if selFirst s then { s with firm := { s.firm with sel1 := x } } else { s with firm := { s.firm with sel0 := x } }

/-- R603: an UPDATE entry. -/
def updateEntry (s : State) (code slot : Nat) : State :=
  diary s 0x90 (b2n (decide (4 ≤ code))) true { code := code, detail := slot, aux := slotVersion (getSlotImage s slot) }

/-- R559, R611: the boot ROM chooses a slot: the selector's trial while TRIES are left, else ACTIVE, then the other slot. The
answer names the slot and whether it is on trial, and whether a trial has fallen back. -/
def bootSelect (s : State) : State × Option (Nat × Bool) × Bool :=
  let x := selector s
  let other := 1 - x.active
  if x.trial = 1 ∧ 0 < x.tries then
    let s := writeSelector s { x with tries := x.tries - 1 }
    if imageOk s (getSlotImage s other) then (s, some (other, true), false)
    else (s, if imageOk s (getSlotImage s x.active) then some (x.active, false) else none, false)
  else
    let fell := x.trial == 1
    let s := if fell then writeSelector s { x with trial := 0, fallback := true } else s
    (s, if imageOk s (getSlotImage s x.active) then some (x.active, false)
        else if imageOk s (getSlotImage s other) then some (other, false) else none, fell)

/-- R587, R611, R614: the firmware that runs after the boot ROM's choice. -/
def startFirmware (s : State) : State × Bool :=
  let (s, r, fell) := bootSelect s
  match r with
  | none => ({ s with firm := { s.firm with fw := 2, trial := false, trialEnd := none } }, fell)
  | some (k, t) =>
    ({ s with firm := { s.firm with fw := 1, slot := k, trial := t, trialEnd := none,
                                    version := slotVersion (getSlotImage s k),
                                    svcSinceTrial := if t then false else s.firm.svcSinceTrial } }, fell)

/-- R611: what the firmware does at step 6 about a trial: it arms watchdog 250, or reports the fallback. -/
def trialStep (s : State) (fell : Bool) : State :=
  if s.firm.trial then
    let s := { s with firm := { s.firm with trialEnd := some (now s + 1000000000 * (selector s).trialWin) } }
    updateEntry s 2 s.firm.slot
  else if fell ∧ s.firm.fw = 1 then raise (updateEntry s 4 s.firm.slot) (mgcBase + 0x10) 6
  else s

/-! ### Updates (R610, R612) -/

/-- R607, R610: whether an address range lies in the staging area that the commands of box `b` read secure material from. -/
def secureStaging (s : State) (a n : Nat) : Bool := inStaging true a n || (!s.fwl.fuses.prov && inStaging false a n)

/-- A write or erase of the boot flash, which fails where the flash does (R597, R606). -/
def flashWrite (s : State) (f : State → State × BoxRes) : State × BoxRes :=
  if s.firm.flashBad ∨ s.health.railsDown.contains 7 then (flashFailed s, .done 0x25) else f s

/-- UPDATE_BEGIN (R610). -/
def cmdUpdateBegin : BoxWork := fun s _ a =>
  let size := argN a 0
  if s.firm.trial then (s, .done 0x22)
  else if size < 512 ∨ 28 * 2 ^ 20 < size then (s, .done 0x21)
  else flashWrite s fun s => (setSlotImage s (1 - (selector s).active) { open_ := true, size := size }, .done 0)

/-- UPDATE_WRITE (R610). -/
def cmdUpdateWrite : BoxWork := fun s _ a =>
  let addr := arg64 a 0
  let len := argN a 2
  let off := argN a 3
  let k := 1 - (selector s).active
  let x := getSlotImage s k
  if ¬ x.open_ then (s, .done 0x22)
  else if x.size < off + len ∨ ¬ secureStaging s addr len then (s, .done 0x21)
  else flashWrite s fun s =>
    (setSlotImage s k { x with bytes := (peek s addr len).zipIdx.foldl (fun l p => kvPut l (off + p.2) p.1) x.bytes }, .done 0)

/-- UPDATE_COMMIT (R610). -/
def cmdUpdateCommit : BoxWork := fun s _ a =>
  let win := argN a 0
  let k := 1 - (selector s).active
  let x := getSlotImage s k
  if ¬ x.open_ then (s, .done 0x22)
  else if win < 60 ∨ 86400 < win then (s, .done 0x21)
  else if ¬ imageSigned s x then (s, .done 0x23)
  else if slotSvn x < s.fwl.fuses.fwsvn then (s, .done 0x24)
  else flashWrite s fun s =>
    let s := setSlotImage s k { x with open_ := false }
    let s := writeSelector s { selector s with trial := 1, tries := 2, fallback := false, trialWin := win }
    (updateEntry s 1 k, .done 0)

/-- UPDATE_CONFIRM (R612). -/
def cmdUpdateConfirm : BoxWork := fun s _ _ =>
  if ¬ s.firm.trial ∨ s.firm.fw ≠ 1 ∨ s.chk.st ≠ 1 ∨ s.firm.svcSinceTrial then (s, .done 0x22)
  else flashWrite s fun s =>
    let k := s.firm.slot
    let s := { s with firm := { s.firm with trial := false, trialEnd := none } }
    let s := writeSelector s { selector s with active := k, trial := 0 }
    let s := { s with fwl := { s.fwl with fuses := { s.fwl.fuses with
      fwsvn := max s.fwl.fuses.fwsvn (min 32 (slotSvn (getSlotImage s k))) } } }
    (updateEntry s 3 k, .done 0)

/-- UPDATE_ABORT (R610). -/
def cmdUpdateAbort : BoxWork := fun s _ _ =>
  let k := 1 - (selector s).active
  if ¬ (getSlotImage s k).open_ then (s, .done 0x22)
  else flashWrite s fun s => (setSlotImage (updateEntry s 5 k) k {}, .done 0)

/-- UPDATE_BEGIN. -/
def execUpdateBegin (via : Via) (tag : BitVec 16) (size : Reg) (s : State) : Res :=
  mailboxVia via 0x0501 tag [size] cmdUpdateBegin s

/-- UPDATE_WRITE. -/
def execUpdateWrite (via : Via) (tag : BitVec 16) (addr : BitVec 64) (len off : Reg) (s : State) : Res :=
  mailboxVia via 0x0502 tag (addrArgs addr ++ [len, off]) cmdUpdateWrite s

/-- UPDATE_COMMIT. -/
def execUpdateCommit (via : Via) (tag : BitVec 16) (window : Reg) (s : State) : Res :=
  mailboxVia via 0x0503 tag [window] cmdUpdateCommit s

/-- UPDATE_CONFIRM. -/
def execUpdateConfirm (secure : Bool) (tag : BitVec 16) (s : State) : Res := mailbox secure 0x0504 tag [] cmdUpdateConfirm s

/-- UPDATE_ABORT. -/
def execUpdateAbort (via : Via) (tag : BitVec 16) (s : State) : Res := mailboxVia via 0x0505 tag [] cmdUpdateAbort s

/-! ### Provisioning (R562, R563) -/

/-- PROVISION (R562). -/
def cmdProvision : BoxWork := fun s b a =>
  let addr := arg64 a 0
  if s.fwl.fuses.prov then (s, .done 0x22)
  else if ¬ boxSpan s b false addr 48 then (s, .done 0x21)
  else
    let h := BitVec.ofNat 384 (beNat (peek s addr 48))
    ({ s with fwl := { s.fwl with fuses := { s.fwl.fuses with ownh := h, dbgdis := true, prov := true } } }, .done 0)

/-- R563: the record that 521 bytes hold. -/
def provOf (l : List Byte) : ProvRecord :=
  { svn := leAt l 0 1,
    keys := (List.range 4).map fun i => let k := slice l (1 + 97 * i) 97; (k, Config.keyRevoked k),
    unitw := (List.range 8).map fun w => reg (leAt l (389 + 4 * w) 4),
    blkw := reg (leAt l 421 4) }

/-- PROVREC_WRITE (R563). -/
def cmdProvrecWrite : BoxWork := fun s b a =>
  let addr := arg64 a 0
  if ¬ boxSpan s b false addr 521 then (s, .done 0x21)
  else
    let l := peek s addr 521
    if ¬ Config.ownerSigOk s.fwl.fuses.ownh (Config.sha384 (l.take 425)) (slice l 425 96) then (s, .done 0x23)
    else if leAt l 0 1 < s.fwl.fuses.psvn then (s, .done 0x24)
    else flashWrite s fun s => ({ s with fwl := { s.fwl with prov := some (provOf l) } }, .done 0)

/-- PROVISION. -/
def execProvision (secure : Bool) (tag : BitVec 16) (addr : BitVec 64) (s : State) : Res :=
  mailbox secure 0x0601 tag (addrArgs addr) cmdProvision s

/-- PROVREC_WRITE. -/
def execProvrecWrite (secure : Bool) (tag : BitVec 16) (addr : BitVec 64) (s : State) : Res :=
  mailbox secure 0x0602 tag (addrArgs addr) cmdProvrecWrite s

/-! ### The handshake (R656) -/

/-- VERSION (R656). -/
def cmdVersion : BoxWork := fun s b a =>
  if argN a 0 / 256 % 256 ≠ 1 ∨ argN a 1 % 2 ^ 16 = 0 then (s, .done 0x21)
  else
    let s := if b < 2 then setFn s b { getFn s b with done := true } else s
    (s, .done 0 ([1, 0x01000100, 1, 0x0100, Config.variant, Config.dramBytes % 2 ^ 32, Config.dramBytes / 2 ^ 32, s.firm.version,
      s.cls + 4 * b2n s.fwl.fuses.prov + 8 * b2n s.fwl.fuses.pf1en + 16 * b2n (s.firm.fw == 2) + 32 * b2n s.firm.trial]
      ++ (List.range 4).map fun i => (Config.serial i).toNat))

/-- VERSION: the host's protocol version and the highest HWGEN it understands. -/
def execVersion (via : Via) (tag : BitVec 16) (protocol hwgen : Reg) (s : State) : Res :=
  mailboxVia via 0x0701 tag [protocol, hwgen] cmdVersion s

end Sys2Proof.Machine
end

