-- ==== Sys2Proof/Machine/Power.lean ====
section
/-!
DEFINITION. Entry into VIGIL and SOLSTICE and the return to RUN (R569 to R573), and what survives a power state (R584).
-/
namespace Sys2Proof.Machine

/-! ### What a power state turns off (R569, R584, R588, R591) -/

/-- The managed units that a power state turns off. -/
def stateUnits (deep : Bool) : List Nat := List.range (if deep then 176 else 160) ++ [196, 197]

/-- R584, R591: a unit turned off by the power state: powered down when it was enabled, its epoch advanced. -/
def turnOff (s : State) (u : Nat) : State :=
  let r := getUnit s u
  match r.mstate with
  | .poweredDown => s
  | .enabled => bumpEpoch (setUnit s u { r with mstate := .poweredDown }) u
  | _ => bumpEpoch s u

/-- R595: a unit that the power state had powered down is enabled again. -/
def turnOn (s : State) (u : Nat) : State :=
  let r := getUnit s u
  if r.mstate = .poweredDown ∧ ¬ r.off then bumpEpoch (setUnit s u { r with mstate := .enabled }) u else s

/-- NOSAMPLE set in `n` sensor registers from offset `a`. -/
def noSample (a n : Nat) (s : State) : State :=
  (List.range n).foldl (fun s i => setR s (mgcBase + a + 4 * i) (setBit 30 (getR s (mgcBase + a + 4 * i)))) s

/-- R588: the readings of rails 0 to 2 carry NOSAMPLE while those rails are off. -/
def unsampleRails (s : State) : State := noSample 0x180 3 (noSample 0x140 3 s)

/-- R588: the readings of the sensors whose domain or rail is off carry NOSAMPLE: the die temperatures and rails 0 to 2. -/
def unsample (s : State) : State := unsampleRails (noSample 0x100 12 s)

/-- R584: a queue emptied; its configuration, its receivers and its counters stay. -/
def emptyQueue (q : Queue) : Queue :=
  { q with
    packets := [], openPkt := none, discard := [], dropPend := none, waits := [], ptrBad := false, flushing := false,
    flushTail := none, resetting := false, orphans := 0,
    recvs := q.recvs.map fun r =>
      { r with next := q.nextNum, off := 0, skipTo := 0, markers := [], kind := if r.kind = 2 then 0 else r.kind,
               target := if r.kind = 2 then 0 else r.target } }

/-- R584: an image pipeline without the frames, references and repeat counts that a power state discards; in SOLSTICE the
pipeline is off altogether. -/
def parkPipe (deep : Bool) (p : Pipe) : Pipe :=
  let loose (f : IspFrame) : IspFrame := { f with slot := none, acc := false }
  { p with cur := if deep then none else p.cur.map loose, ended := if deep then [] else p.ended.map loose, hold := none,
           ref := [], restart := true, prev := none, repeats := 0, judge := if deep then none else p.judge }

/-- R584: a sequencer without its slots. -/
def parkSeq (q : Seq) : Seq := { q with slots := [], nextOpen := 0, nextOut := 0, nextEve := 0, acts := [], prev := none }

/-- R584: a tensor core without its tile memory and its saved contexts. -/
def parkCore (h : TcHw) : TcHw := { h with core := {}, store := [], dram := [] }

/-- R584: the checker without its history, its lantern cycle and the units at hand. -/
def parkChk (c : Chk) : Chk :=
  { c with hist := [], jobs := [], subs := [], sigPos := 0, sigCrc := 0xFFFFFFFF, cycle := false, nextCycle := none, rerun := false,
           sets := c.sets.map fun p => (p.1, { p.2 with next := 0, done := 0, judged := false }) }

/-- Whether an address lies in the SOM keeping bank (R578). -/
def inKeepingBank (a : Nat) : Bool := decide (Config.somBase ≤ a ∧ a < Config.somBase + 0x40_0000)

/-- R571, R584: whether an address lies in the SOM placements of a loaded graph, which are parked and restored. -/
def inParked (s : State) (a : Nat) : Bool :=
  decide (Config.somBase ≤ a) && s.graphs.any fun p => p.2.pl.somEnts.any fun e =>
    let x := kvGet (fun _ => ({} : Region)) s.fwl.som e
    decide (x.first ≤ (a - Config.somBase) / 4096 ∧ (a - Config.somBase) / 4096 ≤ x.last)

/-- Whether a byte of memory outlasts VIGIL, or SOLSTICE (`deep`): external memory refreshes itself, the keeping bank stays
powered in VIGIL, SOM placements are parked, and the rest of SOM is off (R571, R584, the power domains of "The Module and the
Life of a Frame"; log entry 80). -/
def outlasts (s : State) (deep : Bool) (a : Nat) : Bool :=
  spaceOf a != .som || (!deep && inKeepingBank a) || inParked s a

/-- R584: everything that VIGIL, or SOLSTICE (`deep`), discards; what is parked at entry and restored at exit stays. -/
def discardState (deep : Bool) (s : State) : State :=
  { s with
    flags := [], held := [], gens := [], tags := [], ptags := [], nstat := [],
    queues := s.queues.map fun p => (p.1, emptyQueue p.2),
    pool := { s.pool with lastBreak := none },
    sched := { s.sched with tasks := [], posted := [], acts := [], flows := s.sched.flows.map fun p =>
      (p.1, { p.2 with assign := 0, release := 0, done := [] }) },
    flowWait := [], dmaLatch := [], dmaLast := [],
    graphs := s.graphs.map fun p => (p.1, { p.2 with st := .ready, stopAt := none }),
    seqs := s.seqs.map fun p => (p.1, parkSeq p.2), ctxs := [],
    pipes := s.pipes.map fun p => (p.1, parkPipe deep p.2),
    tcs := s.tcs.map fun p => (p.1, parkCore p.2),
    chk := parkChk s.chk,
    cdc := { s.cdc with pins := [], replay := { s.cdc.replay with read := none, ref := none } },
    hif := { s.hif with nv := {} },
    mem := s.mem.filter fun c => outlasts s deep c.1,
    vigil := if deep then [] else s.vigil,
    fsync := if deep then s.fsync.map fun p => (p.1, { p.2 with next_ := none }) else s.fsync,
    scm := if deep then [] else s.scm }

/-- R568: the crystal period that the management processor measured before the entry into SOLSTICE. -/
def measureCrystal (s : State) : State :=
  setR { s with uses := s.uses + 1 } (pwrBase + 0x4C) (Config.crystalPeriod s.uses)

/-- R658: a link still up at step 6 is taken to electrical idle, counted and reported. -/
def linkDown (s : State) : State :=
  if s.hif.link = .l2 then s
  else if s.hif.link = .reset then s
  else
    let was := s.hif.link
    let s := setLink s .l2
    if was = .l0 then raise (inc s (hifBase + 0x40)) (hifBase + 0x10) 7 else s

/-- R571 step 6: the domains of the target state are powered off. -/
def powerOff (s : State) (tgt : PState) : State :=
  let deep := tgt == .solstice
  let us := (stateUnits deep).filter fun u => !(s.power.st == .vigil && (stateUnits false).contains u)
  let s := us.foldl turnOff (unsample (linkDown s))
  let s := setR (setR s (hifBase + 0x100) 0) (qmBase + 0x40) 0
  let s := { s with pins := { s.pins with nvPerstN := false, nvPwrEn := false, pcieWakeN := deep || s.pins.pcieWakeN } }
  let s := if deep then measureCrystal s else s
  { discardState deep s with power := { s.power with entering := some (tgt, 6) } }

/-! ### Entry (R571, R576) -/

/-- R571 step 1: a graph stopped: a best-effort graph's slots are squashed with REASON STOPPED. -/
def stopForEntry (s : State) (key : Nat) : State :=
  let n := key / 2
  match getGraph s n (key % 2) with
  | none => s
  | some g =>
    let s := stopEffect s n (key % 2) g
    if kindOf n g = .best then stopSlots s n (key % 2) 0 else s

/-- R571 step 1, R576: a VIGIL or SOLSTICE command accepted; out of VIGIL the module moves straight to step 6 (R569). A
PWR_WAKETIME that has passed counts as a wake source that arrives now. -/
def beginEntry (s : State) (tgt : PState) : State :=
  let s :=
    if s.power.st = .vigil then powerOff s tgt
    else
      let keys := (s.graphs.filter fun p => p.2.st == .running).map Prod.fst
      let s := { s with power := { s.power with entering := some (tgt, 2), restart := keys } }
      replayStop (keys.foldl stopForEntry s)
  match wakeTime s with
  | some t => if t ≤ now s then wakeSource s 2 else s
  | none => s

/-- The step of an entry in progress. -/
def entryStep (s : State) : Nat := (s.power.entering.map Prod.snd).getD 0

/-- The next step of the entry. -/
def setStep (s : State) (k : Nat) : State :=
  { s with power := { s.power with entering := s.power.entering.map fun p => (p.1, k) } }

/-- R571 step 2: no frame of a sequencer's slots is still OPEN, or EVE and not squashed. -/
def slotsDrained (s : State) (n : Nat) : Bool :=
  (List.range 4).all fun i =>
    let x := getSlot s n i
    x.st == .free || x.st == .dated || x.notice.isSome

/-- ENTRY_DRAIN_COMPLETE (R571 step 2): every timed frame of the stopped graphs has drained. -/
def execEntryDrainComplete (s : State) : Res :=
  .next (if entryStep s = 2 ∧ (List.range 20).all (slotsDrained s) then setStep s 3 else s)

/-- The HOST queues of the loaded graphs. -/
def hostQueues (s : State) : List Nat := (s.graphs.filterMap fun p => p.2.pl.hostQ).eraseDups

/-- R571 step 3: packets left on a HOST queue discarded, and their number. -/
def dropHostQueue (r : State × Nat) (q : Nat) : State × Nat :=
  let x := getQ r.1 q
  (setQ r.1 q (emptyQueue x), r.2 + packetsFor x (nth {} x.recvs 0))

/-- R571 step 3: packets that a sequencer still has to place discarded, and their number. -/
def dropNotices (r : State × Nat) (n : Nat) : State × Nat :=
  (List.range 4).foldl (fun r _ =>
    let i := (getSeq r.1 n).nextOut
    let x := getSlot r.1 n i
    if x.notice.isSome then
      (packetOut r.1 n i, r.2 + b2n ((slotGraph r.1 n x).bind fun g => g.pl.hostQ).isSome)
    else r) r

/-- R603: STREAMS0 and STREAMS1: each stream's last dated frame counter. -/
def streamsEntries (s : State) : State :=
  let data (lo : Nat) := (List.range 8).flatMap fun i => leBytes 4 (getSeq s (lo + i)).lastDated
  diaryRaw (diaryRaw s 3 0 false (data 0)) 4 0 false (data 8)

/-- HOSTWAIT_EXPIRY (R571 step 3): the HOST queues are empty or PWR_HOSTWAIT has elapsed: packets that remain are discarded
and counted, and the open record segments close. -/
def execHostwaitExpiry (s : State) : Res :=
  .next <|
    if entryStep s ≠ 3 then s
    else
      let r := (hostQueues s).foldl dropHostQueue (s, 0)
      let (s, lost) := (List.range 20).foldl dropNotices r
      let s := if lost = 0 then s else raise (incBy s (pwrBase + 0x310) lost) (pwrBase + 0x10) 2
      setStep ((List.range 16).foldl closeSeg (streamsEntries s)) 4

/-- R648: a shutdown that does not complete. -/
def shutdownFailed (s : State) : State :=
  diary (inc s (hifBase + 0x11C)) Config.nvmeKind.toNat 1 (unitWorld s 196) { unit := 196 }

/-- ENTRY_SEGMENTS_CLOSED (R571 step 4, R648): the spools are written, or the time for it is over and what is left is lost;
the drive is told to shut down and `answered` within CDC_TIMEOUT. -/
def execEntrySegmentsClosed (answered : Bool) (s : State) : Res :=
  .next <|
    let up := s.hif.nv.up && s.cdc.vol == 1
    let left := (List.range 16).filter fun n => !(getRing s n).spool.isEmpty
    if entryStep s ≠ 4 ∨ (up ∧ (left ≠ [] ∨ s.cdc.write.isSome)) then s
    else
      let s := left.foldl (fun s n => (getRing s n).spool.foldl (fun s g => loseSeg s n 0x24 g) s) s
      setStep (if s.hif.nv.up ∧ ¬ answered then shutdownFailed s else s) 5

/-- R571, R586, R603: the target state is reached. -/
def enterState (s : State) (tgt : PState) : State :=
  let s := { s with power := { s.power with st := tgt, entering := none } }
  let s := inc s (pwrBase + (if tgt = .vigil then 0x304 else 0x308))
  let s := stateDone (diary s 5 0 false { code := pstateCode tgt }) 0
  if s.power.heldWake then beginExit s else s

/-- PARK_COMPLETE (R571 steps 5 and 6, R576, R601): first the state is parked and the domains are powered off; then, at the
end of step 6, the state is entered and a wake that was held starts the exit. -/
def execParkComplete (s : State) : Res :=
  .next <| match s.power.entering with
  | some (t, 5) => powerOff (sealDiary s) t
  | some (t, 6) => enterState s t
  | _ => s

/-! ### Exit (R572, R573) -/

/-- R572, R573, R595, R648, R658, R676: the module reaches RUN out of VIGIL or SOLSTICE. -/
def wakeUp (s : State) : State :=
  let deep := s.power.st == .solstice
  let keys := s.power.restart
  let s := (stateUnits deep).foldl turnOn s
  let s := toRun { s with power := { s.power with restart := [] } }
  let s := if s.pins.perstN then setLink s .training else linkReset s .reset
  let s := { s with pins := { s.pins with pcieWakeN := false, nvPwrEn := true }, hif := { s.hif with nv := { bring := true } } }
  let s := if deep then (List.range 4).foldl (fun s k => if flag s (ispBase k + 0x32000) 31 then fsArm s k else s) s else s
  serveWaiting (placeHeld (keys.foldl restartNow s))

/-- EXIT_TO_RUN (R572, R573): out of VIGIL and SOLSTICE once the queue pool is built again. -/
def execExitToRun (s : State) : Res :=
  .next <|
    if ¬ s.power.exiting then s
    else match s.power.st with
      | .doze => toRun s
      | .vigil => if s.pool.st = .run then wakeUp s else s
      | .solstice => if s.pool.st = .run then wakeUp s else s
      | _ => s

end Sys2Proof.Machine
end

