-- ==== Sys2Proof/Machine/Reset.lean ====
section
/-!
DEFINITION. Resets (R580 to R585): the power-on and module resets with the sequence of R581, cluster and unit resets, entry
into OFF (R678), the pins and the supply (R673, R679), and the power-state commands of PWR_CMD and of the mailbox (R570,
R574, R586, R607).
-/
namespace Sys2Proof.Machine

/-! ### What a power-on or module reset leaves (R584) -/

/-- R584, R614, R634: whether a register keeps its value through a module reset: the power block; of the management block the
service causes, the counters, the temperatures and the rails; of the field block the configuration and the state of the
alarm inputs and the counters. -/
def keptByModule (a : Nat) : Bool :=
  decide (pwrBase ≤ a ∧ a < pwrBase + 0x10_0000)
    || decide (mgcBase + 0x20 ≤ a ∧ a < mgcBase + 0x2C) || decide (mgcBase + 0x40 ≤ a ∧ a < mgcBase + 0x400)
    || decide (fldBase + 0x18 ≤ a ∧ a < fldBase + 0xA0) || decide (fldBase + 0xE0 ≤ a ∧ a < fldBase + 0x100)

/-- R584: the registers after a module reset; a state command that ran is over. -/
def regsAfterModule (s : State) : List (Nat × Reg) :=
  (s.regs.filter fun p => keptByModule p.1).map fun p =>
    if p.1 = pwrBase + 0x24 then (p.1, p.2 &&& 0xFF) else p

/-- R584: the registers after a power-on reset: the reset causes, the service causes, which managed flash keeps (R597), and
sensors without a sample. -/
def regsAfterPowerOn (s : State) : List (Nat × Reg) :=
  kvPut ((pwrBase + 0x48, getR s (pwrBase + 0x48)) :: unsampled) (mgcBase + 0x20) (getR s (mgcBase + 0x20))

/-- R601, R602: the diary after a power-on reset: what waited in the buffer is gone and was never linked. -/
def diaryAfterPowerOn (d : Diary) : Diary :=
  let last := (d.flash.getLast?.map fun e => (e.item.seq + 1) % 2 ^ 32).getD 0
  let seals := d.flash.filter fun e => e.item.kind == 0x10
  let first := (d.flash.head?.map fun e => e.item.seq).getD last
  { flash := d.flash, nextSeq := last, damaged := d.damaged,
    sealFrom := (seals.getLast?.map fun e => (e.item.seq + 4) % 2 ^ 32).getD first }

/-- R584: the module at the defaults of a power-on reset (`por`) or a module reset, before the boot ROM runs. Unit epochs are
advanced by the reset itself. -/
def wiped (por : Bool) (s : State) : State :=
  { pending := s.pending,
    time := if por then {} else { ns := s.time.ns, frac := s.time.frac },
    regs := if por then regsAfterPowerOn s else regsAfterModule s,
    mem := if por then [] else s.mem.filter fun c => spaceOf c.1 == .dram,
    pool := { weak := s.pool.weak, weakFw := s.pool.weakFw, badQueues := s.pool.badQueues, ptrMemBad := s.pool.ptrMemBad },
    genOrder := s.genOrder,
    fwl := { fuses := s.fwl.fuses, prov := s.fwl.prov },
    units := s.units,
    diary := if por then diaryAfterPowerOn s.diary else s.diary,
    firm := { s.firm with fw := 0, trialEnd := none },
    health := { svcSeq := s.health.svcSeq },
    power := { st := .run, supply := s.power.supply, bootStep := 2 },
    clock := { cur := classClock s.cls },
    cls := s.cls,
    pins := { s.pins with modPg := false, modWakeN := por || s.pins.modWakeN, pcieWakeN := true, nvPerstN := false, nvPwrEn := false },
    fld := { outs := s.fld.outs.map (fun p => (p.1, { hot := p.2.hot })), held := if por then [] else s.fld.held,
             vfldBad := s.fld.vfldBad },
    hif := { link := .reset, mdioAddr := s.hif.mdioAddr },
    seqs := if por then [] else s.seqs.map fun p => (p.1, { frameCtr := p.2.frameCtr, lastDated := p.2.lastDated }),
    sched := { order := s.sched.order },
    admits := s.admits,
    resident := s.resident,
    memBad := s.memBad,
    hostReads := s.hostReads,
    chk := { st := 0, selfBad := s.chk.selfBad, histBad := s.chk.histBad, mismatch := s.chk.mismatch, soft := s.chk.soft },
    cdc := { drive := s.cdc.drive, bad := s.cdc.bad },
    tcs := s.tcs.map fun p => (p.1, { parkCore p.2 with softWords := [], badWords := [] }),
    uses := s.uses,
    out := s.out }

/-- The managed units of R591. -/
def managedUnits : List Nat := List.range 176 ++ [196, 197]

/-! ### The sequence of R581 -/

/-- R563, R581 step 6: FWL_UNITW and FWL_BLKW from the provisioning record; the bits of fixed units are not written (R565). -/
def applyProvision (s : State) : State :=
  match s.fwl.prov with
  | none => s
  | some p =>
    let s := (List.range 6).foldl (fun s w => setR s (fwlBase + 0x80 + 4 * w) (nth 0 p.unitw w)) s
    let s := setR s (fwlBase + 0x98) (0xB00 ||| (nth 0 p.unitw 6 &&& 0x70FF))
    setR s (fwlBase + 0xA0) (p.blkw &&& 0xF)

/-- R80, R603: a resident graph admitted and loaded, or a RESREFUSED entry. -/
def loadResident (s : State) (p : Nat × List Byte) : State :=
  match loadGraph s 1 p.1 0 none p.2 with
  | (s, .done 0 _) => s
  | (s, .done r rsp) =>
    diary s 0x21 1 (unitWorld s (176 + p.1)) { seqn := p.1, code := r, detail := if r = 0x0D then nth 0 rsp 0 % 256 else 0 }
  | (s, _) => s

/-- R522, R581 step 5: the checker's self-test. -/
def checkerSelfTest (s : State) : State :=
  if s.chk.selfBad then chkFail s else { s with chk := { s.chk with st := 1 } }

/-- The endpoint after step 4 of R581: it trains its link unless PCIE_PERST_N holds it (R676, R679). -/
def endpointUp (s : State) : State :=
  { s with hif := { s.hif with link := if s.pins.perstN then .training else .reset } }

/-- R603: the entry of a power-up. -/
def powerupEntry (s : State) : State :=
  diary s 1 0 false { code := getN s (pwrBase + 0x48), detail := s.firm.slot, aux := s.firm.version }

/-- R581 steps 3 to 7: the boot ROM and the firmware it has accepted; without an image the recovery loader stays (R559). DBG_TXD sends
its progress codes (R668). -/
def boot (s : State) : State :=
  let s := { s with fwl := { s.fwl with fuses := { s.fwl.fuses with pf1en := s.fwl.fuses.prov } } }
  let (s, fell) := startFirmware s
  let s := { endpointUp s with power := { s.power with bootStep := 7 }, pins := { s.pins with modPg := true } }
  let s := emit s (.console (Config.bootCodes s.uses (s.firm.fw == 2)))
  if s.firm.fw = 2 then { s with uses := s.uses + 1 }
  else
    let s := checkerSelfTest (poolBuilt (poolTested s))
    let s := applyProvision { s with fwl := { s.fwl with dram := firmwareDram, som := firmwareSom } }
    let sys := (systemQueues (flag s (fwlBase + 0xA0) 3) (flag s (fwlBase + 0xA0) 0)).map fun p =>
      if s.pool.badQueues.contains p.1 then (p.1, { p.2 with cfg := { p.2.cfg with valid := false } }) else p
    let s := { s with queues := sys ++ (s.queues.filter fun p => p.1 < 3968) }
    let s := trialStep (powerupEntry (checkChain s)) fell
    let s := { s with hif := { s.hif with nv := { bring := true } }, pins := { s.pins with nvPwrEn := true } }
    let s := s.resident.foldl loadResident s
    let s := { s with uses := s.uses + 1 }
    placeHeld (sealDiary (diary s 2 0 false { aux := Config.bootMicros (s.uses - 1) }))

/-- R580, R583, R584: a module reset with its cause in PWR_RSTCAUSE; it also ends a power state (R569, R595). -/
def moduleReset (cause : Nat) (s : State) : State :=
  let s := streamsEntries (inc s (pwrBase + 0x318))
  let s := setR s (pwrBase + 0x48) (reg (2 ^ cause))
  boot (managedUnits.foldl bumpEpoch (managedUnits.foldl turnOn (wiped false s)))

/-- R580, R581, R583: a power-on reset, whose causes PWR_RSTCAUSE already holds. -/
def powerOnReset (s : State) : State :=
  boot (managedUnits.foldl bumpEpoch (managedUnits.foldl turnOn (wiped true s)))

/-! ### OFF, the pins and the supply (R673, R676, R678, R679) -/

/-- The single-ended outputs driven low, or released, in OFF. -/
def outputsOff (s : State) : State :=
  { s with pins := { s.pins with modPg := false, nvPerstN := false, nvPwrEn := false } }

/-- R14, R569, R584: the module without its power: graphs, timers and everything else that a power-on reset finds at its
default is gone; module time stands. -/
def poweredOff (s : State) (p : Power) : State := { wiped true (outputsOff s) with time := s.time, power := p }

/-- R678: OFF is entered: outputs low, waiting diary entries written, every rail off. -/
def enterOff (byCmd : Bool) (s : State) : State :=
  poweredOff (flushDiary s) { st := .off, supply := s.power.supply, brownout := s.power.brownout, offByCmd := byCmd }

/-- R581 step 1: a power-on reset begins, with its causes. -/
def beginPowerOn (causes : Nat) (s : State) : State :=
  let s := setR s (pwrBase + 0x48) (reg (1 + causes))
  { s with power := { st := .run, supply := true, bootStep := 1 } }

/-- MOD_EN_ASSERT (R581, R678): a module that entered OFF by command stays there. -/
def execModEnAssert (s : State) : Res :=
  .next <|
    let s := { s with pins := { s.pins with modEn := true } }
    if s.power.st = .off ∧ s.power.supply ∧ ¬ s.power.offByCmd then beginPowerOn (4 + 2 * b2n s.power.brownout) s else s

/-- MOD_EN_DEASSERT (R678, R679): for 1 ms or longer. -/
def execModEnDeassert (s : State) : Res :=
  .next <|
    let s := { s with pins := { s.pins with modEn := false } }
    if s.power.st = .off then { s with power := { s.power with offByCmd := false } } else enterOff false s

/-- MOD_RST_N_ASSERT (R580, R679): for 1 µs or longer; while a power-on reset begins, RSTPIN is set beside its cause. -/
def execModRstNAssert (s : State) : Res :=
  .next <|
    if ¬ s.pins.modEn ∨ s.power.st = .off then s
    else if s.power.bootStep = 1 then setR s (pwrBase + 0x48) (setBit 3 (getR s (pwrBase + 0x48)))
    else moduleReset 3 s

/-- SUPPLY_VALID (R581, R583, R673): VIN rises through 8.7 V. -/
def execSupplyValid (s : State) : Res :=
  .next <|
    if s.power.supply then s
    else
      let brown := s.power.brownout
      if s.pins.modEn then beginPowerOn (2 * b2n brown) s
      else { s with power := { st := .off, supply := true, brownout := brown } }

/-- SUPPLY_BROWNOUT (R583, R585, R673, R679): every rail goes off; entries that wait for the diary are lost. -/
def execSupplyBrownout (s : State) : Res :=
  .next <|
    if ¬ s.power.supply then s
    else poweredOff s { st := .off, supply := false, brownout := true }

/-- POWER_ON_RESET (R581, R666): the sequence runs from its step 2, at which the SMB_ADDR pins read `straps`. -/
def execPowerOnReset (straps : Nat) (s : State) : Res :=
  .next <|
    if s.power.bootStep = 1 then powerOnReset { s with pins := { s.pins with smbAddr := 0x58 + straps % 4 } } else s

/-- HOST_WAKE_N_ASSERT (R575): for 10 µs or longer. -/
def execHostWakeNAssert (s : State) : Res :=
  .next (wakeSource s 0)

/-! ### Cluster and unit resets (R582, R584) -/

/-- The units of the cluster that ARG names (R13, R586); FLD has none of R591. -/
def clusterUnits (k : Nat) : List Nat :=
  if k = 0 then (List.range 16).map (160 + ·)
  else if k = 1 then (List.range 28).map (132 + ·)
  else if k < 10 then (List.range 8).map (8 * (k - 2) + ·) ++ (List.range 8).map (64 + 8 * (k - 2) + ·)
  else if k = 10 then [128, 129, 130, 131]
  else if k = 11 then [196, 197]
  else []

/-- The registers of the cluster that ARG names, as ranges. -/
def clusterRegs (k : Nat) : List (Nat × Nat) :=
  if k = 0 then [(ispBase 0, ispBase 16)]
  else if k = 1 then [(strBase 0, strBase 4), (flwBase 0, flwBase 4), (ftrBase 0, ftrBase 4), (wrpBase 0, wrpBase 8), (pyrBase 0, pyrBase 8)]
  else if k < 10 then [(tcBase (8 * (k - 2)), tcBase (8 * (k - 2) + 8)), (dmaBase (k - 2), dmaBase (k - 1))]
  else if k = 10 then [(gthBase 0, gthBase 4)]
  else if k = 11 then [(cdcBase, cdcBase + 0x10_0000)]
  else [(fldBase, fldBase + 0x10_0000)]

/-- The registers of a unit; the codec's belong to the block. -/
def unitRegs (u : Nat) : Nat × Nat :=
  if u < 64 then (tcBase u, tcBase (u + 1))
  else if u < 128 then (dmaBase ((u - 64) / 8) + 0x1000 + 0x100 * (u % 8), dmaBase ((u - 64) / 8) + 0x1100 + 0x100 * (u % 8))
  else if u < 160 then (engBase u, engBase u + (if u < 132 then 0x10_0000 else if u < 144 then 0x4_0000 else 0x2_0000))
  else if u < 176 then (ispBase (u - 160), ispBase (u - 160) + 0x3_0000)
  else (cdcBase, cdcBase)

/-- R297, R582, R584: whether firmware restores a whole register: the configuration of an image pipeline and the addresses of
its outputs; the alarm inputs' wake configuration. -/
def restoredReg (a : Nat) : Bool :=
  (decide (ispBase 0 ≤ a ∧ a < ispBase 16) &&
    (let o := a % 0x4_0000
     capturedRegs.contains o || decide (0x48 ≤ o ∧ o < 0x58) || decide (0x100 ≤ o ∧ o < 0x200))) || a == fldBase + 0x18

/-- R582, R584: the registers of `[lo, hi)` after a cluster or unit reset: RWL fields and lock bits as they were, the rest at
its reset value. -/
def resetRegs (s : State) (r : Nat × Nat) : State :=
  { s with regs := s.regs.filterMap fun p =>
      if p.1 < r.1 ∨ r.2 ≤ p.1 ∨ restoredReg p.1 then some p
      else (rowOf p.1).bind fun x =>
        let m := reg (x.rwl ||| x.w1s)
        if m = 0 then none else some (p.1, (p.2 &&& m) ||| (regReset p.1 &&& ~~~m)) }

/-- R584: an image pipeline after its reset: its settings epochs, banks and batches, its references and its repeat count are
gone; its captured configuration stays. -/
def resetPipe (s : State) (n : Nat) : State :=
  let p := getPipe s n
  let s := setPipe s n { starts := p.starts, cap := p.cap, diff := p.diff }
  setSeq s n { getSeq s n with setEpoch := 0 }

/-- R584: the rewind mark lost. -/
def resetReplay (s : State) : State :=
  let s := replayStop s
  { s with cdc := { s.cdc with replay := {} } }

/-- R584: what a unit holds beside its registers, after its reset; a reset encoder's open segments close (R582). -/
def resetUnit (s : State) (u : Nat) : State :=
  if u < 64 then
    let h := getTc s u
    setTc s u { h with core := {}, store := [] }
  else if u < 128 then
    { s with dmaHalt := s.dmaHalt.filter (· != u - 64), dmaLatch := s.dmaLatch.filter (· != u - 64) }
  else if 160 ≤ u ∧ u < 176 then resetPipe s (u - 160)
  else if u = 196 then (List.range 16).foldl closeSeg s
  else if u = 197 then resetReplay s
  else s

/-- R582: the steps of a cluster or unit reset on a set of units and registers. -/
def resetUnits (s : State) (us : List Nat) (rs : List (Nat × Nat)) : State :=
  let s := squashUnits (us.foldl bumpEpoch s) us
  rs.foldl resetRegs (us.foldl resetUnit s)

/-- R582, R584, R633: the field block after its cluster reset: outputs off, segments disabled, input states DISABLED, and the
events that the monitor held lost and counted. -/
def resetField (s : State) : State :=
  let n := s.fld.held.length
  let s := resetRegs s (fldBase, fldBase + 0x10_0000)
  let outs := (List.range 4).map fun o =>
    (o, ({ st := if outEn s o then (if s.fld.vfldBad then 6 else 1) else 0, hot := (getOut s o).hot } : Output))
  let s := { s with fld := { s.fld with segs := [], held := [], outs := outs } }
  if n = 0 then s else raise (incBy s (fldBase + 0xF0) n) (fldBase + 0x10) 7

/-- R585: whether the domain of a cluster, or of a unit, is powered. -/
def clusterOn (s : State) (k : Nat) : Bool := if k = 12 then true else if k = 0 then pxcOn s else dieOn s
def unitOn (s : State) (u : Nat) : Bool := if 160 ≤ u ∧ u < 176 then pxcOn s else dieOn s

/-- R580, R582: a cluster reset. -/
def clusterReset (k : Nat) (s : State) : State :=
  let s := inc s (pwrBase + 0x31C)
  if k = 12 then resetField s
  else
    let s := resetUnits s (clusterUnits k) (clusterRegs k)
    if k = 0 then { s with fsync := [], ibi := [], scm := [] } else s

/-- R580, R582: a unit reset. -/
def unitReset (u : Nat) (s : State) : State := resetUnits (inc s (pwrBase + 0x320)) [u] [unitRegs u]

/-! ### Power-state commands (R569, R570, R574, R585, R586) -/

/-- Whether a state command, an entry or an exit is in progress; a reset and OFF do not wait for it (R585). -/
def powerBusy (s : State) : Bool := s.power.entering.isSome || s.power.exiting || s.power.dozePend

/-- R570: whether a graph that sets SAFETY is RUNNING. -/
def safetyRuns (s : State) : Bool := s.graphs.any fun p => p.2.st == .running && p.2.safety

/-- The RESULT with which a command is turned away, coded as OP of PWR_CMD. -/
def powerGate (s : State) (op : Nat) (force : Bool) (arg : Nat) (secure : Bool) : Nat :=
  if op = 0 ∨ 7 < op then 3
  else if op ≤ 3 ∧ powerBusy s then 2
  else if 4 ≤ op ∧ ¬ secure then 1
  else if s.power.st = .off ∨ s.power.bootStep ≠ 7 ∨ s.health.tripped then 3
  else if (op = 1 ∨ op = 2) ∧ s.power.st ≠ .run then 3
  else if op = 3 ∧ s.power.st ≠ .run ∧ s.power.st ≠ .vigil then 3
  else if (op = 2 ∨ op = 3) ∧ ¬ force ∧ safetyRuns s then 5
  else if op = 6 ∧ 12 < arg then 3
  else if op = 6 ∧ ¬ clusterOn s arg then 6
  else if op = 7 ∧ ¬ managed arg then 3
  else if op = 7 ∧ ¬ unitOn s arg then 6
  else 0

/-- DOZE, VIGIL or SOLSTICE accepted: over at once, or it runs. -/
def stateCmd (s : State) (op : Nat) : State × Option Nat :=
  if op = 1 then
    if quiet s then (enterDoze s, some 0) else ({ s with power := { s.power with dozePend := true } }, none)
  else
    let s := beginEntry s (if op = 2 then .vigil else .solstice)
    (s, if s.power.entering.isNone then some 4 else none)

/-- R586: PWR_CMD written with `v` by a world. -/
def pwrCmd (secure : Bool) (v : Nat) (s : State) : State :=
  let op := bits 31 28 v
  let arg := bits 7 0 v
  if flag s (pwrBase + 0x24) 31 then setField s (pwrBase + 0x24) 7 0 2
  else
    let r := powerGate s op (bit 27 v) arg secure
    if r ≠ 0 then pwrDone s r
    else if op ≤ 3 then
      match stateCmd s op with
      | (s, some r) => pwrDone s r
      | (s, none) => setR s (pwrBase + 0x24) 0x80000000
    else if op = 4 then enterOff true (pwrDone s 0)
    else if op = 5 then moduleReset 4 (pwrDone s 0)
    else if op = 6 then pwrDone (clusterReset arg s) 0
    else pwrDone (unitReset arg s) 0

/-- R570, R607: a power command of the mailbox: DOZE, VIGIL and SOLSTICE from the world of the PWR_ block. -/
def cmdPower (op tag : Nat) : BoxWork := fun s b a =>
  if op ≤ 3 ∧ ¬ boxMay b (flag s (fwlBase + 0xA0) 2) then (s, .done 0x0B)
  else
    let r := powerGate s op (argN a 0 % 2 == 1) (argN a 0 % 256) true
    if r ≠ 0 then (s, .done (if r = 3 ∧ op ≤ 5 then 0x22 else boxResultOf r))
    else if op ≤ 3 then
      match stateCmd s op with
      | (s, some r) => (s, .done (boxResultOf r))
      | (s, none) => (s, .wait)
    else if op = 4 then (enterOff true (boxDone s b tag 0 []), .gone)
    else if op = 5 then (moduleReset 5 (boxDone s b tag 0 []), .gone)
    else if op = 6 then (clusterReset (argN a 0 % 256) s, .done 0)
    else (unitReset (argN a 0 % 256) s, .done 0)

/-- The world of the PWR_ block. -/
def pwrWorld (s : State) : Bool := flag s (fwlBase + 0xA0) 2

/-- A power command: written to PWR_CMD (no TAG), or sent to the mailbox. -/
def powerCommand (secure : Bool) (tag : Option (BitVec 16)) (op : Nat) (force : Bool) (arg : Nat) (s : State) : Res :=
  match tag with
  | none => .next (hostAccess secure (pwrWorld s) (pwrBase + 0x20) s
      (pwrCmd secure (op * 2 ^ 28 + b2n force * 2 ^ 27 + arg % 256)))
  | some t => mailbox secure (0x0200 + op) t [reg (if op ≤ 3 then b2n force else arg)] (cmdPower op t.toNat) s

/-- DOZE (R574). -/
def execDoze (secure : Bool) (tag : Option (BitVec 16)) (s : State) : Res := powerCommand secure tag 1 false 0 s

/-- VIGIL (R570, R571). -/
def execVigil (secure : Bool) (tag : Option (BitVec 16)) (force : Bool) (s : State) : Res := powerCommand secure tag 2 force 0 s

/-- SOLSTICE (R569 to R571). -/
def execSolstice (secure : Bool) (tag : Option (BitVec 16)) (force : Bool) (s : State) : Res :=
  powerCommand secure tag 3 force 0 s

/-- OFF (R570, R678). -/
def execOff (secure : Bool) (tag : Option (BitVec 16)) (s : State) : Res := powerCommand secure tag 4 false 0 s

/-- MODULE_RESET (R570, R580, R581). -/
def execModuleReset (via : Via) (tag : Option (BitVec 16)) (s : State) : Res :=
  match via with
  | .box secure => powerCommand secure tag 5 false 0 s
  | .console => .next (if consoleTakes s 0x0205 then moduleReset 5 s else s)

/-- CLUSTER_RESET (R570, R582). -/
def execClusterReset (secure : Bool) (tag : Option (BitVec 16)) (cluster : BitVec 8) (s : State) : Res :=
  powerCommand secure tag 6 false cluster.toNat s

/-- UNIT_RESET (R570, R582). -/
def execUnitReset (secure : Bool) (tag : Option (BitVec 16)) (unit_ : BitVec 8) (s : State) : Res :=
  powerCommand secure tag 7 false unit_.toNat s

/-- TRIAL_WINDOW_EXPIRY (R611): watchdog 250 expires. -/
def execTrialWindowExpiry (s : State) : Res :=
  .next <| match s.firm.trialEnd with
  | some t => moduleReset 6 (advance s t)
  | none => s

/-- MANAGEMENT_WATCHDOG_EXPIRY (R587): watchdog 248 expires. -/
def execManagementWatchdogExpiry (s : State) : Res :=
  .next (if s.power.st = .off ∨ s.power.bootStep ≠ 7 then s else moduleReset 6 s)

end Sys2Proof.Machine
end

