-- ==== Sys2Proof/Machine/Manage.lean ====
section
/-!
DEFINITION. Management states of units (R591 to R595), service declarations (R597) and the mailbox commands on them (R607);
the table of mailbox commands and the SMBus sideband (R607, R608).
-/
namespace Sys2Proof.Machine

/-! ### Units (R591 to R595, R614) -/

/-- MSTATE of R591. -/
def mstateCode : MState → Nat
  | .enabled => 0
  | .fenced => 1
  | .retired => 2
  | .poweredDown => 3

/-- MGC_USTATE (R614). -/
def ustateWord (s : State) (u : Nat) : Nat :=
  let r := getUnit s u
  if managed u then min 15 r.fences * 2 ^ 20 + mstateCode r.mstate * 2 ^ 16 + r.epoch else 0

/-- R594: whether a loaded graph pins a unit. -/
def pinnedUnit (s : State) (u : Nat) : Bool :=
  s.graphs.any fun p => p.2.lines.any fun l => pinnedLine l && unitOfType l.type l.inst == u

/-- R594: a unit powered down. -/
def powerDownUnit (s : State) (u : Nat) : State := bumpEpoch (setUnit s u { getUnit s u with mstate := .poweredDown, off := true }) u

/-- UNIT_STATE (R607). -/
def cmdUnitState : BoxWork := fun s _ a =>
  let u := argN a 0
  let n := argN a 1
  if 16 < n ∨ 198 < u + n then (s, .done 0x21) else (s, .done 0 ((List.range n).map fun i => ustateWord s (u + i)))

/-- UNIT_FENCE (R593). -/
def cmdUnitFence : BoxWork := fun s _ a =>
  if managed (argN a 0) then (fenceUnit s (argN a 0) 4, .done 0) else (s, .done 0x21)

/-- UNIT_RELEASE (R595, R603). -/
def cmdUnitRelease : BoxWork := fun s _ a =>
  let u := argN a 0
  let r := getUnit s u
  if ¬ managed u then (s, .done 0x21)
  else if r.mstate ≠ .fenced then (s, .done 0x22)
  else
    let s := bumpEpoch (setUnit s u { r with mstate := .enabled, off := false }) u
    (diary s 0x83 0 (unitWorld s u) { unit := u, code := 4, detail := (getUnit s u).epoch }, .done 0)

/-- UNIT_POWER (R594, R595): 0 down, 1 up; a power-down of a busy unit waits. -/
def cmdUnitPower : BoxWork := fun s _ a =>
  let u := argN a 0
  let r := getUnit s u
  if ¬ managed u ∨ 1 < argN a 1 then (s, .done 0x21)
  else if r.mstate = .fenced ∨ r.mstate = .retired then (s, .done 0x22)
  else if argN a 1 = 1 then
    (if r.mstate = .poweredDown then bumpEpoch (setUnit s u { r with mstate := .enabled, off := false }) u else s, .done 0)
  else if r.mstate = .poweredDown then (s, .done 0)
  else if pinnedUnit s u then (s, .done 0x22)
  else if busy s u then (s, .wait)
  else (powerDownUnit s u, .done 0)

/-- R594: a UNIT_POWER command that waits: the unit has become idle, or 100 ms have passed. -/
def unitPowerDue (s : State) : State :=
  s.boxes.foldl (fun s x =>
    let c := x.2
    if c.op ≠ 0x0305 then s
    else if (getUnit s c.arg).mstate ≠ .enabled then boxDone s x.1 c.tag 0x22 []
    else if ¬ busy s c.arg then boxDone (powerDownUnit s c.arg) x.1 c.tag 0 []
    else if c.since + 100000000 ≤ now s then boxDone s x.1 c.tag 0x22 []
    else s) s

/-! ### Sensors and service (R597, R607) -/

/-- SENSOR_READ (R607): the values of MGC_TEMP, MGC_RAILV and MGC_RAILI, in a packing the specification leaves open. -/
def cmdSensorRead : BoxWork := fun s _ _ =>
  let regs (a n : Nat) : List Reg := (List.range n).map fun i => getR s (mgcBase + a + 4 * i)
  let l := regs 0x100 16 ++ regs 0x140 11 ++ regs 0x180 11
  (s, .done 0 ((List.range 16).map fun i => (Config.sensorRsp l i).toNat))

/-- SERVICE_READ (R607). -/
def cmdServiceRead : BoxWork := fun s _ _ =>
  (s, .done 0 (getN s (mgcBase + 0x20) :: (List.range 8).map (kvGet (fun _ => 0) s.health.svcSeq)))

/-- SERVICE_CLEAR (R597): the causes that a valid token names are cleared. -/
def cmdServiceClear : BoxWork := fun s _ a =>
  let addr := arg64 a 0
  if ¬ secureStaging s addr Config.tokenLen then (s, .done 0x21)
  else
    let l := peek s addr Config.tokenLen
    if ¬ Config.tokenOk l then (s, .done 0x28)
    else
      let causes := (Config.tokenCauses l).toNat
      let s := { s with health := { s.health with svcSeq := s.health.svcSeq.filter fun p => !bit p.1 causes } }
      (setR s (mgcBase + 0x20) (getR s (mgcBase + 0x20) &&& ~~~(reg causes)), .done 0)

/-- SENSOR_READ. -/
def execSensorRead (via : Via) (tag : BitVec 16) (s : State) : Res := mailboxVia via 0x0301 tag [] cmdSensorRead s

/-- UNIT_STATE. -/
def execUnitState (secure : Bool) (tag : BitVec 16) (first count : Reg) (s : State) : Res :=
  mailbox secure 0x0302 tag [first, count] cmdUnitState s

/-- UNIT_FENCE. -/
def execUnitFence (secure : Bool) (tag : BitVec 16) (unit_ : Reg) (s : State) : Res :=
  mailbox secure 0x0303 tag [unit_] cmdUnitFence s

/-- UNIT_RELEASE. -/
def execUnitRelease (secure : Bool) (tag : BitVec 16) (unit_ : Reg) (s : State) : Res :=
  mailbox secure 0x0304 tag [unit_] cmdUnitRelease s

/-- UNIT_POWER: 0 down, 1 up. -/
def execUnitPower (secure : Bool) (tag : BitVec 16) (unit_ up : Reg) (s : State) : Res :=
  mailbox secure 0x0305 tag [unit_, up] cmdUnitPower s

/-- SERVICE_READ. -/
def execServiceRead (via : Via) (tag : BitVec 16) (s : State) : Res := mailboxVia via 0x0306 tag [] cmdServiceRead s

/-- SERVICE_CLEAR. -/
def execServiceClear (secure : Bool) (tag : BitVec 16) (addr : BitVec 64) (s : State) : Res :=
  mailbox secure 0x0307 tag (addrArgs addr) cmdServiceClear s

/-! ### The table of commands (R607) and the SMBus sideband (R608) -/

/-- R607: the work of a command of the mailbox by its OP. -/
def boxWorkOf (op tag : Nat) : BoxWork :=
  match op with
  | 0x0101 => cmdGraphLoad
  | 0x0102 => cmdGraphStart
  | 0x0103 => cmdGraphStop
  | 0x0104 => cmdGraphReplace
  | 0x0105 => cmdGraphUnload
  | 0x0106 => cmdAdmitTrial
  | 0x0107 => cmdAlmanacRead
  | 0x0108 => cmdCoolingSet
  | 0x0109 => cmdTableRegister
  | 0x0301 => cmdSensorRead
  | 0x0302 => cmdUnitState
  | 0x0303 => cmdUnitFence
  | 0x0304 => cmdUnitRelease
  | 0x0305 => cmdUnitPower
  | 0x0306 => cmdServiceRead
  | 0x0307 => cmdServiceClear
  | 0x0401 => cmdDiaryRead
  | 0x0402 => cmdDiarySeal
  | 0x0403 => cmdDiaryKey
  | 0x0404 => cmdDiaryNote
  | 0x0501 => cmdUpdateBegin
  | 0x0502 => cmdUpdateWrite
  | 0x0503 => cmdUpdateCommit
  | 0x0504 => cmdUpdateConfirm
  | 0x0505 => cmdUpdateAbort
  | 0x0601 => cmdProvision
  | 0x0602 => cmdProvrecWrite
  | 0x0701 => cmdVersion
  | _ => if 0x0201 ≤ op ∧ op ≤ 0x0207 then cmdPower (op - 0x0200) tag else fun s _ _ => (s, .done 0x20)

/-- SMBUS_BLOCK_WRITE (R575, R608, R666): a block write to command 0x01 at a 7-bit address; a packet whose PEC fails is
discarded. A SOLSTICE command in VIGIL moves the module on instead of waking it (R569). -/
def execSmbusBlockWrite (addr : Nat) (pecOk : Bool) (op tag : BitVec 16) (args : List Reg) (s : State) : Res :=
  .next <|
    if addr ≠ s.pins.smbAddr ∨ ¬ pecOk ∨ s.power.st = .off ∨ s.power.bootStep ≠ 7 ∨ s.health.railsDown.contains 8 then s
    else
      let s := if op.toNat = 0x0203 ∧ s.power.st = .vigil then s else wakeSource s 1
      boxRun s 2 op.toNat tag.toNat (args.take 16) (boxWorkOf op.toNat tag.toNat)

end Sys2Proof.Machine
end

