-- ==== Sys2Proof/Machine/Sensors.lean ====
section
/-!
DEFINITION. Sensors, rails and heat (R588 to R590), the tensor-core clock (R567), the restoring of shed graphs (R155), and
the audit (R596).
-/
namespace Sys2Proof.Machine

/-! ### Readings (R588, R614) -/

/-- The reading of MGC_TEMP[i] in 0.125 °C. -/
def tempOf (s : State) (i : Nat) : Int := sext 16 (getN s (mgcBase + 0x100 + 4 * i))

/-- R588: whether a temperature register has had a sample. -/
def tempSampled (s : State) (i : Nat) : Bool := !flag s (mgcBase + 0x100 + 4 * i) 30

/-- R590: Tmax, the highest of the die readings, in 0.125 °C; none before a sample. -/
def tmax (s : State) : Option Int :=
  match ((List.range 12).filter (tempSampled s)).map (tempOf s) with
  | [] => none
  | t :: l => some (maxI t l)

/-- R590: the highest of the module thermistors in 0.125 °C. -/
def boardMax (s : State) : Option Int :=
  match ((List.range 4).filter fun i => tempSampled s (12 + i)).map fun i => tempOf s (12 + i) with
  | [] => none
  | t :: l => some (maxI t l)

/-- Whether a temperature that has been read reaches `lim` °C. -/
def reaches (t : Option Int) (lim : Int) : Bool := (t.map fun t => decide (8 * lim ≤ t)).getD false

/-- WARNT in °C. -/
def warnT (s : State) : Int := field s (mgcBase + 0x2C) 7 0

/-- R590, R614: the thermal level, as CODE of THERM. -/
def thermLevel (s : State) : Nat :=
  if s.health.tripped then 4 else if reaches (tmax s) 110 then 3 else if reaches (tmax s) 100 then 2
  else if reaches (tmax s) (warnT s) || reaches (boardMax s) 90 then 1 else 0

/-- MGC_THERM after a sample. -/
def showTherm (s : State) : State :=
  setR s (mgcBase + 0x28) (reg (wrap 16 ((tmax s).getD 0) * 2 ^ 16 + thermLevel s))

/-- When a condition that has held since `old` holds, or begins to hold, or ends. -/
def since (s : State) (old : Option Nat) (holds : Bool) : Option Nat :=
  if holds then (match old with
    | some t => some t
    | none => some (now s))
  else none

/-- R590: the times since which the conditions of the heat table hold. -/
def trackHeat (s : State) : State :=
  let cool := (tmax s).isSome && !((tmax s).map fun t => decide (736 < t)).getD true && decide (goalClock s < classClock s.cls)
  let hot := reaches (tmax s) 115 && decide (s.clock.cur ≤ 300)
  { s with health := { s.health with
      coolSince := since s s.health.coolSince cool,
      hotSince := since s s.health.hotSince hot,
      boardHot := since s s.health.boardHot (reaches (boardMax s) 100) } }

/-- R588: the limits of a sensor in the steps of its samples. -/
def sensorRange (k : SensorKind) (i : Nat) : Int × Int :=
  match k with
  | .temp => if i < 12 then (-320, 1200) else (-160, 500)
  | .volt => (0, if i = 10 then 4000 else 40000)
  | .curr => (0, if i = 10 then 10000 else 40000)

/-- R588, R589: whether a sensor is sampled: a die temperature while the compute die is powered, and through a thermal trip,
which waits on it (R590); a rail while it is on. -/
def sensorOn (s : State) (k : SensorKind) (i : Nat) : Bool :=
  s.power.st != .off && s.power.bootStep == 7 &&
    match k with
    | .temp => decide (12 ≤ i ∧ i < 16) || (decide (i < 12) && (dieOn s || s.health.tripped))
    | _ => decide (i < 11) && !s.health.railsDown.contains i && (decide (3 ≤ i) || dieOn s)

/-- The register of a sensor. -/
def sensorReg (k : SensorKind) (i : Nat) : Nat :=
  mgcBase + (match k with
    | .temp => 0x100
    | .volt => 0x140
    | .curr => 0x180) + 4 * i

/-- SENSOR_SAMPLE (R568, R588): sensor `i` of a kind reads `v`, in the resolution of R588 (a thermistor in 0.25 °C). A sample
of a thermistor in SOLSTICE corrects the crystal period. -/
def execSensorSample (k : SensorKind) (i : Nat) (v : BitVec 32) (s : State) : Res :=
  .next <|
    if ¬ sensorOn s k i then s
    else
      let r := sensorRange k i
      let x := clampI r.1 r.2 v.toInt
      let y := if k = .temp ∧ 12 ≤ i then 2 * x else x
      let s := setR s (sensorReg k i) (reg (2 ^ 31 * b2n (x != v.toInt) + wrap 16 y))
      let s := if k = .temp then trackHeat (showTherm s) else s
      if k = .temp ∧ 12 ≤ i ∧ s.power.st = .solstice then measureCrystal s else s

/-! ### Rails (R589) -/

/-- The nominal voltage of a rail in mV. -/
def railNominal : Nat → Nat
  | 0 => 750
  | 1 => 750
  | 2 => 850
  | 3 => 800
  | 4 => 1050
  | 5 => 900
  | 6 => 500
  | 7 => 1800
  | 8 => 3300
  | _ => 24000

/-- Whether a voltage lies outside ±`pct` % of the rail's nominal. -/
def railOut (r mv pct : Nat) : Bool := decide (pct * railNominal r < 100 * ((mv : Int) - railNominal r).natAbs)

/-- Whether a rail is on. -/
def railOn (s : State) (r : Nat) : Bool := decide (r < 10) && sensorOn s .volt r

/-- RAILWARN (R589, R603): rail `r` has stood at `mv`, outside ±5%, for 1 ms. -/
def execRailwarn (r mv : Nat) (s : State) : Res :=
  .next <|
    if railOn s r ∧ railOut r mv 5 then
      raise (diary s 0x81 1 false { code := r, detail := mv }) (mgcBase + 0x10) 4
    else s

/-- The compute die without its power: everything outside the AON island at its defaults, as before a module reset. -/
def dieDown (s : State) : State :=
  let h := s.health
  let w := wiped false s
  { w with health := { h with freed := false, risen := false }, firm := { s.firm with trialEnd := none },
           pins := { w.pins with modPg := s.pins.modPg },
           power := { s.power with entering := none, exiting := false, restart := [], dozePend := false } }

/-- R589: units of domains that a rail fault turns off: powered down until UNIT_POWER, their work squashed. -/
def railUnits (s : State) (us : List Nat) : State :=
  squashUnits (us.foldl (fun s u => if (getUnit s u).mstate = .enabled then powerDownUnit s u else s) s) us

/-- R589: what a rail feeds turned off: 0 the tensor clusters; 1 the rest of the die; 2 SOM, the tile memories and the queue
pool; 3 the AON island; 4 to 6 external memory. -/
def railOff (s : State) (r : Nat) : State :=
  let s := { s with health := { s.health with railsDown := r :: s.health.railsDown } }
  if r = 0 then railUnits s (List.range 128)
  else if r = 1 then dieDown (unsample (railUnits s (managedUnits.filter fun u => decide (128 ≤ u))))
  else if r = 2 then
    let s := discardState false (railUnits s (List.range 64))
    { s with pool := { s.pool with st := .test }, mem := s.mem.filter fun c => spaceOf c.1 == .dram }
  else if r = 3 then
    poweredOff s { st := .off, supply := s.power.supply, offByCmd := true }
  else if r < 7 then { s with mem := s.mem.filter fun c => spaceOf c.1 != .dram }
  else s

/-- RAILFAULT (R589, R597, R603, R631): rail `r` has stood at `mv`, outside ±8%, for 1 ms. -/
def execRailfault (r mv : Nat) (s : State) : Res :=
  .next <|
    if ¬ railOn s r ∨ ¬ railOut r mv 8 then s
    else
      let s := raise s (mgcBase + 0x10) 4
      if r = 9 then vfldChange s true mv
      else railOff (service (diary s 0x81 3 false { code := r, detail := mv }) 4) r

/-- SUPPLYLOW (R589): the input supply has read below 9,000 mV for 10 ms. -/
def execSupplylow (s : State) : Res :=
  let v := mgcBase + 0x140 + 40
  .next (if ¬ flag s v 30 ∧ field s v 15 0 < 900 ∧ s.power.st ≠ .off then raise s (mgcBase + 0x10) 5 else s)

/-! ### Heat (R590) -/

/-- R603: a THERM entry. -/
def thermEntry (s : State) (code : Nat) : State :=
  diary s 0x80 1 false { code := code, detail := wrap 16 ((tmax s).getD 0), aux := goalClock s }

/-- THERMWARN (R575, R590). -/
def execThermwarn (s : State) : Res :=
  .next <|
    if s.power.st ≠ .off ∧ (reaches (tmax s) (warnT s) ∨ reaches (boardMax s) 90) then
      wakeSource (thermEntry (raise s (mgcBase + 0x10) 3) 1) 8
    else s

/-- THERMAL_STEP_DOWN (R590): to 300 MHz at once from 110 °C on; one step from 100 °C on, and again every 50 ms. -/
def execThermalStepDown (s : State) : Res :=
  .next <|
    if ¬ dieOn s ∨ goalClock s ≤ 300 then s
    else if reaches (tmax s) 110 then
      let s := thermEntry (requestClock s 300) 3
      trackHeat { s with health := { s.health with lastDown := some (now s) } }
    else if reaches (tmax s) 100 then
      let s := match s.health.lastDown with
        | some t => advance s (t + 50000000)
        | none => s
      let s := thermEntry (requestClock s (max 300 (goalClock s - 50))) 2
      trackHeat { s with health := { s.health with lastDown := some (now s) } }
    else s

/-- THERMAL_STEP_UP (R590): Tmax has been at 92 °C or less for 1,000 ms with the clock below F. -/
def execThermalStepUp (s : State) : Res :=
  .next <| match s.health.coolSince with
  | none => s
  | some t =>
    let f := classClock s.cls
    if ¬ dieOn s ∨ f ≤ goalClock s then s
    else
      let s := advance s (t + 1000000000)
      let s := thermEntry (requestClock s (min f (goalClock s + 50))) 2
      trackHeat { s with health := { s.health with coolSince := some (now s), lastDown := none } }

/-- CLOCK_CHANGE_COMPLETE (R152, R155, R567): the last core has switched; a change that waited begins. -/
def execClockChangeComplete (s : State) : Res :=
  .next <| match s.clock.target with
  | none => s
  | some f =>
    if ¬ dieOn s then s
    else
      let old := s.clock.cur
      let next_ := s.clock.waiting.bind fun w => if w = f then none else some w
      let s := { s with clock := { s.clock with cur := f, target := next_, waiting := none } }
      let s := raise (inc s (pwrBase + 0x324)) (pwrBase + 0x10) 4
      let full := classClock s.cls
      let s := { s with health := { s.health with
        atFSince := if f = full then some (now s) else none,
        risen := f ≠ full && (s.health.risen || (decide (old < f) && decide (f < full))) } }
      trackHeat (shed s)

/-- Graphs that are shed. -/
def shedCount (s : State) : Nat := (s.graphs.filter fun p => p.2.shed).length

/-- SHED_RESTORE (R155): one shed graph restored: after 10 s at F, or without that wait after an unload or a rise below F;
one per second. -/
def execShedRestore (s : State) : Res :=
  let full := classClock s.cls
  let go (t : Nat) : State :=
    let s' := advance s (match s.health.lastRestore with
      | some l => max t (l + 1000000000)
      | none => t)
    let r := restoreOne s'
    if shedCount r < shedCount s then { r with health := { r.health with lastRestore := some (now r) } }
    else { s with health := { s.health with freed := false, risen := false } }
  .next <|
    if shedCount s = 0 ∨ ¬ dieOn s then s
    else if s.health.freed ∨ s.health.risen then go (now s)
    else if s.clock.cur < full then s
    else match s.health.atFSince with
      | some t => go (t + 10000000000)
      | none => s

/-- R590: the compute-die rails are turned off. -/
def thermalTrip (s : State) : State :=
  let s := dieDown (unsampleRails (thermEntry s 4))
  showTherm { s with health := { s.health with tripped := true, hotSince := none, boardHot := none, coolSince := none } }

/-- R590: whether every die and thermistor reading is 85 °C or less. -/
def allCool (s : State) : Bool := (List.range 16).all fun i => !tempSampled s i || decide (tempOf s i ≤ 680)

/-- THERMAL_TRIP (R590): the trip, and, once every reading is 85 °C or less, the module reset that ends it. -/
def execThermalTrip (s : State) : Res :=
  .next <|
    if s.health.tripped then (if allCool s then moduleReset 7 s else s)
    else if s.power.st = .off ∨ s.power.bootStep ≠ 7 then s
    else if reaches (tmax s) 120 ∧ dieOn s then thermalTrip s
    else match s.health.hotSince, s.health.boardHot with
      | some t, _ => thermalTrip (advance s (t + 1000000000))
      | none, some t => thermalTrip (advance s (t + 1000000000))
      | none, none => s

/-! ### The audit (R596) -/

/-- What the audit reads of a unit. -/
def auditRead (s : State) (u : Nat) : AuditVal :=
  let r := getUnit s u
  ⟨u, r.held, busy s u, r.mute, r.awake⟩

/-- AUDIT (R596): the values of every unit go to the checker as one management request; the management processor compares
them itself while the checker is FAILED. -/
def execAudit (s : State) : Res :=
  .next <|
    if ¬ dieOn s ∨ s.firm.fw ≠ 1 then s
    else
      let vs := managedUnits.map (auditRead s)
      let s := inc s (mgcBase + 0x40)
      if s.chk.st = 2 then vs.foldl (auditUnit true) s
      else { s with chk := { s.chk with jobs := s.chk.jobs ++ [.audit vs] } }

end Sys2Proof.Machine
end

