-- ==== Sys2Proof/Machine/Vigil.lean ====
section
/-!
DEFINITION. The vigil detector (R577 to R579): the judging of a thumbnail, the background, and the event ring.
-/
namespace Sys2Proof.Machine

/-- The vigil detector of pipeline `n`. -/
def getVigil (s : State) (n : Nat) : Vigil := kvGet (fun _ => {}) s.vigil n

/-- The vigil detector of a pipeline replaced. -/
def setVigil (s : State) (n : Nat) (v : Vigil) : State := { s with vigil := kvPut s.vigil n v }

/-- R314, R578: where pixel `p` of the thumbnail in buffer `buf` of pipeline `n` stands. -/
def thumbAddr (n buf p : Nat) : Nat := Config.somBase + (2 * n + buf) * 61440 + 64 + p

/-- R578: where the background of pipeline `n` begins. -/
def backAddr (n : Nat) : Nat := Config.somBase + 0x1E_0000 + 115200 * n

/-- 256 × T of a pixel. -/
def thumbPix (s : State) (n buf p : Nat) : Int := 256 * (memGet s.mem (thumbAddr n buf p)).toNat

/-- B of a pixel. -/
def backPix (s : State) (n p : Nat) : Int := peekN s (backAddr n + 2 * p) 2

/-- R577: the zone 16j + i of a pixel of the raster. -/
def zoneOf (p : Nat) : Nat := 16 * (p / 320 / 20) + p % 320 / 20

/-- The pixels of a zone. -/
def zonePixels (z : Nat) : List Nat :=
  (List.range 400).map fun k => 320 * (20 * (z / 16) + k / 20) + 20 * (z % 16) + k % 20

/-- R577: whether a zone is active. -/
def zoneActive (s : State) (n buf z : Nat) : Bool :=
  let dthr : Int := field s (pwrBase + 0x60) 31 24
  let changed (p : Nat) : Bool := decide (256 * dthr < (thumbPix s n buf p - backPix s n p).natAbs)
  flag s (pwrBase + 0x100 + 32 * n + 4 * (z / 32)) (z % 32)
    && decide (field s (pwrBase + 0x64) 24 16 ≤ ((zonePixels z).filter changed).length)

/-- R577: the background after a thumbnail, with the zones that are active and not yet absorbed left alone. -/
def updateBack (s : State) (n buf : Nat) (keep : Nat → Bool) : State :=
  let ash := field s (pwrBase + 0x60) 19 16
  let pix (p : Nat) : Int :=
    let b := backPix s n p
    if keep (zoneOf p) then b else b + (thumbPix s n buf p - b) / (2 ^ ash : Nat)
  poke s (backAddr n) ((List.range 57600).flatMap fun p => leBytes 2 (wrap 16 (pix p)))

/-- R577: the first thumbnail: B = 256 × T. -/
def firstBack (s : State) (n buf : Nat) : State :=
  poke s (backAddr n) ((List.range 57600).flatMap fun p => leBytes 2 (wrap 16 (thumbPix s n buf p)))

/-- R579: the 18 bytes ZONES. -/
def zoneBytes (act : List Nat) : List Byte :=
  (List.range 18).map fun k => BitVec.ofNat 8 (sumN ((List.range 8).map fun j => if act.contains (8 * k + j) then 2 ^ j else 0))

/-- Whether wake source `b` starts an exit now (R575). -/
def startsExit (s : State) (b : Nat) : Bool :=
  !s.power.exiting && (wakeSource s b).power.exiting && (s.power.st == .vigil || s.power.st == .doze)

/-- R577 to R579, R603: an event of pipeline `n`. -/
def vigilEvent (s : State) (n thumb tstamp nhit : Nat) (act : List Nat) : State :=
  let head := field s (pwrBase + 0x6C) 7 0
  let rec_ := withCrc (leBytes 2 0x13 ++ leBytes 1 n ++ leBytes 1 (b2n (startsExit s 3)) ++ leBytes 4 thumb ++ leBytes 8 tstamp
    ++ leBytes 1 act.length ++ leBytes 1 nhit ++ zoneBytes act ++ zeros 24)
  let s := poke s (Config.somBase + 0x3A_2000 + 64 * head) rec_
  let s := raise (inc (setR s (pwrBase + 0x6C) (reg ((head + 1) % 256))) (pwrBase + 0x314)) (pwrBase + 0x10) 3
  let s := diary s 6 0 (unitWorld s (160 + n)) { code := act.length, stream := n, frame := thumb, addr := tstamp }
  wakeSource s 3

/-- R577: a thumbnail judged by a detector that has a background. -/
def judgeThumb (s : State) (n buf thumb tstamp : Nat) : State :=
  let v := getVigil s n
  let act := (List.range 144).filter (zoneActive s n buf)
  let run := act.map fun z => (z, kvGet (fun _ => 0) v.run z + 1)
  let s := updateBack s n buf fun z => act.contains z && decide (kvGet (fun _ => 0) run z < 64)
  let hit := decide (field s (pwrBase + 0x60) 7 0 ≤ act.length)
  let need := field s (pwrBase + 0x60) 10 8 + 1
  if 0 < v.hold then setVigil s n { v with run := run, hits := 0, hold := v.hold - 1 }
  else if ¬ hit then setVigil s n { v with run := run, hits := 0 }
  else if v.hits + 1 < need then setVigil s n { v with run := run, hits := v.hits + 1 }
  else vigilEvent (setVigil s n { v with run := run, hits := 0, hold := field s (pwrBase + 0x64) 7 0 }) n thumb tstamp need act

/-- VIGIL_THUMBNAIL_JUDGE (R577 to R579): the detector judges the thumbnail that pipeline `n` has taken. -/
def execVigilThumbnailJudge (n : Nat) (s : State) : Res :=
  .next <| match (getPipe s n).judge with
  | none => s
  | some (buf, thumb, tstamp) =>
    if ¬ pxcOn s then s
    else
      let s := setPipe s n { getPipe s n with judge := none }
      let v := getVigil s n
      if ¬ flag s (pwrBase + 0x68) n then setVigil s n {}
      else if ¬ v.ready then setVigil (firstBack s n buf) n { v with ready := true }
      else judgeThumb s n buf thumb tstamp

end Sys2Proof.Machine
end

