-- ==== Sys2Proof/Machine/Fwl.lean ====
section
/-!
DEFINITION. Writes to the firewall's registers (R547, R549, R556, R565): the worlds of the units, the region entries and the
violation log.
-/
namespace Sys2Proof.Machine

/-! ### Worlds of units (R547) -/

/-- R548, R565: the bits of FWL_UNITW[w] that name a unit whose world can be assigned: not the checker, the management
processor and the PCIe functions, whose WORLD is fixed, nor the blocks of FWL_BLKW. -/
def assignable (w : Nat) : Nat := if w < 6 then 0xFFFFFFFF else if w = 6 then 0x70FF else 0

/-- R547: whether a unit holds work; initiator 198 is the record writer and reader. -/
def holdsWork (s : State) (u : Nat) : Bool :=
  if u = 198 then s.cdc.write.isSome || s.cdc.replay.read.isSome else busy s u

/-- R547, R565: FWL_UNITW[w] written: ignored once FWL_LOCK is set; discarded with ASSIGNBUSY when it changes the world of a
unit that holds work or that a loaded graph pins; otherwise each unit that changes advances its epoch. -/
def unitWorldWrite (w : Nat) (v : Reg) (s : State) : State :=
  let a := fwlBase + 0x80 + 4 * w
  let old := getR s a
  let m := reg (assignable w)
  let new := (old &&& ~~~m) ||| (v &&& m)
  let changed := ((List.range 32).filter fun b => bit b (old ^^^ new).toNat).map (32 * w + ·)
  if flag s (fwlBase + 8) 0 ∨ 8 ≤ w then s
  else if changed.any fun u => holdsWork s u || pinnedUnit s u then raise s (fwlBase + 0x10) 3
  else (changed.filter managed).foldl bumpEpoch (setR s a new)

/-- UNIT_WORLD_ASSIGN (R547, R565). -/
def execUnitWorldAssign (secure : Bool) (w : Nat) (v : Reg) (s : State) : Res :=
  .next (hostAccess secure true (fwlBase + 0x80 + 4 * w) s (unitWorldWrite w v))

/-! ### Region entries (R549) -/

/-- Region entry `r` of the SOM table (`som`) or of the DRAM table. -/
def getRegion (s : State) (som : Bool) (r : Nat) : Region := kvGet (fun _ => {}) (if som then s.fwl.som else s.fwl.dram) r

/-- A region entry replaced; the tables stay in entry order. -/
def setRegion (s : State) (som : Bool) (r : Nat) (x : Region) : State :=
  if som then { s with fwl := { s.fwl with som := kvPut s.fwl.som r x } }
  else { s with fwl := { s.fwl with dram := kvPut s.fwl.dram r x } }

/-- R549: a word of an entry replaced; reserved bits read 0. -/
def regionWord (som : Bool) (x : Region) (k : Nat) (v : Reg) : Region :=
  let page := v.toNat % 2 ^ (if som then 15 else 25)
  if k = 0 then { x with first := page }
  else if k = 1 then { x with last := page }
  else if k = 2 then { x with flags := v &&& 0xFFFF0000 }
  else x

/-- R549: whether the firewall takes a write that makes entry `x` into `y`. -/
def regionOk (som : Bool) (x y : Region) : Bool :=
  let pages := if som then Config.somBytes / 4096 else Config.dramBytes / 4096
  let f := y.flags.toNat
  !bit 30 x.flags.toNat && !(bit 31 x.flags.toNat && bit 31 f) && decide (y.first ≤ y.last) && decide (y.last < pages)
    && if som then !bit 25 f && !bit 24 f else !(bit 29 f || bit 27 f) || bit 25 f

/-- R549: word `k` of an entry written: taken, or discarded with ENTRYBAD. -/
def regionWrite (som : Bool) (r k : Nat) (v : Reg) (s : State) : State :=
  let x := getRegion s som r
  let y := regionWord som x k v
  if (if som then 64 else 256) ≤ r ∨ 4 ≤ k then s
  else if regionOk som x y then setRegion s som r y
  else raise s (fwlBase + 0x10) 2

/-- REGION_ENTRY_WRITE (R549, R565). -/
def execRegionEntryWrite (secure som : Bool) (r k : Nat) (v : Reg) (s : State) : Res :=
  .next (hostAccess secure true (fwlBase + (if som then 0x2000 else 0x1000) + 16 * r + 4 * k) s (regionWrite som r k v))

/-! ### The violation log (R556, R565) -/

/-- R565: FWL_VLOG_POP written: bit 0 removes the head record. -/
def vlogPop (v : Reg) (s : State) : State :=
  if bit 0 v.toNat then { s with fwl := { s.fwl with vlog := s.fwl.vlog.drop 1 } } else s

/-- FWL_VLOG_POP (R565). -/
def execFwlVlogPop (secure : Bool) (v : Reg) (s : State) : Res :=
  .next (hostAccess secure true (fwlBase + 0x34) s (vlogPop v))

end Sys2Proof.Machine
end

