-- ==== Sys2Proof/Machine/RegRead.lean ====
section
/-!
DEFINITION. Reads of the control window and of the function pages (R6, R7, R16 to R19, R636, R638, R641): a register answers
its current value, from the register table or from the structure whose state it shows; WO registers and unassigned offsets
answer 0. What the map rules show of work in progress inside one step of the model is a free value (log entry 89).
-/
namespace Sys2Proof.Machine

/-- The register whose fields hold `v` from bit `lo` on. -/
def fields (l : List (Nat × Nat)) : Reg := reg (sumN (l.map fun f => f.2 * 2 ^ f.1))

/-- Low and high word of a 64-bit value. -/
def half64 (hi : Bool) (v : Nat) : Reg := reg (if hi then v / 2 ^ 32 else v)

/-- How far work in progress has come, where the model makes it one step: free bits under a mask. -/
def progress (s : State) (mask : Nat) : Reg := Config.progress s.uses &&& reg mask

/-- ID_ (R660). -/
def idView (s : State) (o : Nat) : Option Reg :=
  if o = 0 then some (fields [(16, 0x7160), (8, Config.variant), (0, 1)])
  else if o = 4 then some (reg Config.step.toNat)
  else if o = 8 ∨ o = 0xC then some (half64 (o == 0xC) Config.dramBytes)
  else if o = 0x10 then some 0x01000100
  else if o = 0x14 then some 1
  else if o = 0x18 then some (reg s.firm.version)
  else if 0x20 ≤ o ∧ o < 0x30 then some (Config.serial ((o - 0x20) / 4))
  else if o = 0x30 then some 0x71601E9B
  else none

/-! ### Sequencers (R131) -/

/-- ROLE of SEQ_ID. -/
def roleOfSeq (n : Nat) : Nat := n - 15

/-- STATE of a slot in SEQ_SLOTS. -/
def slotCode : SlotState → Nat
  | .free => 0
  | .open_ => 1
  | .eve => 2
  | .dated => 3

/-- WAITON of SEQ_CSTATE. -/
def waitCode : Option Wait → Nat
  | none => 0
  | some (.epoch ..) => 1
  | some (.flag ..) => 2
  | some (.deq ..) => 3
  | some (.timer ..) => 4
  | some (.barrier ..) => 5
  | some (.watchdog ..) => 6
  | some (.credit ..) => 7
  | some (.pset ..) => 8

/-- RSTATE of SEQ_CSTATE. -/
def runCode : RunState → Nat
  | .idle => 0
  | .run => 1
  | .wait => 2
  | .halted => 4
  | .faulted => 5

/-- SEQ_CSTATE. -/
def cstate (x : Ctx) : Reg :=
  fields [(22, b2n x.end_), (21, b2n x.hol), (20, b2n x.cs.isSome), (18, x.cs.getD 0), (7, x.pc % 2048),
    (3, if x.rst = .wait then waitCode x.wait else 0), (0, runCode x.rst)]

/-- REPL of SEQ_CTX: the old graph drains while the new one runs. -/
def overlaps (s : State) (n : Nat) : Bool :=
  match getGraph s n (getSeq s n).newCtx, getGraph s n (1 - (getSeq s n).newCtx) with
  | some g, some h => g.st == .running && h.st == .draining
  | _, _ => false

/-- A register of context `c`. -/
def ctxView (s : State) (n c o : Nat) : Option Reg :=
  let x := getCtx s n c
  if o = 0 then some (cstate x)
  else if o = 4 then some (fields [(8, x.faultPc % 2048), (0, x.faultCode % 256)])
  else if o = 8 then some (reg (x.haltCode % 2 ^ 16))
  else if o = 0xC then some (reg (((getGraph s n c).map fun g => g.hdr.gid).getD 0))
  else if 0x100 ≤ o ∧ o < 0x180 then some (getG x ((o - 0x100) / 4)).1
  else if 0x180 ≤ o ∧ o < 0x200 then some (reg (eff s (getG x ((o - 0x180) / 4)).2))
  else none

/-- SEQ_ (R131). SEQ_FLAGWIN shows the graph of the context that takes new slots. -/
def seqView (s : State) (n o : Nat) : Option Reg :=
  let q := getSeq s n
  if o = 0 then some (fields [(8, roleOfSeq n), (0, n)])
  else if o = 4 then some (fields [(2, b2n (overlaps s n)), (1, q.newCtx)])
  else if o = 8 then some (fields ((List.range 4).flatMap fun i =>
    let x := getSlot s n i
    [(4 * i + 3, x.ctx), (4 * i + 2, b2n x.sq), (4 * i, slotCode x.st)]))
  else if o = 0xC then some (fields ((List.range 4).map fun i =>
    (8 * i, if (getSlot s n i).st = .eve then (getSlot s n i).gen % 256 else 0)))
  else if o = 0x10 then
    some (((getGraph s n q.newCtx).map fun g => fields [(16, g.hdr.nflag % 2 ^ 16), (0, g.pl.flagBase % 2 ^ 16)]).getD 0)
  else if 0x1000 ≤ o ∧ o < 0x3000 then ctxView s n (o / 0x1000 - 1) (o % 0x1000)
  else if 0x8000 ≤ o then
    some (half64 (o / 4 % 2 == 1) (nth 0 (bankOf s n ((o - 0x8000) / 0x4000)) (o % 0x4000 / 8)).toNat)
  else none

/-! ### Queues (R222) -/

/-- MODE of QM_Q_CFG. -/
def modeCode : QMode → Nat
  | .lossless => 0
  | .lossy => 1
  | .multicast => 2

/-- STATE of QM_POOL_STATE. -/
def poolCode : PoolState → Nat
  | .test => 0
  | .build => 1
  | .run => 2
  | .rebuild => 3

/-- QM_Q_CFG. -/
def queueCfg (q : Queue) : Reg :=
  fields [(31, b2n q.cfg.valid), (30, b2n q.cfg.world), (29, b2n q.cfg.out), (28, b2n q.cfg.lockstep), (26, modeCode q.cfg.mode),
    (23, q.recvs.length - 1), (22, b2n q.cfg.sys)]

/-- QM_Q_STATE. -/
def queueState (s : State) (q : Queue) : Reg :=
  fields ((List.range 8).map (fun r => (24 + r, b2n (detached (nth {} q.recvs r))))
    ++ [(19, b2n q.dropPend.isSome), (18, b2n q.openPkt.isSome), (17, b2n (q.waits.any (waitsForCell q))), (16, b2n (ppMode s q)),
      (0, if ¬ q.cfg.valid then 0 else if q.resetting then 3 else if q.flushing then 2 else 1)])

/-- A register of receiver `r`; one that the queue does not have reads 0. -/
def recvView (q : Queue) (r k : Nat) : Reg :=
  match q.recvs[r]? with
  | none => 0
  | some x =>
    if k = 0 then fields [(30, x.kind), (0, x.target % 2 ^ 16)]
    else if k = 1 then reg (packetsFor q x % 2 ^ 24)
    else if k = 2 then reg (lagOf q x)
    else x.deq

/-- The registers of a queue. -/
def queueView (s : State) (q : Queue) (o : Nat) : Option Reg :=
  if 0x80 ≤ o then some (recvView q (o / 4 % 8) ((o - 0x80) / 32))
  else [queueCfg q, reg q.cfg.depth, reg q.cfg.reserve, reg q.cfg.maxpkt, reg q.cfg.lag,
    fields [(16, b2n q.cfg.ownerBE), (8, q.cfg.ownerSeq), (0, q.cfg.ownerPrio)], queueState s q, reg (heldCells q), reg q.seq,
    reg q.hwm, q.cnt.enq, q.cnt.drop, q.cnt.leap, q.cnt.flush, q.cnt.squash, q.cnt.detach, q.cnt.oversize, q.cnt.waitclk][o / 4]?

/-- QM_ (R222). -/
def qmView (s : State) (o : Nat) : Option Reg :=
  if 0x10_0000 ≤ o ∧ o < 0x20_0000 then queueView s (getQ s ((o - 0x10_0000) / 0x100)) (o % 0x100)
  else if o = 4 then some (fields [(4, s.pool.cause), (0, poolCode s.pool.st)])
  else if o = 8 then some (reg (freeAdmitted s))
  else if o = 0xC then some (reg (sharedFree s))
  else if o = 0x10 then some (reg (reservedCells s))
  else if o = 0x14 then some (reg s.pool.retired)
  else none

/-! ### Scheduler (R254) -/

/-- Activations with their sequencers: those at hand, and those that wait in the pool (R248). -/
def actsHeld (s : State) : List (Nat × Activation) := s.seqs.flatMap (fun p => p.2.acts.map fun a => (p.1, a)) ++ s.sched.acts

/-- The descriptors that wait in ready lists. -/
def readyDescs (s : State) : List Task :=
  ((s.sched.tasks.map Prod.snd).filter fun t => t.st == .ready) ++ s.sched.acts.map fun p => actDesc s p.1 p.2

/-- Ready tasks of a tier, and at a PRIO where the tier has lists by PRIO. -/
def readyDepth (s : State) (tier : Nat) (prio : Option Nat) : Nat :=
  ((readyDescs s).filter fun t => t.tier == tier && (prio.isNone || prio == some t.prio)).length

/-- HTS_CORE[c]. -/
def coreView (s : State) (c : Nat) : Reg :=
  match occupant s c with
  | some (e, t) => fields [(31, 1), (29, t.tier), (24, t.prio), (8, e), (0, nth 0 t.units 0)]
  | none => 0

/-- INWIN of HTS_FLOW: from the oldest task not released to the newest dispatched. -/
def inWindow (s : State) (f : Nat) : Nat :=
  let x := getFlow s f
  let run := (s.sched.tasks.map Prod.snd).filter fun t => t.parent.isSome && t.flow == some f && t.first.isSome
  maxN ((run.map (fun t => t.fseq) ++ x.done).map fun k => (k + 2 ^ 16 - x.release) % 2 ^ 16 + 1)

/-- HTS_ (R254); HTS_SNAP shows the snapshot last taken. -/
def htsView (s : State) (o : Nat) : Option Reg :=
  if o = 0 then some 0x2A000100
  else if o = 0x20 then some (reg (s.sched.tasks.length + ((actsHeld s).filter fun p => p.2.entry.isSome).length))
  else if 0x100 ≤ o ∧ o < 0x180 then some (reg (readyDepth s 0 (some ((o - 0x100) / 4))))
  else if 0x180 ≤ o ∧ o < 0x200 then some (reg (readyDepth s 2 (some ((o - 0x180) / 4))))
  else if o = 0x200 then some (reg (readyDepth s 1 none))
  else if 0x300 ≤ o ∧ o < 0x350 then
    let n := (o - 0x300) / 4
    some (reg ((s.sched.tasks.filter fun p => p.2.src == n).length
      + ((actsHeld s).filter fun p => p.1 == n && p.2.entry.isSome).length))
  else if 0x510 ≤ o ∧ o < 0x520 then
    some (fields [(16, threadsHeld s ((o - 0x510) / 4) true), (0, threadsHeld s ((o - 0x510) / 4) false)])
  else if 0x600 ≤ o ∧ o < 0x700 then some (coreView s ((o - 0x600) / 4))
  else if 0x4000 ≤ o ∧ o < 0x8000 then
    let f := (o - 0x4000) / 16
    let x := getFlow s f
    if o % 16 = 0 then some (fields [(31, b2n x.valid), (16, x.seq), (0, inWindow s f)])
    else if o % 16 = 4 then some (fields [(16, x.assign), (0, x.release)])
    else none
  else none

/-! ### DMA (R267, R279) -/

/-- WAIT of DMA_CH_STATE: an empty source queue, or queue credit. -/
def chWait (s : State) (i : Nat) (d : DmaRun) : Nat :=
  if d.st ≠ .run ∨ d.phase ≠ .move ∨ burstReady s i then 0
  else if dSmode d.desc = 2 then 1 else if dDmode d.desc = 2 then 2 else 0

/-- DMA_CH_STATE. -/
def chState (s : State) (i : Nat) : Reg :=
  let latch := b2n (s.dmaLatch.contains i)
  match occupant s (64 + i) with
  | some (_, t) => match t.dma with
    | some d => fields [(16, d.dcount), (6, chWait s i d), (5, b2n d.long), (4, latch),
        (0, if t.st = .gate then 4 else match d.st with
          | .run => 1
          | .pace => 2
          | .park => 3)]
    | none => fields [(4, latch), (0, if t.st = .gate then 4 else 1)]
  | none => fields [(4, latch), (0, if s.dmaHalt.contains i then 5 else 0)]

/-- The registers of a channel. A channel without a task shows 0 as its current descriptor. -/
def chView (s : State) (i o : Nat) : Option Reg :=
  let cur := match occupant s (64 + i) with
    | some (_, t) => (t.dma.map fun d => d.cur).getD 0
    | none => 0
  if o = 0 then some (chState s i)
  else if o = 0x10 ∨ o = 0x14 then some (half64 (o == 0x14) cur)
  else if o = 0x2C then some (if (occupant s (64 + i)).isSome then progress s 0x7F else 0)
  else if o = 0x30 then some (((occupant s (64 + i)).map fun p => fields [(31, 1), (0, p.1)]).getD 0)
  else none

/-- DMA_ (R279): the bits of another world's channels read 0. -/
def dmaView (secure : Bool) (s : State) (k o : Nat) : Option Reg :=
  let own := reg (sumN ((List.range 8).map fun c => if secure ∨ ¬ unitWorld s (64 + 8 * k + c) then 2 ^ c else 0))
  if 0x1000 ≤ o ∧ o < 0x1800 then chView s (8 * k + (o - 0x1000) / 0x100) (o % 0x100)
  else if o = 0 then some (fields [(16, k), (0, 0x100)])
  else if o = 0x10 then some (reg (dmaIntStatus s k) &&& own)
  else if o = 0x14 then some (getR s (dmaBase k + 0x14) &&& own)
  else if o = 0x18 then
    some (if (List.range 8).any fun c => (occupant s (64 + 8 * k + c)).isSome then progress s 0x3FF else 0)
  else none

/-! ### Image pipelines and engines (R316, R341, R372, R395, R492) -/

/-- ISP_ (R316). -/
def ispView (s : State) (n o : Nat) : Option Reg :=
  let p := getPipe s n
  let pair := cfg s n 0x1C
  if o = 0 then some (fields [(16, n), (0, 0x100)])
  else if o = 4 then
    some (fields [(31, b2n p.cap.isSome), (30, b2n p.diff), (0, if bit 31 pair then 1 + b2n (bit 30 pair) else 0)])
  else if o = 0x3_0008 ∧ n < 4 then some (progress s 7)
  else none

/-- Whether the stage of unit `u` waits for queue credit. -/
def stageWaits (s : State) (u : Nat) (t : Task) : Bool :=
  match t.outs with
  | some (.packet q _ :: _) => (getQ s q).waits.any fun w => w.producer == u
  | _ => false

/-- The STATE of a vision engine: GATE, QWAIT of a feature engine, GENERATE of a warp engine, or RUN. -/
def engState (s : State) (u : Nat) (t : Task) : Nat :=
  if t.st = .gate then 3
  else if (140 ≤ u ∧ u < 144 ∧ stageWaits s u t) ∨ (144 ≤ u ∧ u < 152 ∧ (wrpBlk t.block).gen) then 2
  else 1

/-- The registers of a vision engine that show its stage; `mask` is what its CUR register gives. -/
def engView (s : State) (u inst mask o : Nat) : Option Reg :=
  if o = 0 then some (fields [(16, inst), (0, 0x100)])
  else match occupant s u with
    | some (_, t) =>
      if o = 0x10 then some (fields [(31, 1), (22, eff s t.dataGen), (20, t.slot % 4), (16, t.stream % 16), (8, t.stage % 256),
        (0, engState s u t)])
      else if o = 0x14 then some (progress s mask)
      else if o = 0x18 then some (reg t.frame)
      else none
    | none => none

/-- GTH_ (R492): a secure table reads 0 from the non-secure world. -/
def gthView (secure : Bool) (s : State) (p o : Nat) : Option Reg :=
  let held := s.sched.tasks.filter fun x => x.2.onUnits && x.2.units.contains (128 + p)
  if o = 0 then some (fields [(16, p), (0, 0x100)])
  else if o = 0x10 then
    some (fields [(31, b2n (!held.isEmpty)), (26, held.length), (13, threadsHeld s p false), (5, threadsHeld s p true % 256),
      (0, if held.isEmpty then 0 else if held.all fun x => x.2.st == .gate then 2
        else if held.any fun x => x.2.st == .stopping then 3 else 1)])
  else if o = 0x14 then some (if held.isEmpty then 0 else progress s 0x1FFF)
  else if 0x8000 ≤ o ∧ o < 0x9000 then
    let l := kvGet (fun _ => []) s.tables ((o - 0x8000) / 64)
    some (if (gthTableOf l).secure ∧ ¬ secure then 0 else reg (leAt l (o % 64) 4))
  else none

/-! ### Tensor cores (R431) -/

/-- TC_ (R431). TC_PC and PSTEP are those of the execute unit. -/
def tcView (s : State) (c o : Nat) : Option Reg :=
  let h := getTc s c
  if o = 0 then some (fields [(24, c / 8), (16, c), (0, 0x100)])
  else if o = 4 then some (fields [(16, mstateCode (getUnit s c).mstate), (0, (getUnit s c).epoch)])
  else if o = 0x44 then
    some (fields [(24, satN 255 (h.dram.filter (savedLive s)).length), (0, (h.store.filter (savedLive s)).length)])
  else match occupant s c with
    | some (e, t) =>
      if o = 0x10 then some (fields [(31, 1), (22, nth 0 t.units 0), (16, t.units.length - 1), (8, h.core.step % 256),
        (0, if t.st = .gate then 6 else if t.st = .stopping then 2 else 1)])
      else if o = 0x14 then some (fields [(31, 1), (8, e), (0, eff s t.gen)])
      else if o = 0x18 then some (reg (16 * h.core.exec.pc))
      else none
    | none => none

/-! ### Codec and checker (R518, R545) -/

/-- ENC or DEC of CDC_STATE. -/
def codecState (s : State) (u : Nat) : Nat :=
  match occupant s u with
  | some (_, t) => if t.st = .gate then 2 else 1
  | none => 0

/-- The registers of ring `n`. -/
def ringView (s : State) (n o : Nat) : Option Reg :=
  let r := getRing s n
  let p := s.cdc.replay
  let ix := getQ s (4032 + n)
  if o = 0 then some (fields [(31, b2n (r.st != 0)), (24, r.spoolN - 1), (0, r.slotLba % 2 ^ 16)])
  else if o = 4 then some (reg r.nslot)
  else if o = 8 then some (reg r.wp)
  else if o = 0xC then some (if p.ring = n then (p.rm.map reg).getD 0xFFFFFFFF else 0xFFFFFFFF)
  else if o = 0x10 then some (reg r.nextSeq)
  else if o = 0x14 then some (reg (r.index.filter fun x => x.2.pinned).length)
  else if o = 0x18 then some (fields [(4, satN 15 (packetsFor ix (nth {} ix.recvs 0))), (3, b2n r.cur.isSome), (0, r.st)])
  else none

/-- CDC_ (R518). -/
def cdcView (s : State) (o : Nat) : Option Reg :=
  let p := s.cdc.replay
  if o = 0x10 then some (fields [(6, s.cdc.vol), (5, b2n s.cdc.write.isSome), (4, b2n p.read.isSome), (2, codecState s 197),
    (0, codecState s 196)])
  else if o = 0x80 then some (fields [(31, b2n p.active), (16, p.ring % 16), (0, (getSeq s 16).acts.length)])
  else if 0x1000 ≤ o ∧ o < 0x2000 then ringView s ((o - 0x1000) / 0x100) (o % 0x100)
  else none

/-- CHK_ (R545). -/
def chkView (s : State) (o : Nat) : Option Reg :=
  let table (t : Nat) := (s.chk.rules.find? fun p => p.1 == t).map Prod.snd
  if o = 4 then
    let waiting := ((List.range 20).filter (slotWork s)).length
    some (fields [(16, b2n (s.chk.st == 1 && (decide (0 < waiting) || !s.chk.jobs.isEmpty))), (8, waiting), (0, s.chk.st)])
  else if 0x100 ≤ o ∧ o < 0x500 then
    some (((table ((o - 0x100) / 4)).map fun l => fields [(31, 1), (16, leAt l 3 1), (8, leAt l 2 1)]).getD 0)
  else if 0x500 ≤ o ∧ o < 0x900 then some (((table ((o - 0x500) / 4)).map fun l => reg (leAt l 4 4)).getD 0)
  else if 0x3400 ≤ o ∧ o < 0x3900 then
    let w := histWord s ((o - 0x3400) / 64) (o % 64 / 8)
    some (if o % 8 = 0 then reg ((w.map Prod.fst).getD 0) else reg ((w.map Prod.snd).getD 0xFFFFFFFF))
  else none

/-! ### Firewall, power, management, field (R565, R586, R614, R634) -/

/-- Word `k` of a region entry (R549). -/
def regionView (x : Region) (k : Nat) : Reg :=
  if k = 0 then reg x.first else if k = 1 then reg x.last else if k = 2 then x.flags else x.word3

/-- FWL_ (R565). -/
def fwlView (s : State) (o : Nat) : Option Reg :=
  let f := s.fwl.fuses
  if o = 4 then some (fields [(3, f.rootrev), (2, b2n f.pf1en), (1, b2n f.dbgdis), (0, b2n f.prov)])
  else if o = 0x30 then some (reg s.fwl.vlog.length)
  else if 0x40 ≤ o ∧ o < 0x60 then
    some (((s.fwl.vlog.head?).map fun v => reg (leAt v.bytes (o - 0x40) 4)).getD 0)
  else if o = 0xA4 then some (reg f.fwsvn)
  else if o = 0xA8 then some (reg f.psvn)
  else if 0x1000 ≤ o ∧ o < 0x2000 then some (regionView (getRegion s false ((o - 0x1000) / 16)) (o / 4 % 4))
  else if 0x2000 ≤ o ∧ o < 0x2400 then some (regionView (getRegion s true ((o - 0x2000) / 16)) (o / 4 % 4))
  else none

/-- PWR_STATE (R586): the step of R572 in progress, which the model takes as one, shows as step 1. -/
def pwrState (s : State) : Reg :=
  match s.power.entering with
  | some (t, k) => fields [(8, k), (4, pstateCode t), (0, 4)]
  | none => if s.power.exiting then fields [(8, 1), (4, pstateCode s.power.st), (0, 5)] else reg (pstateCode s.power.st)

/-- PWR_ (R586). -/
def pwrView (s : State) (o : Nat) : Option Reg :=
  if o = 4 then some (pwrState s)
  else if o = 0x50 then some (fields [(16, classClock s.cls), (0, s.clock.cur)])
  else if o = 0x54 then some (reg s.cls)
  else none

/-- MGC_ (R614): CMDDONE is that of the reader's box; the block keeps box 1's where no register lies. -/
def mgcView (secure : Bool) (s : State) (o : Nat) : Option Reg :=
  if o = 4 then
    some (fields [(7, b2n (selector s).fallback), (6, b2n s.firm.trial), (5, s.firm.slot), (0, s.firm.fw)])
  else if o = 0x10 then
    some (if secure then (getR s (mgcBase + 0x10) &&& ~~~1#32) ||| (getR s mgcSecureInt &&& 1#32) else getR s (mgcBase + 0x10))
  else if o = 0x18 then some 0
  else if o = 0x24 then some (reg s.diary.nextSeq)
  else if 0x400 ≤ o ∧ o < 0x718 then some (reg (ustateWord s ((o - 0x400) / 4)))
  else none

/-- FLD_ (R634): the outputs' states and currents. -/
def fldView (s : State) (o : Nat) : Option Reg :=
  if 0xC0 ≤ o ∧ o < 0xD0 then
    let x := getOut s ((o - 0xC0) / 4)
    some (fields [(28, x.st), (0, x.current % 2 ^ 16)])
  else none

/-! ### A read (R6, R7, R16 to R19, R636) -/

/-- What block `b` shows at an offset beside its register table. -/
def blockView (secure : Bool) (s : State) (b : Block) (off : Nat) : Option Reg :=
  let i := instOf b off
  let o := localOf b off
  if b.base = idBase then idView s o
  else if b.base = hifBase then (if o = 0x204 then some s.time.latch else none)
  else if b.base = seqBase 0 then seqView s i o
  else if b.base = qmBase then qmView s o
  else if b.base = htsBase then htsView s o
  else if b.base = dmaBase 0 then dmaView secure s i o
  else if b.base = ispBase 0 then ispView s i o
  else if b.base = strBase 0 then engView s (132 + i) i 0xE0003FFF o
  else if b.base = flwBase 0 then engView s (136 + i) i 0xF001FFFF o
  else if b.base = ftrBase 0 then engView s (140 + i) i 0xE001FFFF o
  else if b.base = wrpBase 0 then engView s (144 + i) i 0xF8003FFF o
  else if b.base = pyrBase 0 then engView s (152 + i) i 0xE0003FFF o
  else if b.base = tcBase 0 then tcView s i o
  else if b.base = gthBase 0 then gthView secure s i o
  else if b.base = cdcBase then cdcView s o
  else if b.base = chkBase then chkView s o
  else if b.base = fwlBase then fwlView s o
  else if b.base = pwrBase then pwrView s o
  else if b.base = mgcBase then mgcView secure s o
  else if b.base = fldBase then fldView s o
  else none

/-- R7: the value that a register of block `b` answers to a world. TC_ESC answers the secure world alone (R431). -/
def readValue (secure : Bool) (s : State) (b : Block) (off : Nat) : Reg :=
  if b.base = tcBase 0 ∧ localOf b off = 0x40 ∧ ¬ secure then 0 else (blockView secure s b off).getD (getR s off)

/-- A read that has reached its block: HIF_TIME_LO latches module time, HTS_SNAP takes its snapshot, and every other register
answers its value. -/
def blockRead (secure : Bool) (b : Block) (off : Nat) (s : State) : State :=
  if off = hifBase + 0x200 then timeRead secure s
  else if off = htsBase + 0x8040 then snapRead secure s
  else emit { s with uses := s.uses + 1 } (.readData (b2n secure) (leBytes 4 (readValue secure s b off).toNat))

/-- R559, R636: whether an access reaches the block at an offset: in the recovery loader PF0 decodes ID_ and MGC_ alone. -/
def windowReach (s : State) (secure : Bool) (off : Nat) : Bool :=
  ctlReach s secure || (s.firm.fw == 2 && !secure && fnReach s 0 &&
    (decide (off < idBase + 0x10_0000) || decide (mgcBase ≤ off ∧ off < mgcBase + 0x10_0000)))

/-- The answer of a read that finds nothing to read. -/
def readZeros (fn width : Nat) (s : State) : State := emit s (.readData fn (zeros width))

/-- A read of `width` bytes at an offset of the control window (R6, R16 to R19). One that is misaligned or of another width counts
as that alone, wherever it lies (log entry 127). -/
def windowRead (secure : Bool) (off width : Nat) (s : State) : State :=
  if ¬ windowReach s secure off then s
  else
    let s := dozeWake s
    let zero := readZeros (b2n secure) width
    if width ≠ 4 ∨ off % 4 ≠ 0 then zero (inc s (hifBase + 0x20))
    else match blockOf off with
      | none => zero (inc s (hifBase + 0x24))
      | some b =>
        if ¬ blockOn s off then zero (inc s (hifBase + 0x28))
        else if worldOf s b off ∧ ¬ secure then zero (violation s 202 5 0 2 0xFF off)
        else blockRead secure b off s

/-! ### The function page (R638, R641) -/

/-- The 32 bits that function `f`'s page shows at an aligned offset. -/
def pageValue (f o : Nat) (s : State) : Reg :=
  if o = 0x1_0010 then reg (b2n (getFn s f).done) else if 0x3_0000 ≤ o ∧ o < 0x3_0100 then 0 else getR s (fnPage f + o)

/-- A read of `width` bytes of function `f`'s page: as R6, but for aligned 64-bit reads of the MSI-X table (R638). -/
def fnPageRead (f o width : Nat) (s : State) : State :=
  if ¬ fnReach s f ∨ s.firm.fw ≠ 1 then s
  else if width = 8 ∧ o % 8 = 0 ∧ o < 0x8000 then
    emit s (.readData f (leBytes 4 (pageValue f o s).toNat ++ leBytes 4 (pageValue f (o + 4) s).toNat))
  else if width ≠ 4 ∨ o % 4 ≠ 0 then readZeros f width (inc s (hifBase + 0x20))
  else emit s (.readData f (leBytes 4 (pageValue f o s).toNat))

end Sys2Proof.Machine
end

