-- ==== Sys2Proof/Machine/RegWrite.lean ====
section
/-!
DEFINITION. Writes to the control window and to the function pages (R6 to R9, R16 to R19, R636, R638, R641, R642): a register
without a behaviour of its own takes its value by its access types; one with a behaviour acts as the command of its own that
the opcode table names. A write to HIF_MDIO_CMD or ISP_SCM_CMD starts a transaction whose answer comes from outside: its
command carries that answer, and REGISTER_WRITE leaves those registers alone. Also FLD_OUT_CMD and FLD_SEG_CFG (R629, R634).
-/
namespace Sys2Proof.Machine

/-- The state that a command leaves. -/
def leaves (r : Res) (s : State) : State :=
  match r with
  | .next t => t
  | _ => s

/-- R7, R642: a register written by its access types; a write of an INT_STATUS register that leaves the line at 1 sends the
message again. -/
def plainWrite (b : Block) (off : Nat) (v : Reg) (s : State) : State :=
  match rowOf off with
  | none => s
  | some r =>
    let locked := b.lock != 0 && flag s (off - localOf b off + b.lock) 0
    lineCheck s (setR s off (r.write locked (getR s off) v)) off (r.w1c != 0)

/-! ### Registers with a behaviour of their own, block by block -/

/-- HIF_ (R653, R654, R661). -/
def hifWrite (b : Block) (off : Nat) (v : Reg) (s : State) : State :=
  let o := off - hifBase
  if o = 0x208 then adjWrite v s
  else if o = 0x210 then (if servo s = 1 then s else plainWrite b off v s)
  else if o = 0x214 then ofsWrite v s
  else plainWrite b off v s

/-- QM_ (R222): QM_CMD. -/
def qmWrite (secure : Bool) (b : Block) (off : Nat) (v : Reg) (s : State) : State :=
  if off = qmBase + 0x30 then
    let q := bits 15 0 v.toNat
    match bits 31 28 v.toNat with
    | 1 => leaves (execFlush secure q s) s
    | 2 => leaves (execReset secure q s) s
    | 3 => leaves (execRebuild secure s) s
    | _ => qmCmd s fun s => qmResult s 3
  else plainWrite b off v s

/-- R17, R279: DMA_INT_EN written: from the non-secure world the bits of secure channels stay. -/
def dmaEnWrite (secure : Bool) (k : Nat) (v : Reg) (s : State) : State :=
  let a := dmaBase k + 0x14
  let m := reg (sumN ((List.range 8).map fun c => if secure ∨ ¬ unitWorld s (64 + 8 * k + c) then 2 ^ c else 0))
  lineCheck s (setR s a ((getR s a &&& ~~~m) ||| (v &&& m))) a false

/-- DMA_ (R279). -/
def dmaWrite (secure : Bool) (b : Block) (off : Nat) (v : Reg) (s : State) : State :=
  let k := instOf b off
  let o := localOf b off
  if o = 0x14 then dmaEnWrite secure k v s
  else if 0x1000 ≤ o ∧ o < 0x1800 then
    let i := 8 * k + (o - 0x1000) / 0x100
    if o % 0x100 = 4 then
      match bits 31 28 v.toNat with
      | 1 => leaves (execClear secure i s) s
      | 2 => leaves (execFinish secure i s) s
      | _ => s
    else if o % 0x100 = 8 then (if bit 0 v.toNat then leaves (execDmaChDoorbell secure i s) s else s)
    else plainWrite b off v s
  else plainWrite b off v s

/-- ISP_ (R297, R301, R302, R316). -/
def ispWrite (secure : Bool) (b : Block) (off : Nat) (v : Reg) (s : State) : State :=
  let n := instOf b off
  let o := localOf b off
  if 0x3_0000 ≤ o ∧ 4 ≤ n then s
  else if o = 0x2104 then (if bit 0 v.toNat then leaves (execIspSetCommit secure n s) s else s)
  else if o = 0x3_2000 then fsCtlWrite n (getR s off) (plainWrite b off v s)
  else if o = 0x3_2004 then fsPeriodWrite n v s
  else if o = 0x3_200C then fsStartWrite n v s
  else
    let s := plainWrite b off v s
    let p := getPipe s n
    if capturedRegs.contains o ∧ p.cap.isSome then setPipe s n { p with diff := true } else s

/-- FTR_ (R361, R372). -/
def ftrWrite (secure : Bool) (b : Block) (off : Nat) (v : Reg) (s : State) : State :=
  let o := localOf b off
  if 0x1000 ≤ o ∧ o < 0x1400 then leaves (execPatternWrite secure (instOf b off) ((o - 0x1000) / 4) v s) s
  else plainWrite b off v s

/-- TC_ (R431): TC_ESC is reached from the secure world alone. -/
def tcWrite (secure : Bool) (b : Block) (off : Nat) (v : Reg) (s : State) : State :=
  if localOf b off = 0x40 ∧ ¬ secure then ctlRefused s off else plainWrite b off v s

/-- CDC_ (R518): CDC_CMD with its arguments in CDC_ARG0 to CDC_ARG2; a reserved OP does nothing. -/
def cdcWrite (secure : Bool) (b : Block) (off : Nat) (v : Reg) (s : State) : State :=
  let arg (i : Nat) := getN s (cdcBase + 0x48 + 4 * i)
  if off = cdcBase + 0x40 then
    match bits 31 28 v.toNat with
    | 1 => leaves (execMount secure s) s
    | 2 => leaves (execFormat secure (arg 0 + 2 ^ 32 * arg 1) s) s
    | 3 => leaves (execPin secure (arg 0) (arg 1) (arg 2) s) s
    | 4 => leaves (execUnpin secure (arg 0) (arg 1) (arg 2) s) s
    | 5 => leaves (execReplayStart secure (arg 0) (arg 1) s) s
    | 6 => leaves (execReplayStop secure s) s
    | 7 => leaves (execRingClear secure (arg 0) s) s
    | _ => s
  else plainWrite b off v s

/-- CHK_ (R523, R538, R545). -/
def chkWrite (secure : Bool) (b : Block) (off : Nat) (v : Reg) (s : State) : State :=
  let o := off - chkBase
  if o = 0x20 then
    match bits 31 28 v.toNat with
    | 1 => leaves (execLoad secure (bits 7 0 v.toNat) s) s
    | 2 => leaves (execDrop secure (bits 7 0 v.toNat) s) s
    | _ => chkResult s 5
  else if 0x1000 ≤ o ∧ o < 0x3000 then
    leaves (execLanternSetWrite secure ((o - 0x1000) / 64) ((o - 0x1000) / 4 % 16) v s) s
  else plainWrite b off v s

/-- FWL_ (R547, R549, R565). -/
def fwlWrite (b : Block) (off : Nat) (v : Reg) (s : State) : State :=
  let o := off - fwlBase
  if o = 0x34 then vlogPop v s
  else if 0x80 ≤ o ∧ o < 0xA0 then unitWorldWrite ((o - 0x80) / 4) v s
  else if 0x1000 ≤ o ∧ o < 0x2000 then regionWrite false ((o - 0x1000) / 16) (o / 4 % 4) v s
  else if 0x2000 ≤ o ∧ o < 0x2400 then regionWrite true ((o - 0x2000) / 16) (o / 4 % 4) v s
  else plainWrite b off v s

/-- R577, R586: PWR_VIG_DETEN written: a detector that is newly enabled starts with its first thumbnail. -/
def detenWrite (v : Reg) (s : State) : State :=
  let a := pwrBase + 0x68
  let new := (v &&& 0xFFFF#32) &&& ~~~(getR s a)
  let s := setR s a (v &&& 0xFFFF#32)
  ((List.range 16).filter fun n => bit n new.toNat).foldl (fun s n => setVigil s n {}) s

/-- PWR_ (R575, R577, R586). -/
def pwrWrite (secure : Bool) (b : Block) (off : Nat) (v : Reg) (s : State) : State :=
  let o := off - pwrBase
  if o = 0x20 then pwrCmd secure v.toNat s
  else if o = 0x34 then wakePin (plainWrite b off v s)
  else if o = 0x68 then detenWrite v s
  else plainWrite b off v s

/-- The 16 argument words of a command box (R614). -/
def boxArgs (s : State) (b : Nat) : List Reg := (List.range 16).map fun i => getR s (boxAt b + 0x10 + 4 * i)

/-- MGC_ (R605, R614): CMDDONE is kept for each world's box, so a secure write of MGC_INT_STATUS clears that of box 1. -/
def mgcWrite (secure : Bool) (b : Block) (off : Nat) (v : Reg) (s : State) : State :=
  let o := off - mgcBase
  if o = 0x1000 ∨ o = 0x2000 then
    let x := o / 0x1000 - 1
    let op := bits 15 0 v.toNat
    let tag := bits 31 16 v.toNat
    boxRun s x op tag (boxArgs s x) (boxWorkOf op tag)
  else if o = 0x10 ∧ secure then
    let s := setR s mgcSecureInt (getR s mgcSecureInt &&& ~~~(v &&& 1#32))
    plainWrite b off (v &&& ~~~1#32) s
  else plainWrite b off v s

/-- R626, R634: a threshold register written: ignored with CFGBAD where the thresholds would no longer rise strictly. -/
def thrWrite (b : Block) (off : Nat) (v : Reg) (s : State) : State :=
  let t := plainWrite b off v s
  if thresholdsOk (getN t (fldBase + 0x40)) (getN t (fldBase + 0x44)) then t else raise s (fldBase + 0x10) 8

/-- FLD_ (R616, R626, R629, R634). -/
def fldWrite (b : Block) (off : Nat) (v : Reg) (s : State) : State :=
  let o := off - fldBase
  if 0x20 ≤ o ∧ o < 0x40 then inCfg ((o - 0x20) / 4) (plainWrite b off v s)
  else if o = 0x40 ∨ o = 0x44 then thrWrite b off v s
  else if 0xA0 ≤ o ∧ o < 0xB0 then
    let k := (o - 0xA0) / 4
    outCfg k (getR s off) (plainWrite b off v s)
  else if o = 0xB0 then outWrite v s
  else if o = 0x200 ∨ o = 0x400 then segCfg (o / 0x200 - 1) v s
  else plainWrite b off v s

/-- A write that has reached its block. -/
def blockWrite (secure : Bool) (b : Block) (off : Nat) (v : Reg) (s : State) : State :=
  if b.base = hifBase then hifWrite b off v s
  else if b.base = qmBase then qmWrite secure b off v s
  else if b.base = dmaBase 0 then dmaWrite secure b off v s
  else if b.base = ispBase 0 then ispWrite secure b off v s
  else if b.base = ftrBase 0 then ftrWrite secure b off v s
  else if b.base = tcBase 0 then tcWrite secure b off v s
  else if b.base = cdcBase then cdcWrite secure b off v s
  else if b.base = chkBase then chkWrite secure b off v s
  else if b.base = fwlBase then fwlWrite b off v s
  else if b.base = pwrBase then pwrWrite secure b off v s
  else if b.base = mgcBase then mgcWrite secure b off v s
  else if b.base = fldBase then fldWrite b off v s
  else plainWrite b off v s

/-! ### The control window (R6, R16 to R19, R636) -/

/-- A write of `width` bytes at an offset of the control window (R6, R16 to R19). One that is misaligned or of another width counts
as that alone, wherever it lies (log entry 127). -/
def windowWrite (secure : Bool) (off width : Nat) (v : Reg) (s : State) : State :=
  if ¬ windowReach s secure off then s
  else
    let s := dozeWake s
    if width ≠ 4 ∨ off % 4 ≠ 0 then inc s (hifBase + 0x20)
    else match blockOf off with
      | none => inc s (hifBase + 0x24)
      | some b =>
        if ¬ blockOn s off then inc s (hifBase + 0x28)
        else if worldOf s b off ∧ ¬ secure then ctlRefused s off
        else blockWrite secure b off v s

/-! ### The function page (R638, R641 to R643) -/

/-- A 32-bit write to function `f`'s MSI-X table (R642): a mask bit cleared lets a pending message go. -/
def msixWrite (f o : Nat) (v : Reg) (s : State) : State :=
  let m : Reg := if o % 16 = 0 then 0xFFFFFFFC else if o % 16 = 12 then 1 else 0xFFFFFFFF
  sendPending (setR s (fnPage f + o) (v &&& m)) f

/-- A register of ring `r` written (R641, R643): a bound ring takes RING_CFG alone. -/
def ringWrite (f r o : Nat) (v : Reg) (s : State) : State :=
  if o = 0x10 then (if bit 31 v.toNat then ringBind f r v s else ringUnbind f r v s)
  else if ringBound s f r then s
  else if o < 0x10 then setR s (ringBase f r + o) v
  else if o = 0x14 then setR s (ringBase f r + o) (v &&& 0x7FF#32)
  else s

/-- A 32-bit write to function `f`'s page (R641). -/
def pageWrite (f o : Nat) (v : Reg) (s : State) : State :=
  if o < 0x8000 then msixWrite f o v s
  else if o = 0x1_0004 then setR s (fnPage f + o) (v &&& 0xFFFFFFFC#32)
  else if 0x2_0000 ≤ o ∧ o < 0x2_0800 then ringWrite f ((o - 0x2_0000) / 64) (o % 64) v s
  else if 0x3_0000 ≤ o ∧ o < 0x3_0100 ∧ o % 8 = 0 then ringDoorbell f ((o - 0x3_0000) / 8) v s
  else s

/-- A write of `width` bytes to function `f`'s page: as R6, but for aligned 64-bit writes of the MSI-X table (R638). -/
def fnPageWrite (f o width : Nat) (v : BitVec 64) (s : State) : State :=
  if ¬ fnReach s f ∨ s.firm.fw ≠ 1 then s
  else if width = 8 ∧ o % 8 = 0 ∧ o < 0x8000 then
    msixWrite f (o + 4) (reg (v.toNat / 2 ^ 32)) (msixWrite f o (reg v.toNat) s)
  else if width ≠ 4 ∨ o % 4 ≠ 0 then inc s (hifBase + 0x20)
  else pageWrite f o (reg v.toNat) s

/-- REGISTER_WRITE (R6 to R9): an access of a world to the control window, or (`page`) to the page of its function: a write of the
value given, or a read where none is. -/
def execRegisterWrite (secure page : Bool) (off width : Nat) (v : Option (BitVec 64)) (s : State) : Res :=
  .next <|
    match v with
    | none => if page then fnPageRead (b2n secure) off width s else windowRead secure off width s
    | some v => if page then fnPageWrite (b2n secure) off width v s else windowWrite secure off width (reg v.toNat) s

/-- FLD_OUT_CMD (R629, R634). -/
def execFldOutCmd (secure : Bool) (v : Reg) (s : State) : Res :=
  .next (hostAccess secure (flag s (fwlBase + 0xA0) 3) (fldBase + 0xB0) s (outWrite v))

/-- FLD_SEG_CFG (R616, R623, R634): the configuration of segment `g`. -/
def execFldSegCfg (secure : Bool) (g : Nat) (v : Reg) (s : State) : Res :=
  .next (hostAccess secure (flag s (fwlBase + 0xA0) 3) (segBase g) s (segCfg g v))

end Sys2Proof.Machine
end

