-- ==== Sys2Proof/Machine/Tick.lean ====
section
/-!
DEFINITION. One cycle of the block's clock (R568, R653), which is what a step is while no command waits: module time advances,
and what waits for a clock in which its conditions hold takes effect. Everything else that happens at a time of its own is a
command of the opcode table.
-/
namespace Sys2Proof.Machine

/-- The time that one cycle lasts, in units of 2⁻³² ns: 40 ns and ADJ of the reference clock, or PWR_SLTRIM of the crystal in
SOLSTICE. -/
def cycleLen (s : State) : Nat :=
  if s.power.st = .solstice then getN s (pwrBase + 0x4C) * 2 ^ 16
  else (40 * 2 ^ 32 + (getR s (hifBase + 0x208)).toInt).toNat

/-- Module time one cycle on; it is a count of 64 bits. The clocks of the cycle are counted where they are (log entry 19). -/
def addCycle (s : State) : State :=
  let t := s.time.ns * 2 ^ 32 + s.time.frac + cycleLen s
  { passing s (t / 2 ^ 32 - s.time.ns) with
    time := { s.time with ns := t / 2 ^ 32 % 2 ^ 64, frac := t % 2 ^ 32 } }

/-- One cycle: R105, R568, R574, R594, R628. -/
def tick (s : State) : State :=
  if timeRuns s then retrySquash (unitPowerDue (placeHeld (dozeDue (addCycle s)))) else s

end Sys2Proof.Machine
end

