-- ==== Sys2Proof/Machine/Dispatch.lean ====
section
/-!
DEFINITION. The meaning of every command: one arm for each row of the opcode table.
-/
namespace Sys2Proof.Machine

/-- What a command does to everything but the queue of commands. -/
def exec (i : Instr) (s : State) : Host.Outcome State Fault Refusal :=
  match i with
  | .registerWrite secure page off width v => Sys2Proof.Machine.execRegisterWrite secure page off width v s
  | .graphLoad secure tag addr len seq => Sys2Proof.Machine.execGraphLoad secure tag addr len seq s
  | .graphStart secure tag seq time => Sys2Proof.Machine.execGraphStart secure tag seq time s
  | .graphStartTakesEffect n c => Sys2Proof.Machine.execGraphStartTakesEffect n c s
  | .graphStop secure tag seq time => Sys2Proof.Machine.execGraphStop secure tag seq time s
  | .graphStopTakesEffect n c => Sys2Proof.Machine.execGraphStopTakesEffect n c s
  | .graphDrained n c => Sys2Proof.Machine.execGraphDrained n c s
  | .graphReplace secure tag addr len seq time => Sys2Proof.Machine.execGraphReplace secure tag addr len seq time s
  | .graphReplaceTakeover n c => Sys2Proof.Machine.execGraphReplaceTakeover n c s
  | .replaceOldGraphUnload n => Sys2Proof.Machine.execReplaceOldGraphUnload n s
  | .graphUnload secure tag seq => Sys2Proof.Machine.execGraphUnload secure tag seq s
  | .admitTrial secure tag addr len seq => Sys2Proof.Machine.execAdmitTrial secure tag addr len seq s
  | .almanacRead secure tag cls addr => Sys2Proof.Machine.execAlmanacRead secure tag cls addr s
  | .coolingSet secure tag cls => Sys2Proof.Machine.execCoolingSet secure tag cls s
  | .tableRegister secure tag args => Sys2Proof.Machine.execTableRegister secure tag args s
  | .doze secure tag => Sys2Proof.Machine.execDoze secure tag s
  | .dozeIdleExpiry => Sys2Proof.Machine.execDozeIdleExpiry s
  | .vigil secure tag force => Sys2Proof.Machine.execVigil secure tag force s
  | .solstice secure tag force => Sys2Proof.Machine.execSolstice secure tag force s
  | .entryDrainComplete => Sys2Proof.Machine.execEntryDrainComplete s
  | .hostwaitExpiry => Sys2Proof.Machine.execHostwaitExpiry s
  | .entrySegmentsClosed answered => Sys2Proof.Machine.execEntrySegmentsClosed answered s
  | .parkComplete => Sys2Proof.Machine.execParkComplete s
  | .wakeSource b => Sys2Proof.Machine.execWakeSource b s
  | .exitToRun => Sys2Proof.Machine.execExitToRun s
  | .off secure tag => Sys2Proof.Machine.execOff secure tag s
  | .moduleReset via tag => Sys2Proof.Machine.execModuleReset via tag s
  | .clusterReset secure tag cluster => Sys2Proof.Machine.execClusterReset secure tag cluster s
  | .unitReset secure tag unit_ => Sys2Proof.Machine.execUnitReset secure tag unit_ s
  | .sensorRead via tag => Sys2Proof.Machine.execSensorRead via tag s
  | .unitState secure tag first count => Sys2Proof.Machine.execUnitState secure tag first count s
  | .unitFence secure tag unit_ => Sys2Proof.Machine.execUnitFence secure tag unit_ s
  | .unitRelease secure tag unit_ => Sys2Proof.Machine.execUnitRelease secure tag unit_ s
  | .unitPower secure tag unit_ up => Sys2Proof.Machine.execUnitPower secure tag unit_ up s
  | .serviceRead via tag => Sys2Proof.Machine.execServiceRead via tag s
  | .serviceClear secure tag addr => Sys2Proof.Machine.execServiceClear secure tag addr s
  | .diaryRead via tag first count addr => Sys2Proof.Machine.execDiaryRead via tag first count addr s
  | .diarySeal secure tag => Sys2Proof.Machine.execDiarySeal secure tag s
  | .diaryKey via tag addr => Sys2Proof.Machine.execDiaryKey via tag addr s
  | .diaryNote secure tag words => Sys2Proof.Machine.execDiaryNote secure tag words s
  | .diaryEntryWritten => Sys2Proof.Machine.execDiaryEntryWritten s
  | .updateBegin via tag size => Sys2Proof.Machine.execUpdateBegin via tag size s
  | .updateWrite via tag addr len off => Sys2Proof.Machine.execUpdateWrite via tag addr len off s
  | .updateCommit via tag window => Sys2Proof.Machine.execUpdateCommit via tag window s
  | .updateConfirm secure tag => Sys2Proof.Machine.execUpdateConfirm secure tag s
  | .updateAbort via tag => Sys2Proof.Machine.execUpdateAbort via tag s
  | .trialWindowExpiry => Sys2Proof.Machine.execTrialWindowExpiry s
  | .provision secure tag addr => Sys2Proof.Machine.execProvision secure tag addr s
  | .provrecWrite secure tag addr => Sys2Proof.Machine.execProvrecWrite secure tag addr s
  | .version via tag protocol hwgen => Sys2Proof.Machine.execVersion via tag protocol hwgen s
  | .smbusBlockWrite addr pecOk op tag args => Sys2Proof.Machine.execSmbusBlockWrite addr pecOk op tag args s
  | .nop n c => Sys2Proof.Machine.execSeqNop n c s
  | .halt n c code => Sys2Proof.Machine.execHalt n c code s
  | .alu n c fn gd ga b => Sys2Proof.Machine.execSeqAlu n c fn gd ga b s
  | .br n c k cond ga b target => Sys2Proof.Machine.execSeqBr n c k cond ga b target s
  | .jr n c ga => Sys2Proof.Machine.execJr n c ga s
  | .epoch n c gd gf => Sys2Proof.Machine.execEpoch n c gd gf s
  | .epochRelease n c => Sys2Proof.Machine.execEpochRelease n c s
  | .date n c k src ruleset => Sys2Proof.Machine.execDate n c k src ruleset s
  | .dateCommit n => Sys2Proof.Machine.execDateCommit n s
  | .deadlineExpiry n idx => Sys2Proof.Machine.execDeadlineExpiry n idx s
  | .squash n c k ga reason => Sys2Proof.Machine.execSquash n c k ga reason s
  | .scrubComplete g => Sys2Proof.Machine.execScrubComplete g s
  | .win n c stage wmin wmax => Sys2Proof.Machine.execWin n c stage wmin wmax s
  | .kick n c k tgt cflag set pbidx => Sys2Proof.Machine.execKick n c k tgt cflag set pbidx s
  | .kickAccept e => Sys2Proof.Machine.execKickAccept e s
  | .kickRejectStaleEpoch e => Sys2Proof.Machine.execKickRejectStaleEpoch e s
  | .pset n c k ga woff => Sys2Proof.Machine.execPset n c k ga woff s
  | .waitf n c k cmp b f => Sys2Proof.Machine.execWaitf n c k cmp b f s
  | .waitfRelease n c => Sys2Proof.Machine.execWaitfRelease n c s
  | .setf n c k rd b f => Sys2Proof.Machine.execSetf n c k rd b f s
  | .addf n c k rd b f => Sys2Proof.Machine.execAddf n c k rd b f s
  | .barrier n c k kind => Sys2Proof.Machine.execBarrier n c k kind s
  | .barrierRelease n c => Sys2Proof.Machine.execBarrierRelease n c s
  | .enq n c k last ga qid => Sys2Proof.Machine.execEnq n c k last ga qid s
  | .deq n c blk gd qid => Sys2Proof.Machine.execDeq n c blk gd qid s
  | .deqRelease n c => Sys2Proof.Machine.execDeqRelease n c s
  | .tarm n c tmr per interval => Sys2Proof.Machine.execTarm n c tmr per interval s
  | .twait n c tmr => Sys2Proof.Machine.execTwait n c tmr s
  | .timerExpiry n c tmr => Sys2Proof.Machine.execTimerExpiry n c tmr s
  | .trd n c k gd sel => Sys2Proof.Machine.execTrd n c k gd sel s
  | .lantern n c tgt cflag lid => Sys2Proof.Machine.execLantern n c tgt cflag lid s
  | .windowExpiry e => Sys2Proof.Machine.execWindowExpiry e s
  | .stageCompletion e => Sys2Proof.Machine.execStageCompletion e s
  | .datingGateResume e => Sys2Proof.Machine.execDatingGateResume e s
  | .seqActivation n => Sys2Proof.Machine.execSeqActivation n s
  | .taskDispatch p => Sys2Proof.Machine.execTaskDispatch p s
  | .preemption p => Sys2Proof.Machine.execPreemption p s
  | .dispatchRejectStaleEpoch e => Sys2Proof.Machine.execDispatchRejectStaleEpoch e s
  | .servedTaskReady e => Sys2Proof.Machine.execServedTaskReady e s
  | .flowRelease f => Sys2Proof.Machine.execFlowRelease f s
  | .flowEnqueueHoldRelease e => Sys2Proof.Machine.execFlowEnqueueHoldRelease e s
  | .starveLimit e => Sys2Proof.Machine.execStarveLimit e s
  | .leapMarkerPlace qid => Sys2Proof.Machine.execLeapMarkerPlace qid s
  | .cellGrant qid => Sys2Proof.Machine.execCellGrant qid s
  | .waitBreak => Sys2Proof.Machine.execWaitBreak s
  | .poolCountCheck => Sys2Proof.Machine.execPoolCountCheck s
  | .flush secure qid => Sys2Proof.Machine.execFlush secure qid s
  | .flushComplete qid => Sys2Proof.Machine.execFlushComplete qid s
  | .reset secure qid => Sys2Proof.Machine.execReset secure qid s
  | .rebuild secure => Sys2Proof.Machine.execRebuild secure s
  | .poolTestEnd => Sys2Proof.Machine.execPoolTestEnd s
  | .poolBuildEnd => Sys2Proof.Machine.execPoolBuildEnd s
  | .rebuildSweepEnd => Sys2Proof.Machine.execRebuildSweepEnd s
  | .dmaBurstStart k => Sys2Proof.Machine.execDmaBurstStart k s
  | .descriptorFetch idx => Sys2Proof.Machine.execDescriptorFetch idx s
  | .descriptorComplete idx => Sys2Proof.Machine.execDescriptorComplete idx s
  | .nextReadReturn idx => Sys2Proof.Machine.execNextReadReturn idx s
  | .dmaChDoorbell secure idx => Sys2Proof.Machine.execDmaChDoorbell secure idx s
  | .clear secure idx => Sys2Proof.Machine.execClear secure idx s
  | .finish secure idx => Sys2Proof.Machine.execFinish secure idx s
  | .dmaError idx => Sys2Proof.Machine.execDmaError idx s
  | .dmaTimeout idx => Sys2Proof.Machine.execDmaTimeout idx s
  | .frameStart port vc h => Sys2Proof.Machine.execFrameStart port vc h s
  | .frameEnd port vc h => Sys2Proof.Machine.execFrameEnd port vc h s
  | .imageLine port vc dt h crcOk overflow l => Sys2Proof.Machine.execImageLine port vc dt h crcOk overflow l s
  | .embeddedLine port vc dt h crcOk l => Sys2Proof.Machine.execEmbeddedLine port vc dt h crcOk l s
  | .frameTimeout n => Sys2Proof.Machine.execFrameTimeout n s
  | .pipelineFrameDone n => Sys2Proof.Machine.execPipelineFrameDone n s
  | .pairWindowExpiry n => Sys2Proof.Machine.execPairWindowExpiry n s
  | .ispSetCommit secure n => Sys2Proof.Machine.execIspSetCommit secure n s
  | .sensorWriteComplete n acked => Sys2Proof.Machine.execSensorWriteComplete n acked s
  | .scmWrite secure m addr r k e => Sys2Proof.Machine.execScmWrite secure m addr r k e s
  | .scmRead secure m addr r k e v => Sys2Proof.Machine.execScmRead secure m addr r k e v s
  | .entdaa secure m e => Sys2Proof.Machine.execEntdaa secure m e s
  | .fsyncPulse k => Sys2Proof.Machine.execFsyncPulse k s
  | .fsyncStartWrite secure k hi => Sys2Proof.Machine.execFsyncStartWrite secure k hi s
  | .fsyncPeriodWrite secure k v => Sys2Proof.Machine.execFsyncPeriodWrite secure k v s
  | .vigilThumbnailJudge n => Sys2Proof.Machine.execVigilThumbnailJudge n s
  | .stereoStage idx => Sys2Proof.Machine.execStereoStage idx s
  | .flowStage idx => Sys2Proof.Machine.execFlowStage idx s
  | .featureDetectStage idx => Sys2Proof.Machine.execFeatureDetectStage idx s
  | .featureMatchStage idx => Sys2Proof.Machine.execFeatureMatchStage idx s
  | .patternWrite secure idx k v => Sys2Proof.Machine.execPatternWrite secure idx k v s
  | .warpStage idx => Sys2Proof.Machine.execWarpStage idx s
  | .inverseGeneration idx => Sys2Proof.Machine.execInverseGeneration idx s
  | .reduce idx => Sys2Proof.Machine.execReduce idx s
  | .laplace idx => Sys2Proof.Machine.execLaplace idx s
  | .collapse idx => Sys2Proof.Machine.execCollapse idx s
  | .expand idx => Sys2Proof.Machine.execExpand idx s
  | .engineError u => Sys2Proof.Machine.execEngineError u s
  | .engineMemoryTimeout u a => Sys2Proof.Machine.execEngineMemoryTimeout u a s
  | .tcNop c x => Sys2Proof.Machine.execTcNop c x s
  | .tcEnd c => Sys2Proof.Machine.execTcEnd c s
  | .tcBr c x => Sys2Proof.Machine.execTcBr c x s
  | .salu c x => Sys2Proof.Machine.execSalu c x s
  | .aalu c x => Sys2Proof.Machine.execAalu c x s
  | .mova c x => Sys2Proof.Machine.execMova c x s
  | .tdset c x => Sys2Proof.Machine.execTdset c x s
  | .tdoff c x => Sys2Proof.Machine.execTdoff c x s
  | .pld c x => Sys2Proof.Machine.execPld c x s
  | .sld c => Sys2Proof.Machine.execSld c s
  | .ld c => Sys2Proof.Machine.execLd c s
  | .st c => Sys2Proof.Machine.execSt c s
  | .ldq c => Sys2Proof.Machine.execLdq c s
  | .stq c => Sys2Proof.Machine.execStq c s
  | .giss c => Sys2Proof.Machine.execGiss c s
  | .proc c => Sys2Proof.Machine.execProc c s
  | .mac c => Sys2Proof.Machine.execMac c s
  | .wout c => Sys2Proof.Machine.execWout c s
  | .vop c => Sys2Proof.Machine.execVop c s
  | .sfu c => Sys2Proof.Machine.execSfu c s
  | .fset c => Sys2Proof.Machine.execFset c s
  | .fadd c => Sys2Proof.Machine.execFadd c s
  | .fwait c => Sys2Proof.Machine.execFwait c s
  | .tcFwaitRelease c => Sys2Proof.Machine.execTcFwaitRelease c s
  | .tcQueueTokenRelease c x => Sys2Proof.Machine.execTcQueueTokenRelease c x s
  | .bar c => Sys2Proof.Machine.execBar c s
  | .tcDeadlock c => Sys2Proof.Machine.execTcDeadlock c s
  | .lookup e => Sys2Proof.Machine.execLookup e s
  | .bag e => Sys2Proof.Machine.execBag e s
  | .probe e => Sys2Proof.Machine.execProbe e s
  | .gatherReply e => Sys2Proof.Machine.execGatherReply e s
  | .encodeStage => Sys2Proof.Machine.execEncodeStage s
  | .segmentCloseTimeout n => Sys2Proof.Machine.execSegmentCloseTimeout n s
  | .recordWrite => Sys2Proof.Machine.execRecordWrite s
  | .nvmeCommandTimeout read => Sys2Proof.Machine.execNvmeCommandTimeout read s
  | .nvmeCommandComplete read ok => Sys2Proof.Machine.execNvmeCommandComplete read ok s
  | .nvmeControllerFatal => Sys2Proof.Machine.execNvmeControllerFatal s
  | .nvmeBringup ok width speed => Sys2Proof.Machine.execNvmeBringup ok width speed s
  | .mount secure => Sys2Proof.Machine.execMount secure s
  | .format secure addr => Sys2Proof.Machine.execFormat secure addr s
  | .pin secure n q count => Sys2Proof.Machine.execPin secure n q count s
  | .unpin secure n q count => Sys2Proof.Machine.execUnpin secure n q count s
  | .replayStart secure n q => Sys2Proof.Machine.execReplayStart secure n q s
  | .replayStop secure => Sys2Proof.Machine.execReplayStop secure s
  | .ringClear secure n => Sys2Proof.Machine.execRingClear secure n s
  | .replayRead => Sys2Proof.Machine.execReplayRead s
  | .decodeStage => Sys2Proof.Machine.execDecodeStage s
  | .frameUnit n => Sys2Proof.Machine.execFrameUnit n s
  | .recordUnit n => Sys2Proof.Machine.execRecordUnit n s
  | .signatureUnit => Sys2Proof.Machine.execSignatureUnit s
  | .managementRequest => Sys2Proof.Machine.execManagementRequest s
  | .checkerUnitTimeout => Sys2Proof.Machine.execCheckerUnitTimeout s
  | .load secure t => Sys2Proof.Machine.execLoad secure t s
  | .drop secure t => Sys2Proof.Machine.execDrop secure t s
  | .lanternSetWrite secure l idx v => Sys2Proof.Machine.execLanternSetWrite secure l idx v s
  | .lanternCycleEnd => Sys2Proof.Machine.execLanternCycleEnd s
  | .lanternStageTimeout e => Sys2Proof.Machine.execLanternStageTimeout e s
  | .unitWorldAssign secure w v => Sys2Proof.Machine.execUnitWorldAssign secure w v s
  | .regionEntryWrite secure som r k v => Sys2Proof.Machine.execRegionEntryWrite secure som r k v s
  | .fwlVlogPop secure v => Sys2Proof.Machine.execFwlVlogPop secure v s
  | .modEnAssert => Sys2Proof.Machine.execModEnAssert s
  | .modEnDeassert => Sys2Proof.Machine.execModEnDeassert s
  | .modRstNAssert => Sys2Proof.Machine.execModRstNAssert s
  | .supplyValid => Sys2Proof.Machine.execSupplyValid s
  | .supplyBrownout => Sys2Proof.Machine.execSupplyBrownout s
  | .powerOnReset straps => Sys2Proof.Machine.execPowerOnReset straps s
  | .hostWakeNAssert => Sys2Proof.Machine.execHostWakeNAssert s
  | .waketimeReached => Sys2Proof.Machine.execWaketimeReached s
  | .clockChangeComplete => Sys2Proof.Machine.execClockChangeComplete s
  | .sensorSample k idx v => Sys2Proof.Machine.execSensorSample k idx v s
  | .railwarn r mv => Sys2Proof.Machine.execRailwarn r mv s
  | .railfault r mv => Sys2Proof.Machine.execRailfault r mv s
  | .supplylow => Sys2Proof.Machine.execSupplylow s
  | .thermwarn => Sys2Proof.Machine.execThermwarn s
  | .thermalStepDown => Sys2Proof.Machine.execThermalStepDown s
  | .thermalStepUp => Sys2Proof.Machine.execThermalStepUp s
  | .shedRestore => Sys2Proof.Machine.execShedRestore s
  | .thermalTrip => Sys2Proof.Machine.execThermalTrip s
  | .managementWatchdogExpiry => Sys2Proof.Machine.execManagementWatchdogExpiry s
  | .audit => Sys2Proof.Machine.execAudit s
  | .segmentFrameReceive g node fcsOk l => Sys2Proof.Machine.execSegmentFrameReceive g node fcsOk l s
  | .segmentTransmit g => Sys2Proof.Machine.execSegmentTransmit g s
  | .beacon g heard => Sys2Proof.Machine.execBeacon g heard s
  | .beaconLoss g => Sys2Proof.Machine.execBeaconLoss g s
  | .jabber g k => Sys2Proof.Machine.execJabber g k s
  | .segmentIsolate g v => Sys2Proof.Machine.execSegmentIsolate g v s
  | .segmentLineTest g v => Sys2Proof.Machine.execSegmentLineTest g v s
  | .wakeBurst g => Sys2Proof.Machine.execWakeBurst g s
  | .inputSample idx voff fwd rev => Sys2Proof.Machine.execInputSample idx voff fwd rev s
  | .fldOutCmd secure v => Sys2Proof.Machine.execFldOutCmd secure v s
  | .outputShort o current => Sys2Proof.Machine.execOutputShort o current s
  | .outputRetry o => Sys2Proof.Machine.execOutputRetry o s
  | .outputOpen o current => Sys2Proof.Machine.execOutputOpen o current s
  | .outputTherm o hot current => Sys2Proof.Machine.execOutputTherm o hot current s
  | .vfldRestore mv => Sys2Proof.Machine.execVfldRestore mv s
  | .functionLevelReset f => Sys2Proof.Machine.execFunctionLevelReset f s
  | .pciePerstNAssert k => Sys2Proof.Machine.execPciePerstNAssert k s
  | .configRequest f write r v => Sys2Proof.Machine.execConfigRequest f write r v s
  | .memoryWindowAccess f write o n l => Sys2Proof.Machine.execMemoryWindowAccess f write o n l s
  | .ringBind f r v => Sys2Proof.Machine.execRingBind f r v s
  | .ringUnbind f r v => Sys2Proof.Machine.execRingUnbind f r v s
  | .ringDb f r ci => Sys2Proof.Machine.execRingDb f r ci s
  | .ringDelivery f => Sys2Proof.Machine.execRingDelivery f s
  | .msixVectorUnmask f vec => Sys2Proof.Machine.execMsixVectorUnmask f vec s
  | .ethFrameReceive m fcsOk l => Sys2Proof.Machine.execEthFrameReceive m fcsOk l s
  | .ethTransmit m => Sys2Proof.Machine.execEthTransmit m s
  | .ethLinkChange m rate => Sys2Proof.Machine.execEthLinkChange m rate s
  | .ptpSync off => Sys2Proof.Machine.execPtpSync off s
  | .timeAdjWrite secure v => Sys2Proof.Machine.execTimeAdjWrite secure v s
  | .timeOfsWrite secure hi => Sys2Proof.Machine.execTimeOfsWrite secure hi s
  | .timeReadLatch secure => Sys2Proof.Machine.execTimeReadLatch secure s
  | .mdioWrite secure c45 m port dev data => Sys2Proof.Machine.execMdioWrite secure c45 m port dev data s
  | .mdioRead secure c45 m port dev v => Sys2Proof.Machine.execMdioRead secure c45 m port dev v s
  | .mdioAddress secure c45 m port dev addr => Sys2Proof.Machine.execMdioAddress secure c45 m port dev addr s
  | .htsSnap secure => Sys2Proof.Machine.execHtsSnap secure s
  | .fldSegCfg secure g v => Sys2Proof.Machine.execFldSegCfg secure g v s
  | .inBandInterrupt m => Sys2Proof.Machine.execInBandInterrupt m s
  | .openLoadCleared o current => Sys2Proof.Machine.execOpenLoadCleared o current s
  | .pmeTurnOff => Sys2Proof.Machine.execPmeTurnOff s
  | .pciePerstNDeassert => Sys2Proof.Machine.execPciePerstNDeassert s
  | .linkReachesL0 width speed => Sys2Proof.Machine.execLinkReachesL0 width speed s

end Sys2Proof.Machine
end

