-- ==== Sys2Proof/WellFormed.lean ====
section
/-!
DEFINITION. Well-formed commands: what the specification demands of a command's operands beyond the bounds that their types
give, and the bounds of operands that are plain numbers.
-/
namespace Sys2Proof

/-- R108: whether TGT of a `KICK` names a unit: the type in bits [9:6], the instance in bits [5:0], where 0x3F names any. -/
def kickTarget (tgt : Nat) : Bool :=
  let inst := tgt % 64
  match tgt / 64 with
  | 0 | 1 | 2 | 6 => decide (inst < 4) || inst == 0x3F
  | 3 | 4 => decide (inst < 8) || inst == 0x3F
  | 5 | 7 => true
  | 8 => decide (inst < 2)
  | _ => false

/-- R108, R124, R538: whether TGT of a `LANTERN` names a unit that a lantern set can have. -/
def lanternTarget (tgt : Nat) : Bool :=
  let inst := tgt % 64
  match tgt / 64 with
  | 0 | 1 | 2 => decide (inst < 4)
  | 3 | 4 => decide (inst < 8)
  | 9 => true
  | _ => false

/-- R119, R121: the first register of a pair. -/
def even (r : Nat) : Bool := r % 2 == 0

/-- R338, R490, R516, R548: the units whose errors ENGINE_ERROR reports: the gather partitions, the vision engines and the
codec. -/
def errorUnit (u : Nat) : Bool := decide (128 ≤ u ∧ u < 160) || u == 196 || u == 197

/-- Whether a command is well formed. -/
def wf : Instr → Bool
  | .registerWrite _ page off width _ => [1, 2, 4, 8].contains width && decide (off + width ≤ (if page then 2 ^ 20 else 2 ^ 28))
  | .graphLoad _ _ _ _ _ => true
  | .graphStart _ _ _ _ => true
  | .graphStartTakesEffect _ _ => true
  | .graphStop _ _ _ _ => true
  | .graphStopTakesEffect _ _ => true
  | .graphDrained _ _ => true
  | .graphReplace _ _ _ _ _ _ => true
  | .graphReplaceTakeover _ _ => true
  | .replaceOldGraphUnload _ => true
  | .graphUnload _ _ _ => true
  | .admitTrial _ _ _ _ _ => true
  | .almanacRead _ _ _ _ => true
  | .coolingSet _ _ _ => true
  | .tableRegister _ _ args => decide (args.length = 13)
  | .doze _ _ => true
  | .dozeIdleExpiry => true
  | .vigil _ _ _ => true
  | .solstice _ _ _ => true
  | .entryDrainComplete => true
  | .hostwaitExpiry => true
  | .entrySegmentsClosed _ => true
  | .parkComplete => true
  | .wakeSource _ => true
  | .exitToRun => true
  | .off _ _ => true
  | .moduleReset _ _ => true
  | .clusterReset _ _ _ => true
  | .unitReset _ _ _ => true
  | .sensorRead _ _ => true
  | .unitState _ _ _ _ => true
  | .unitFence _ _ _ => true
  | .unitRelease _ _ _ => true
  | .unitPower _ _ _ _ => true
  | .serviceRead _ _ => true
  | .serviceClear _ _ _ => true
  | .diaryRead _ _ _ _ _ => true
  | .diarySeal _ _ => true
  | .diaryKey _ _ _ => true
  | .diaryNote _ _ words => decide (words.length = 8)
  | .diaryEntryWritten => true
  | .updateBegin _ _ _ => true
  | .updateWrite _ _ _ _ _ => true
  | .updateCommit _ _ _ => true
  | .updateConfirm _ _ => true
  | .updateAbort _ _ => true
  | .trialWindowExpiry => true
  | .provision _ _ _ => true
  | .provrecWrite _ _ _ => true
  | .version _ _ _ _ => true
  | .smbusBlockWrite _ _ _ _ args => decide (args.length ≤ 16)
  | .nop _ _ => true
  | .halt _ _ _ => true
  | .alu _ _ _ _ _ _ => true
  | .br _ _ _ _ _ _ _ => true
  | .jr _ _ _ => true
  | .epoch _ _ _ _ => true
  | .epochRelease _ _ => true
  | .date _ _ _ _ _ => true
  | .dateCommit _ => true
  | .deadlineExpiry _ _ => true
  | .squash _ _ _ _ _ => true
  | .scrubComplete g => decide (1 ≤ g ∧ g ≤ 0xFE)
  | .win _ _ _ _ _ => true
  | .kick _ _ _ tgt _ _ _ => kickTarget tgt
  | .kickAccept _ => true
  | .kickRejectStaleEpoch _ => true
  | .pset _ _ _ _ _ => true
  | .waitf _ _ _ _ _ _ => true
  | .waitfRelease _ _ => true
  | .setf _ _ _ _ _ _ => true
  | .addf _ _ _ _ _ _ => true
  | .barrier _ _ _ _ => true
  | .barrierRelease _ _ => true
  | .enq _ _ _ _ ga _ => even ga
  | .deq _ _ _ gd _ => even gd
  | .deqRelease _ _ => true
  | .tarm _ _ _ _ interval => decide (interval ≠ 0)
  | .twait _ _ _ => true
  | .timerExpiry _ _ _ => true
  | .trd _ _ _ _ sel => decide (sel < 6)
  | .lantern n _ tgt _ _ => lanternTarget tgt && decide (n = 17)
  | .windowExpiry _ => true
  | .stageCompletion _ => true
  | .datingGateResume _ => true
  | .seqActivation n => decide (16 ≤ n ∧ n ≤ 18)
  | .taskDispatch _ => true
  | .preemption _ => true
  | .dispatchRejectStaleEpoch _ => true
  | .servedTaskReady _ => true
  | .flowRelease _ => true
  | .flowEnqueueHoldRelease _ => true
  | .starveLimit _ => true
  | .leapMarkerPlace _ => true
  | .cellGrant _ => true
  | .waitBreak => true
  | .poolCountCheck => true
  | .flush _ _ => true
  | .flushComplete _ => true
  | .reset _ _ => true
  | .rebuild _ => true
  | .poolTestEnd => true
  | .poolBuildEnd => true
  | .rebuildSweepEnd => true
  | .dmaBurstStart _ => true
  | .descriptorFetch _ => true
  | .descriptorComplete _ => true
  | .nextReadReturn _ => true
  | .dmaChDoorbell _ _ => true
  | .clear _ _ => true
  | .finish _ _ => true
  | .dmaError _ => true
  | .dmaTimeout _ => true
  | .frameStart _ _ _ => true
  | .frameEnd _ _ _ => true
  | .imageLine _ _ _ _ _ _ l => decide (l.length < 2 ^ 16)
  | .embeddedLine _ _ _ _ _ l => decide (l.length < 2 ^ 16)
  | .frameTimeout _ => true
  | .pipelineFrameDone _ => true
  | .pairWindowExpiry _ => true
  | .ispSetCommit _ _ => true
  | .sensorWriteComplete _ acked => decide (acked ≤ 32)
  | .scmWrite _ _ _ _ k _ => decide (1 ≤ k)
  | .scmRead _ _ _ _ k _ _ => decide (1 ≤ k)
  | .entdaa _ _ _ => true
  | .fsyncPulse _ => true
  | .fsyncStartWrite _ _ _ => true
  | .fsyncPeriodWrite _ _ _ => true
  | .vigilThumbnailJudge _ => true
  | .stereoStage _ => true
  | .flowStage _ => true
  | .featureDetectStage _ => true
  | .featureMatchStage _ => true
  | .patternWrite _ _ _ _ => true
  | .warpStage _ => true
  | .inverseGeneration _ => true
  | .reduce _ => true
  | .laplace _ => true
  | .collapse _ => true
  | .expand _ => true
  | .engineError u => errorUnit u
  | .engineMemoryTimeout u a => errorUnit u && decide (a < 2 ^ 64)
  | .tcNop _ _ => true
  | .tcEnd _ => true
  | .tcBr _ _ => true
  | .salu _ _ => true
  | .aalu _ _ => true
  | .mova _ _ => true
  | .tdset _ _ => true
  | .tdoff _ _ => true
  | .pld _ _ => true
  | .sld _ => true
  | .ld _ => true
  | .st _ => true
  | .ldq _ => true
  | .stq _ => true
  | .giss _ => true
  | .proc _ => true
  | .mac _ => true
  | .wout _ => true
  | .vop _ => true
  | .sfu _ => true
  | .fset _ => true
  | .fadd _ => true
  | .fwait _ => true
  | .tcFwaitRelease _ => true
  | .tcQueueTokenRelease _ _ => true
  | .bar _ => true
  | .tcDeadlock _ => true
  | .lookup _ => true
  | .bag _ => true
  | .probe _ => true
  | .gatherReply _ => true
  | .encodeStage => true
  | .segmentCloseTimeout _ => true
  | .recordWrite => true
  | .nvmeCommandTimeout _ => true
  | .nvmeCommandComplete _ _ => true
  | .nvmeControllerFatal => true
  | .nvmeBringup _ width speed => [1, 2, 4].contains width && decide (1 ≤ speed ∧ speed ≤ 4)
  | .mount _ => true
  | .format _ addr => decide (addr < 2 ^ 64)
  | .pin _ n q count => decide (n < 2 ^ 32 ∧ q < 2 ^ 32 ∧ count < 2 ^ 32)
  | .unpin _ n q count => decide (n < 2 ^ 32 ∧ q < 2 ^ 32 ∧ count < 2 ^ 32)
  | .replayStart _ n q => decide (n < 2 ^ 32 ∧ q < 2 ^ 32)
  | .replayStop _ => true
  | .ringClear _ n => decide (n < 2 ^ 32)
  | .replayRead => true
  | .decodeStage => true
  | .frameUnit _ => true
  | .recordUnit _ => true
  | .signatureUnit => true
  | .managementRequest => true
  | .checkerUnitTimeout => true
  | .load _ _ => true
  | .drop _ _ => true
  | .lanternSetWrite _ _ _ _ => true
  | .lanternCycleEnd => true
  | .lanternStageTimeout _ => true
  | .unitWorldAssign _ _ _ => true
  | .regionEntryWrite _ som r _ _ => !som || decide (r < 64)
  | .fwlVlogPop _ _ => true
  | .modEnAssert => true
  | .modEnDeassert => true
  | .modRstNAssert => true
  | .supplyValid => true
  | .supplyBrownout => true
  | .powerOnReset _ => true
  | .hostWakeNAssert => true
  | .waketimeReached => true
  | .clockChangeComplete => true
  | .sensorSample k idx _ => decide (k = .temp) || decide (idx < 11)
  | .railwarn _ _ => true
  | .railfault _ _ => true
  | .supplylow => true
  | .thermwarn => true
  | .thermalStepDown => true
  | .thermalStepUp => true
  | .shedRestore => true
  | .thermalTrip => true
  | .managementWatchdogExpiry => true
  | .audit => true
  | .segmentFrameReceive _ _ _ l => decide (l.length < 2 ^ 16)
  | .segmentTransmit _ => true
  | .beacon _ _ => true
  | .beaconLoss _ => true
  | .jabber _ _ => true
  | .segmentIsolate _ _ => true
  | .segmentLineTest _ _ => true
  | .wakeBurst _ => true
  | .inputSample _ _ _ _ => true
  | .fldOutCmd _ _ => true
  | .outputShort _ _ => true
  | .outputRetry _ => true
  | .outputOpen _ _ => true
  | .outputTherm _ _ _ => true
  | .vfldRestore _ => true
  | .functionLevelReset _ => true
  | .pciePerstNAssert _ => true
  | .configRequest _ _ _ _ => true
  | .memoryWindowAccess _ write o n l => decide (o + (if write then l.length else n) ≤ 2 ^ 32)
  | .ringBind _ _ _ => true
  | .ringUnbind _ _ _ => true
  | .ringDb _ _ _ => true
  | .ringDelivery _ => true
  | .msixVectorUnmask _ _ => true
  | .ethFrameReceive _ _ l => decide (l.length < 2 ^ 16)
  | .ethTransmit _ => true
  | .ethLinkChange _ rate => decide (rate ≤ 5)
  | .ptpSync _ => true
  | .timeAdjWrite _ _ => true
  | .timeOfsWrite _ _ => true
  | .timeReadLatch _ => true
  | .mdioWrite _ _ _ _ _ _ => true
  | .mdioRead _ _ _ _ _ _ => true
  | .mdioAddress _ _ _ _ _ _ => true
  | .htsSnap _ => true
  | .fldSegCfg _ _ _ => true
  | .inBandInterrupt _ => true
  | .openLoadCleared _ _ => true
  | .pmeTurnOff => true
  | .pciePerstNDeassert => true
  | .linkReachesL0 width speed => [1, 2, 4, 8].contains width && decide (1 ≤ speed ∧ speed ≤ 5)

/-- A well-formed command. -/
abbrev WellFormed (i : Instr) : Prop := wf i = true

end Sys2Proof
end

