-- ==== Sys2Proof/Safety.lean ====
section
/-!
DEFINITION. What claims about runs are stated in: a state whose memory has its canonical form, and a step that answers a next
state.
-/
namespace Sys2Proof.Machine

/-- The form that memory has in every state that a run reaches: addresses rise and no byte that an unlisted address reads as
is listed. -/
def Inv (s : State) : Prop := Memory.wf s.mem = true

/-- A step of the block that goes on: the state after it. -/
def Steps (s t : State) : Prop := step s = .next t

/-- A command that completes in a state, leaving `t`. -/
def Completes (c : Instr) (s t : State) : Prop := exec c s = .next t

/-- A context that issues the instruction of the word `w` (R92, R94, R97): a graph is loaded in it, it runs, its program counter
names `w` in the program, and the program bank is sound there. -/
def Issues (s : State) (n c : Nat) (g : Graph) (w : Word) : Prop :=
  getGraph s n c = some g ∧ (getCtx s n c).rst = .run ∧ g.pl.prog[(getCtx s n c).pc]? = some w ∧
    (getCtx s n c).pmemBad.contains (getCtx s n c).pc = false

/-- A write or read of the control window by initiator `secure` to the block of world `w` at `off` that acts (R15 to R19): it
reaches the window in RUN, the block's domain is on, and the block is not of the other world. -/
def Reaches (s : State) (secure w : Bool) (off : Nat) : Prop :=
  ctlReach s secure = true ∧ s.power.st = .run ∧ blockOn s off = true ∧ (w = true → secure = true)

/-- Bytes of the module's own memory that a unit reads as they stand (R167, R180, R552): no firewall refuses the access, no
page is poisoned or carries a generation, and no cell is damaged. -/
def Readable (s : State) (u : Nat) (sc : Bool) (a n : Nat) : Prop :=
  (access s u sc false a n).2 = .ok ∧ spaceOf a ≠ .host ∧ poisoned s a n = false ∧ cellBad s a n = false ∧
    ∀ p ∈ pagesOf a n, tagOf s p = 0

/-- Bytes of the module's own memory that a unit stores for dated work as they are (R169, R552). -/
def Writable (s : State) (u : Nat) (sc : Bool) (a n : Nat) : Prop :=
  (access s u sc true a n).2 = .ok ∧ spaceOf a ≠ .host

/-- A command box that takes a command at once (R605 to R608, R657): the function is reached in RUN, no command runs in the
box, and nothing turns the OP away. -/
def Accepts (s : State) (secure : Bool) (op : Nat) : Prop :=
  fnReach s (b2n secure) = true ∧ s.power.st = .run ∧ bit 31 (getN s (boxAt (b2n secure) + 4)) = false ∧
    boxGate s (b2n secure) op = none

/-- The state in which a command of box `b` does its work (R605): its arguments stand in ARG, REJ is clear and BUSY set. -/
def boxed (s : State) (b : Nat) (args : List Reg) : State :=
  let s := args.zipIdx.foldl (fun s p => setR s (boxAt b + 0x10 + 4 * p.2) p.1) s
  setField (setField s (boxAt b + 4) 30 30 0) (boxAt b + 4) 31 31 1

/-- The machine with core `c` as `k`. -/
def withCore (s : State) (c : Nat) (k : TCore) : State := setTc s c { getTc s c with core := k }

/-- R407, R444: a unit's core as its instruction `w` issues: the token the instruction needs has been granted, or is taken
from the queue now; none while that queue is empty. -/
def tcToken (k : TCore) (x : Bool) (w : BitVec 128) : Option TCore :=
  if needsToken w x = true ∧ (k.unit x).granted = false then
    (popToken k x).map fun k' => k'.setUnit x { k.unit x with granted := true }
  else some k

/-- R435, R442, R443: unit `x` of core `c` has come to an instruction `w` with opcode `op` of the task `t` of entry `e`: the
task runs on the core and has not ended there, the front end has delivered the instruction, and there is room for its token. -/
def TcComes (s : State) (c : Nat) (x : Bool) (op e : Nat) (t : Task) (w : BitVec 128) : Prop :=
  let k := (getTc s c).core
  tcTask s c = some (e, t) ∧ k.prog[(k.unit x).pc]? = some w ∧ wOp w = op ∧ k.ended = false ∧ tcDelivered k x = true ∧
    (pushesToken w x = true → tokenRoom k x = true)

/-- R442, R407: the instruction that a unit has come to issues: its encoding is sound and its token is there; `k` is the core
as the instruction issues. -/
def TcIssues (s : State) (c : Nat) (x : Bool) (op e : Nat) (t : Task) (k : TCore) (w : BitVec 128) : Prop :=
  TcComes s c x op e t w ∧ encOk w = true ∧ tcToken (getTc s c).core x w = some k

end Sys2Proof.Machine
end

