-- ==== Sys2Proof/Certificates/Slice0/Obligations.lean ====
section
/-!
DEFINITION. The statements about the block: the queue of commands and the clock, then every family of commands in the order of the
opcode table's chapters.
-/
open Sys2Proof Sys2Proof.Machine

/-- Log entry 1 and the block's interface: a step takes the command at the front of the queue and runs it on the state that holds
the queue's rest. -/
def Obligations.StepRunsFrontCommand : Prop :=
  ∀ (c : Instr) (rest : List Instr) (s : State),
    step { s with pending := c :: rest } = exec c { s with pending := rest }

/-- R105: no squash packet waits for its place on a HOST queue. -/
def Sys2Proof.Machine.NoSquashWaits (s : State) : Prop := ∀ n < 20, (getSlot s n (getSeq s n).nextOut).notice = none

/-- R216: the next cell allocated from the free lists is sound. -/
def Sys2Proof.Machine.CellsSound (s : State) : Prop := s.pool.linkBad = false ∧ s.pool.ownerBad = false

/-- R568, R653, with log entry 1 (the model's choice: with no command waiting, a step is one cycle of the clock): module time stands
still in OFF and before step 2 of a boot; otherwise it advances by 40 ns and ADJ · 2⁻³² ns, or in SOLSTICE by PWR_SLTRIM · 2⁻¹⁶
ns; and where no squash packet, unit to be powered off, field event or DOZE waits for a clock, nothing else changes but the
counters of clocks and the checker's note of who waits for it. -/
def Obligations.EmptyQueueStepIsOneCycle : Prop :=
  ∀ (s : State), s.pending = [] →
    (s.power.st = .off ∨ s.power.bootStep < 2 → step s = .next s) ∧
    (s.power.st ≠ .off → 2 ≤ s.power.bootStep → ∃ t, step s = .next t ∧ t.pending = [] ∧
      (NoSquashWaits s → (∀ b ∈ s.boxes, b.2.op ≠ 0x305) → s.fld.held = [] →
        s.power.dozePend = false → t = { s with time := t.time, regs := t.regs, chk := t.chk }) ∧
      (s.power.st ≠ .solstice → ((t.time.ns * 2 ^ 32 + t.time.frac : Nat) : Int) =
        ((s.time.ns * 2 ^ 32 + s.time.frac + 40 * 2 ^ 32 : Nat) + (getR s (hifBase + 0x208)).toInt) % 2 ^ 96) ∧
      (s.power.st = .solstice → t.time.ns * 2 ^ 32 + t.time.frac =
        (s.time.ns * 2 ^ 32 + s.time.frac + getN s (pwrBase + 0x4C) * 2 ^ 16) % 2 ^ 96))

/-- Every command is taken: in every state a command answers a next state. -/
def Obligations.NothingStops : Prop := ∀ (c : Instr) (s : State), ∃ t, exec c s = .next t

/-- The form of memory holds at reset. -/
def Obligations.ResetInvariant : Prop := Inv State.reset

/-- The form of memory is an invariant of every step: from every state whose memory lists rising addresses, none with the byte that an
unlisted address reads as, a step leaves such a memory. -/
def Obligations.MemoryFormInvariant : Prop := ∀ (s s' : State), Inv s → step s = .next s' → Inv s'

/-- R217, R518, R586, R619, R634, R641, R661, with log entry 49 for the instant that State.reset is (the model's choice): after a
power-on reset no command waits, memory lists nothing, no graph is loaded and no generation lives, the pool and the module run, PF0
is there and PF1 is not, and the registers hold the reset values of their tables: RESET reads power-on, the alarm thresholds, RETRY
and WAKEMIN their defaults, ADJ 0, the codec's timeouts their values, the MACs PAUSE and PHYRST, and the interrupts of the
sequencers are disabled and clear; the receive queue of field segment 0 is set up. -/
def Obligations.ResetValues : Prop :=
  let s := State.reset
  s.pending = [] ∧ s.mem = [] ∧ s.graphs = [] ∧ s.gens = [] ∧ s.sched.tasks = [] ∧ s.pool.st = .run ∧ s.power.st = .run ∧
    fnPresent s 0 = true ∧ fnPresent s 1 = false ∧
    getR s (pwrBase + 0x48) = 1 ∧ getR s (pwrBase + 0x4C) = 2000000000 ∧ getR s (hifBase + 0x208) = 0 ∧
    getR s (fldBase + 0x40) = 0x02BC00C8 ∧ getR s (fldBase + 0x44) = 0x001407D0 ∧ getR s (fldBase + 0xA0) = 1000 ∧
    getR s (fldBase + 0x18) = 0x07D00000 ∧ getR s (cdcBase + 0x4) = 5000 ∧ getR s (cdcBase + 0xC) = 100 ∧
    getR s (hifBase) = 0x0100 ∧ getR s (macBase 0) = 0x30000000 ∧ flag s (fnPage 0 + 12) 0 = true ∧
    (∀ n < 20, getR s (seqBase n + 0x14) = 0 ∧ getR s (seqBase n + 0x18) = 0) ∧
    (getQ s 3968).cfg.valid = true ∧ (getQ s 3968).cfg.depth = 512 ∧ (getQ s 3968).cfg.maxpkt = 24 ∧ (getQ s 0).cfg.valid = false

/-- R98: what a result of FN must be, on the unsigned and the signed reading of its operands. -/
def Sys2Proof.Machine.aluSpec (fn : AluFn) (a b v : Reg) : Prop :=
  let k := b.toNat % 32
  match fn with
  | .add => v.toNat = (a.toNat + b.toNat) % 2 ^ 32
  | .sub => v.toNat = (a.toNat + 2 ^ 32 - b.toNat) % 2 ^ 32
  | .and => ∀ j, v.getLsbD j = (a.getLsbD j && b.getLsbD j)
  | .or => ∀ j, v.getLsbD j = (a.getLsbD j || b.getLsbD j)
  | .xor => ∀ j, v.getLsbD j = (a.getLsbD j != b.getLsbD j)
  | .shl => v.toNat = a.toNat * 2 ^ k % 2 ^ 32
  | .shr => v.toNat = a.toNat / 2 ^ k
  | .sra => v.toInt = a.toInt / 2 ^ k
  | .min => v.toInt = min a.toInt b.toInt
  | .max => v.toInt = max a.toInt b.toInt
  | .minu => v.toNat = min a.toNat b.toNat
  | .maxu => v.toNat = max a.toNat b.toNat

/-- R97 to R101: the register and branch instructions of a context that issues their word. Each is counted and moves the program
counter; `ALU` writes its result, as `aluSpec` says, and the merged tag; a taken branch and a jump inside the program write
the program counter alone; `HALT` squashes the context's slots, drains its graph and raises HALT. -/
def Obligations.SeqPlainInstructions : Prop :=
  ∀ (s : State) (n : Fin 20) (c : Fin 2) (g : Graph),
    let x := getCtx s n c
    let s1 := inc s (seqBase n + 0x20)
    (Issues s n c g wordNop → exec (.nop n c) s = .next (setCtx s1 n c { x with pc := x.pc + 1, rst := .run, wait := none })) ∧
    (∀ (fn : AluFn) (gd ga : Fin 32) (b : RegImm 32), Issues s n c g (wordAlu fn gd ga b) → ∃ v : Reg,
      let m := mergeGen s1 (getG x ga).2 (operand x b).2
      aluSpec fn (getG x ga).1 (operand x b).1 v ∧
      exec (.alu n c fn gd ga b) s
        = .next (setCtx m.1 n c { setG x gd v m.2 with pc := x.pc + 1, rst := .run, wait := none })) ∧
    (∀ (k : SSel) (cond : BrCond) (ga : Fin 32) (b : RegImm 16) (target : Fin 2048),
      Issues s n c g (wordBr k cond ga b target) → x.cs.isSome ∨ (cond ≠ .sq ∧ cond ≠ .nsq) →
      exec (.br n c k cond ga b target) s = .next (
        if brHolds s1 n x cond k (getG x ga).1 (operand x b).1 then setCtx s1 n c { x with pc := target }
        else setCtx s1 n c { x with pc := x.pc + 1, rst := .run, wait := none })) ∧
    (∀ ga : Fin 32, Issues s n c g (wordJr ga) → (getG x ga).1.toNat < g.pl.prog.length → (getG x ga).1.toNat < 2048 →
      exec (.jr n c ga) s = .next (setCtx s1 n c { x with pc := (getG x ga).1.toNat })) ∧
    (∀ code : Fin 65536, Issues s n c g (wordHalt code) → exec (.halt n c code) s = .next (raise (drainGraph (stopSlots
      (setCtx s1 n c { x with rst := .halted, haltCode := code, wait := none }) n c 0) n c) (seqBase n + 0x14) 0))

/-- R102, R159: the state `t` in which the next slot of context `c`'s frames is EVE under the lowest-numbered FREE generation
`gen`, gd and gf hold the frame counter and the frame word with `gen` as tag, and CS names the slot; nothing else is changed
but the registers that count the issue. -/
def Sys2Proof.Machine.TakesSlot (s t : State) (n c : Nat) (gd gf : Fin 32) (gen : Nat) : Prop :=
  let q := getSeq s n
  let i := q.nextEve
  let y := { getSlot s n i with st := .eve, gen := gen, sq := false }
  t = { s with regs := t.regs, seqs := t.seqs, gens := t.gens, genOrder := s.genOrder + 1, ctxs := t.ctxs } ∧
  getSlot t n i = y ∧ (∀ m j, (m, j) ≠ (n, i) → getSlot t m j = getSlot s m j) ∧
  (getSeq t n).nextEve = (i + 1) % 4 ∧
  getGen t gen = { st := .live, order := s.genOrder, deps := [], seq := n, ctx := c, slot := i } ∧
  (∀ h, h ≠ gen → getGen t h = getGen s h) ∧
  (getCtx t n c).cs = some i ∧ (getCtx t n c).pc = (getCtx s n c).pc + 1 ∧ (getCtx t n c).rst = .run ∧
  (getCtx t n c).wait = none ∧
  (gf ≠ 0 → getG (getCtx t n c) gf = (frameWord s n y, gen)) ∧
  (gd ≠ 0 → gd ≠ gf → getG (getCtx t n c) gd = (reg y.frame, gen)) ∧
  (∀ m d, 2 * m + d ≠ 2 * n + c → getCtx t m d = getCtx s m d)

/-- R102, R105, R159, R160: the next slot is OPEN and the context's, the EVE limit of its graph is not reached, no earlier
expiry dooms the frame, and `gen` is the lowest-numbered FREE generation. -/
def Sys2Proof.Machine.SlotDue (s : State) (n c : Nat) (g : Graph) (gen : Nat) : Prop :=
  let x := getSlot s n (getSeq s n).nextEve
  g.utility = false ∧ eveCount s n < g.hdr.eveslots ∧ x.st = .open_ ∧ x.ctx = c ∧ x.doom = none ∧
  1 ≤ gen ∧ gen ≤ 254 ∧ (getGen s gen).st = .free ∧ ∀ h, 1 ≤ h → h < gen → (getGen s h).st ≠ .free

/-- R102, R159, R160: `EPOCH` of a context that issues takes the next slot when it is due, and otherwise waits with nothing
but its issue counted; the release of a waiting `EPOCH` takes the slot once it is due. -/
def Sys2Proof.Machine.seqEpochTakesSlotClaim : Prop :=
  ∀ (s : State) (n : Fin 20) (c : Fin 2) (g : Graph) (gd gf : Fin 32) (gen : Nat), SlotDue s n c g gen →
    (Issues s n c g (wordEpoch gd gf) → ∃ t, exec (.epoch n c gd gf) s = .next t ∧ TakesSlot s t n c gd gf gen ∧
      ∀ a, getR t a = if a = seqBase n + 0x20 then getR s a + 1 else getR s a) ∧
    (getGraph s n c = some g → (getCtx s n c).wait = some (.epoch gd gf) →
      ∃ t, exec (.epochRelease n c) s = .next t ∧ TakesSlot s t n c gd gf gen ∧ t.regs = s.regs)

/-- R95: an instruction on a slot that is neither the context's EVE slot nor squashed raises SEQ_SLOT; on a squashed one it
is a ghost: counted, with nothing done. -/
def Sys2Proof.Machine.seqSlotSelectionClaim : Prop :=
  ∀ (s : State) (n : Fin 20) (c : Fin 2) (g : Graph) (k : SSel),
    let x := getCtx s n c
    let s1 := inc s (seqBase n + 0x20)
    let is (w : Word) := Issues s n c g w
    let ghost := setCtx (inc s1 (seqBase n + 0x2C)) n c { x with pc := x.pc + 1, rst := .run, wait := none }
    let bad := seqFault s1 n c 3
    (selSlot s n c k = .ghost →
      (∀ src (ruleset : Fin 65536), is (wordDate k src ruleset) → exec (.date n c k src ruleset) s = .next ghost) ∧
      (∀ (ga : Fin 32) (reason : Fin 65536), is (wordSquash k ga reason) → exec (.squash n c k ga reason) s = .next ghost) ∧
      (∀ (tgt : Fin 1024) (cflag : Fin 256) set (pbidx : Fin 1048576), is (wordKick k tgt cflag set pbidx) →
        exec (.kick n c k tgt cflag set pbidx) s = .next ghost) ∧
      (∀ (ga : Fin 32) (woff : Fin 16777216), is (wordPset k ga woff) → exec (.pset n c k ga woff) s = .next ghost) ∧
      (∀ cmp b (f : Fin 256), is (wordWaitf k cmp b f) → exec (.waitf n c k cmp b f) s = .next ghost) ∧
      (∀ rd (gd : Fin 32) b (f : Fin 256), is (wordFlag false k (rd.map Fin.val) gd b f) →
        exec (.setf n c k rd b f) s = .next ghost) ∧
      (∀ rd (gd : Fin 32) b (f : Fin 256), is (wordFlag true k (rd.map Fin.val) gd b f) →
        exec (.addf n c k rd b f) s = .next ghost) ∧
      (∀ kind, is (wordBarrier k kind) → exec (.barrier n c k kind) s = .next ghost) ∧
      (∀ last (ga : Fin 32) (qid : Fin 65536), is (wordEnq k last ga qid) →
        exec (.enq n c k last ga qid) s = .next ghost)) ∧
    (selSlot s n c k = .bad →
      (∀ src (ruleset : Fin 65536), is (wordDate k src ruleset) → exec (.date n c k src ruleset) s = .next bad) ∧
      (∀ (ga : Fin 32) (reason : Fin 65536), is (wordSquash k ga reason) → exec (.squash n c k ga reason) s = .next bad) ∧
      (∀ (tgt : Fin 1024) (cflag : Fin 256) set (pbidx : Fin 1048576), is (wordKick k tgt cflag set pbidx) →
        exec (.kick n c k tgt cflag set pbidx) s = .next bad) ∧
      (∀ (ga : Fin 32) (woff : Fin 16777216), is (wordPset k ga woff) → exec (.pset n c k ga woff) s = .next bad) ∧
      (∀ cmp b (f : Fin 256), is (wordWaitf k cmp b f) → exec (.waitf n c k cmp b f) s = .next bad) ∧
      (∀ rd (gd : Fin 32) b (f : Fin 256), is (wordFlag false k (rd.map Fin.val) gd b f) →
        exec (.setf n c k rd b f) s = .next bad) ∧
      (∀ rd (gd : Fin 32) b (f : Fin 256), is (wordFlag true k (rd.map Fin.val) gd b f) →
        exec (.addf n c k rd b f) s = .next bad) ∧
      (∀ kind, is (wordBarrier k kind) → exec (.barrier n c k kind) s = .next bad) ∧
      (∀ last (ga : Fin 32) (qid : Fin 65536), is (wordEnq k last ga qid) →
        exec (.enq n c k last ga qid) s = .next bad))

/-- EPOCH takes the next slot, and slot selection decides ghost or fault: the two statements above together. -/
def Obligations.SeqSlots : Prop :=
  seqEpochTakesSlotClaim ∧ seqSlotSelectionClaim

/-- R103, R105, R106, R164: `DATE` on an EVE slot posts its dating and goes on; `SQUASH` squashes the slot's generation with
its REASON and DETAIL; a deadline that passes squashes an EVE frame with REASON 0x000B and dooms an OPEN one; the scrub makes
the entry of a dated or squashed generation FREE. -/
def Obligations.SeqDatesAndSquashes : Prop :=
  (∀ (s : State) (n : Fin 20) (c : Fin 2) (g : Graph) (k : SSel) (i : Nat), selSlot s n c k = .act i →
    (getSlot s n i).dating = none →
    let x := getCtx s n c
    let y := getSlot s n i
    let s1 := inc s (seqBase n + 0x20)
    let go (z : State) := setCtx z n c { x with pc := x.pc + 1, rst := .run, wait := none }
    (∀ (ga : Fin 32) (ruleset : Fin 65536), Issues s n c g (wordDate k (.reg ga) ruleset) →
      exec (.date n c k (.reg ga) ruleset) s = .next
      (go (setSlot (mergeGen s1 y.gen (getG x ga).2).1 n i
        { y with dating := some { ruleset := ruleset, nsrc := false, src := (getG x ga).1.toNat } }))) ∧
    (∀ (f : Fin 256) (ruleset : Fin 65536), Issues s n c g (wordDate k (.flag f) ruleset) →
      exec (.date n c k (.flag f) ruleset) s = .next
      (go (setSlot s1 n i { y with dating := some { ruleset := ruleset, nsrc := true, src := f } }))) ∧
    (∀ (ga : Fin 32) (reason : Fin 65536), Issues s n c g (wordSquash k ga reason) → exec (.squash n c k ga reason) s = .next
      (squashSlot (go (mergeGen s1 y.gen (getG x ga).2).1) n i reason ((getG x ga).1.toNat % 2 ^ 16) 0xFFFF))) ∧
  (∀ (s : State) (n : Fin 20) (idx : Fin 4) (g : Graph), getGraph s n (getSlot s n idx).ctx = some g → g.hdr.deadline ≠ 0 →
    let x := getSlot s n idx
    let late := advance s (x.ref + 1000 * g.hdr.deadline)
    (x.st = .eve → x.sq = false → x.notice = none → exec (.deadlineExpiry n idx) s = .next (squashGen late x.gen 0xB 0 0xFFFF)) ∧
    (x.st = .open_ → x.notice = none → x.doom = none →
      exec (.deadlineExpiry n idx) s = .next (setSlot late n idx { x with doom := some 0xB }))) ∧
  (∀ (s : State) (h : Fin 256), 1 ≤ h.val → h.val ≤ 254 → (getGen s h).st = .dated ∨ (getGen s h).st = .squashed →
    ∃ t, exec (.scrubComplete h) s = .next t ∧ t = { s with gens := t.gens, seqs := t.seqs } ∧ getGen t h = {} ∧
      (∀ j, j ≠ h.val → getGen t j = getGen s j) ∧
      ∀ m j, getSlot t m j = (if m = (getGen s h).seq ∧ j = (getGen s h).slot ∧ (getSlot s m j).gen = h then
        { getSlot s m j with gen := 0 } else getSlot s m j))

/-- R107 to R112: `WIN` sets the pending window; `KICK` makes a ready task of its slot with the fields of R225 and takes the
pending window; `PSET` stores the register into the word of the slot's block copy, tags it with the register's generation, and
goes on. -/
def Obligations.SeqKicks : Prop :=
  (∀ (s : State) (n : Fin 20) (c : Fin 2) (g : Graph) (stage : Fin 256) (wmin wmax : Fin 65536), Issues s n c g (wordWin stage wmin wmax) →
    (getCtx s n c).win = none → wmax ≠ 0 → wmin ≤ wmax →
    exec (.win n c stage wmin wmax) s = .next (setCtx (inc s (seqBase n + 0x20)) n c
      { getCtx s n c with win := some (stage, wmin, wmax), pc := (getCtx s n c).pc + 1, rst := .run, wait := none })) ∧
  (∀ (s : State) (n : Fin 20) (c : Fin 2) (g : Graph) (k : SSel) (i e : Nat) (tgt : Fin 1024) (cflag : Fin 256) (set : Bool)
    (pbidx : Fin 1048576), Issues s n c g (wordKick k tgt cflag set pbidx) → selSlot s n c k = .act i → freeEntry s n = some e → s.power.dozePend = false →
    (g.safety = true → (getCtx s n c).win.isSome) → ((getCtx s n c).win.isSome → openWindows s n < 12) →
    ∃ t p, exec (.kick n c k tgt cflag set pbidx) s = .next t ∧
      t = { s with regs := t.regs, sched := t.sched, ctxs := t.ctxs } ∧ getTask t e = some p ∧
      p.st = .ready ∧ p.ready = now s ∧ p.src = n ∧ p.ctx = c ∧ p.slot = i ∧ p.frame = (getSlot s n i).frame ∧
      p.tstamp = (getSlot s n i).tstamp ∧ p.stream = (getSlot s n i).stream ∧ p.gen = (getSlot s n i).gen ∧
      p.ttype = tgt / 64 ∧ p.inst = tgt % 64 ∧ p.cmode = set ∧ p.cflag = g.pl.flagBase + i * g.hdr.nflag + cflag ∧
      p.pblk = g.pl.params + i * (64 * ((g.pl.paramLen + 63) / 64)) + 64 * pbidx ∧ p.prio = g.hdr.prio ∧
      p.win = (getCtx s n c).win ∧ p.first = none ∧ p.units = [] ∧
      (∀ j, j ≠ e → getTask t j = getTask s j) ∧
      getCtx t n c = { getCtx s n c with win := none, pc := (getCtx s n c).pc + 1, rst := .run, wait := none }) ∧
  (∀ (s : State) (n : Fin 20) (c : Fin 2) (g : Graph) (k : SSel) (i : Nat) (ga : Fin 32) (woff : Fin 16777216),
    Issues s n c g (wordPset k ga woff) → selSlot s n c k = .act i →
    let a := g.pl.params + i * (64 * cdiv g.pl.paramLen 64) + 4 * woff
    let v := getG (getCtx s n c) ga
    (∀ t ∈ s.sched.tasks.map Prod.snd ++ s.sched.posted, t.src = n → t.ctx = c → t.slot = i → t.first = none →
      t.served = none → t.parent = none → ¬ (t.pblk ≤ a ∧ a < t.pblk + blockLen s t)) →
    ∃ t, exec (.pset n c k ga woff) s = .next t ∧
      t = { s with regs := t.regs, mem := (poke s a (leBytes 4 v.1.toNat)).mem, ptags := t.ptags, ctxs := t.ctxs } ∧
      t.ptags = (if v.2 = 0 then kvDel s.ptags a else kvPut s.ptags a v.2) ∧
      getCtx t n c = { getCtx s n c with pc := (getCtx s n c).pc + 1, rst := .run, wait := none })

/-- R116: when a flag VALUE `v` satisfies CMP against an operand `b`. -/
def Sys2Proof.Machine.CmpHolds (cmp : FlagCmp) (v b : Reg) : Prop :=
  match cmp with
  | .geu => b.toNat ≤ v.toNat
  | .eq => v = b
  | .mask => ∀ j, b.getLsbD j → v.getLsbD j

/-- R116 to R118: a `WAITF` whose condition holds goes on, another waits, and its release lets it go on once the condition
holds; `SETF` and `ADDF` on a flag word of the slot, not dead, whose owner is not earlier than the slot's generation write or
add to VALUE and answer the old VALUE in gd; a `BARRIER` waits while stages it covers are not over, and is released after. -/
def Obligations.SeqFlags : Prop :=
  ∀ (s : State) (n : Fin 20) (c : Fin 2) (g : Graph), getGraph s n c = some g →
    let x := getCtx s n c
    let s1 := inc s (seqBase n + 0x20)
    let go (z : State) (y : Ctx) := setCtx z n c { y with pc := y.pc + 1, rst := .run, wait := none }
    (∀ (k : SSel) (i : Nat) (cmp : FlagCmp) (b : RegImm 32) (f : Fin 256), Issues s n c g (wordWaitf k cmp b f) → selSlot s n c k = .act i →
      let v := (getFlag s (flagAddr g i f)).value
      (CmpHolds cmp v (operand x b).1 → exec (.waitf n c k cmp b f) s = .next (go s1 x)) ∧
      (¬ CmpHolds cmp v (operand x b).1 → exec (.waitf n c k cmp b f) s
        = .next (setCtx s1 n c { x with rst := .wait, wait := some (.flag i f (FlagCmp.code cmp) (operand x b).1) }))) ∧
    (∀ (i f : Nat) (cmp : FlagCmp) (b : Reg), x.wait = some (.flag i f (FlagCmp.code cmp) b) →
      CmpHolds cmp (getFlag s (flagAddr g i f)).value b → exec (.waitfRelease n c) s = .next (go s x)) ∧
    (∀ (k : SSel) (i : Nat) (rd : Fin 32) (v : BitVec 32) (f : Fin 256), selSlot s n c k = .act i →
      let y := getSlot s n i
      let w := flagAddr g i f
      let o := getFlag s w
      o.slot = i → o.frame = y.frame % 2 ^ 16 → o.dead = false → eff s y.gen = y.gen → y.gen ≠ 0 →
      flagOwner s n o = y.gen →
      let holds (t : State) (val : Reg) : Prop :=
        t = { s with regs := s1.regs, flags := t.flags, ctxs := t.ctxs } ∧ getFlag t w = { o with value := val, gen := y.gen } ∧
        (∀ z, z ≠ w → getFlag t z = getFlag s z) ∧ (rd ≠ 0 → (getG (getCtx t n c) rd).1 = o.value) ∧
        (getCtx t n c).pc = x.pc + 1
      (Issues s n c g (wordFlag false k (some rd.val) rd (.imm v) f) →
        ∃ t, exec (.setf n c k (some rd) (.imm v) f) s = .next t ∧ holds t v) ∧
      (Issues s n c g (wordFlag true k (some rd.val) rd (.imm v) f) →
        ∃ t, exec (.addf n c k (some rd) (.imm v) f) s = .next t ∧ holds t (o.value + v))) ∧
    (∀ (k : SSel) (i : Nat), Issues s n c g (wordBarrier k .vis) → selSlot s n c k = .act i →
      exec (.barrier n c k .vis) s = .next (go s1 x)) ∧
    (∀ (k : SSel) (i : Nat), Issues s n c g (wordBarrier k .done) → selSlot s n c k = .act i →
      exec (.barrier n c k .done) s = .next (if stagesOpen s n c (some i) then
        setCtx s1 n c { x with rst := .wait, wait := some (.barrier i 1) } else go s1 x)) ∧
    (∀ i, x.wait = some (.barrier i 1) → stagesOpen s n c (some i) = false →
      exec (.barrierRelease n c) s = .next (go s x))

/-- R119 to R121, R193: `ENQ` of an inside-bound queue adds its word, made of ga and ga + 1 with the merged generation and the
sequencer's world, and goes on when it is taken; an eve word for an outside-bound queue is held in the slot. `DEQ` of a word
writes gd and gd + 1 with the word's generation, END from the packet and HOL 0; on an empty queue a `DEQ` without waiting
delivers the holiday item with HOL 1, one with waiting waits, and its release takes the word that has come. -/
def Obligations.SeqQueues : Prop :=
  (∀ (s : State) (n : Fin 20) (c : Fin 2) (g : Graph) (k : SSel) (i : Nat) (last : Bool) (ga : Fin 32) (qid : Fin 65536),
    Issues s n c g (wordEnq k last ga qid) → selSlot s n c k = .act i →
    let x := getCtx s n c
    let s1 := inc s (seqBase n + 0x20)
    let lo := getG x ga
    let hi := getG x ((ga + 1) % 32)
    let m := mergeAll s1 (getSlot s n i).gen [lo.2, hi.2]
    let w : QWord := { data := hi.1 ++ lo.1, gen := m.2, world := unitWorld m.1 (176 + n) }
    let go (z : State) := setCtx z n c { x with pc := x.pc + 1, rst := .run, wait := none }
    ((getQ s qid).cfg.out = false → (enqWord m.1 qid (176 + n) w last).2 ≠ .waits →
      exec (.enq n c k last ga qid) s = .next (go (enqWord m.1 qid (176 + n) w last).1)) ∧
    ((getQ s qid).cfg.out = true → eff m.1 m.2 ≠ 0 → (getSlot m.1 n i).held.length < 16 →
      exec (.enq n c k last ga qid) s = .next (go (setSlot m.1 n i
        { getSlot m.1 n i with held := (getSlot m.1 n i).held ++ [⟨qid, w, last⟩] })))) ∧
  (∀ (s : State) (n : Fin 20) (c : Fin 2) (g : Graph) (gd : Fin 32) (qid : Fin 65536),
    let x := getCtx s n c
    let s1 := inc s (seqBase n + 0x20)
    let d := deqWord s1 qid (176 + n) (seqRecv (getQ s qid) n)
    (∀ blk w last leap, Issues s n c g (wordDeq blk gd qid) → d.2 = .word w last leap → ∃ t, exec (.deq n c blk gd qid) s = .next t ∧
      t = { d.1 with ctxs := t.ctxs } ∧
      ((gd.val + 1) % 32 ≠ 0 →
        getG (getCtx t n c) ((gd + 1) % 32) = (w.data.extractLsb' 32 32, eff d.1 w.gen)) ∧
      (gd ≠ 0 → getG (getCtx t n c) gd = (w.data.extractLsb' 0 32, eff d.1 w.gen)) ∧
      (getCtx t n c).end_ = last ∧ (getCtx t n c).hol = false ∧ (getCtx t n c).pc = x.pc + 1) ∧
    (Issues s n c g (wordDeq false gd qid) → d.2 = .holiday → ∃ t, exec (.deq n c false gd qid) s = .next t ∧ t = { d.1 with ctxs := t.ctxs } ∧
      (gd ≠ 0 → getG (getCtx t n c) gd = (reg qid, 0)) ∧ (getCtx t n c).hol = true ∧ (getCtx t n c).end_ = false ∧
      (getCtx t n c).pc = x.pc + 1) ∧
    (Issues s n c g (wordDeq true gd qid) → d.2 = .holiday → exec (.deq n c true gd qid) s = .next (setCtx d.1 n c
      { x with rst := .wait, wait := some (.deq gd qid (seqRecv (getQ s qid) n)) }))) ∧
  (∀ (s : State) (n : Fin 20) (c : Fin 2) (gd qid r : Nat) (w : QWord) (last leap : Bool),
    (getCtx s n c).wait = some (.deq gd qid r) → (deqWord s qid (176 + n) r).2 = .word w last leap →
    ∃ t, exec (.deqRelease n c) s = .next t ∧ t = { (deqWord s qid (176 + n) r).1 with ctxs := t.ctxs } ∧
      (getCtx t n c).end_ = last ∧ (getCtx t n c).hol = false ∧ (getCtx t n c).pc = (getCtx s n c).pc + 1 ∧
      (getCtx t n c).rst = .run)

/-- R122, R123: `TARM` arms its timer with a first expiry INTERVAL µs after module time; `TWAIT` clears an uncleared expiry and
goes on, waits for an armed timer, and raises SEQ_TIMER for one neither armed nor expired; an expiry re-arms a periodic timer
from its nominal instant, releases the `TWAIT` that waits for it, and otherwise stays uncleared; `TRD` of module time reads
the low word and latches the high one, which SEL 1 reads, and SEL 2 to 5 read the selected slot with its generation. -/
def Obligations.SeqTimers : Prop :=
  ∀ (s : State) (n : Fin 20) (c : Fin 2) (g : Graph) (tmr : Fin 4),
    let x := getCtx s n c
    let s1 := inc s (seqBase n + 0x20)
    let go (z : State) (y : Ctx) := setCtx z n c { y with pc := y.pc + 1, rst := .run, wait := none }
    let tm : Timer := kvGet (fun _ => {}) x.timers tmr
    (∀ (per : Bool) (interval : Fin 16777216), Issues s n c g (wordTarm tmr per interval) → exec (.tarm n c tmr per interval) s = .next (go s1
      { x with timers := kvPut x.timers tmr ⟨interval, per, now s + 1000 * interval, true, false⟩ })) ∧
    (Issues s n c g (wordTwait tmr) → tm.expired = true →
      exec (.twait n c tmr) s = .next (go s1 { x with timers := kvPut x.timers tmr { tm with expired := false } })) ∧
    (Issues s n c g (wordTwait tmr) → tm.expired = false → tm.armed = true →
      exec (.twait n c tmr) s = .next (setCtx s1 n c { x with rst := .wait, wait := some (.timer tmr) })) ∧
    (Issues s n c g (wordTwait tmr) → tm.expired = false → tm.armed = false → exec (.twait n c tmr) s = .next (seqFault s1 n c 0xB)) ∧
    (tm.armed = true → x.wait = some (.timer tmr) → ∃ t, exec (.timerExpiry n c tmr) s = .next t ∧
      t = { s with time := t.time, ctxs := t.ctxs, regs := t.regs, chk := t.chk } ∧
      (timeRuns s = true → now t = max (now s) tm.at_) ∧
      (getCtx t n c).pc = x.pc + 1 ∧ (getCtx t n c).rst = .run ∧ (getCtx t n c).wait = none ∧
      kvGet (fun _ => {}) (getCtx t n c).timers tmr
        = { tm with expired := false, armed := tm.per, at_ := tm.at_ + (if tm.per then 1000 * tm.interval else 0) }) ∧
    (tm.armed = true → x.wait = none → tm.expired = false → ∃ t, exec (.timerExpiry n c tmr) s = .next t ∧
      t = { s with time := t.time, ctxs := t.ctxs, regs := t.regs, chk := t.chk } ∧ (getCtx t n c).pc = x.pc ∧ (getCtx t n c).rst = x.rst ∧
      (kvGet (fun _ => {}) (getCtx t n c).timers tmr).expired = true) ∧
    (∀ (k : SSel) (gd : Fin 32),
      let is (sel : Nat) := Issues s n c g (wordTrd k gd sel)
      (is 0 → exec (.trd n c k gd 0) s = .next (go s1 { setG x gd (reg (now s)) 0 with latch := reg (now s / 2 ^ 32) })) ∧
      (is 1 → exec (.trd n c k gd 1) s = .next (go s1 (setG x gd x.latch 0))) ∧
      ∀ i, selSlot s n c k = .act i →
        let y := getSlot s n i
        (is 2 → exec (.trd n c k gd 2) s = .next (go s1 (setG x gd (reg y.tstamp) y.gen))) ∧
        (is 3 → exec (.trd n c k gd 3) s = .next (go s1 (setG x gd (reg (y.tstamp / 2 ^ 32)) y.gen))) ∧
        (is 4 → exec (.trd n c k gd 4) s = .next (go s1 (setG x gd (frameWord s n y) y.gen))) ∧
        (is 5 → exec (.trd n c k gd 5) s = .next (go s1 (setG x gd (reg y.frame) y.gen))))

/-- R107, R110, R224, R235, R239: a stage of a vision engine that stands on its unit with current epochs is accepted: it runs
from now on with its parameter block as read; a served stage turns its receiver's notices into tasks; a pinned `KICK` with a
stale epoch goes back to its list with the unit's epoch re-read, and so does a dispatch; a `PSET` that waits is left for the
statement about `PSET`. -/
def Obligations.TaskAcceptance : Prop :=
  ∀ (s : State) (e : Fin 10752) (k : Task), getTask s e = some k →
    (k.st = .placed → k.ttype ≤ 4 → staleKick s k = false → staleUnit s k = none → k.parent = none → s.ptags = [] →
      (getCtx s k.src k.ctx).wait = none → (∀ u ∈ k.units, 132 ≤ u) →
      ∃ t, exec (.kickAccept e) s = .next t ∧
        t = { s with regs := t.regs, gens := t.gens, sched := { s.sched with tasks := t.sched.tasks } } ∧
        getTask t e = some { k with st := .running, first := some (now s), since := now s, dataGen := k.gen,
                                    block := peek s k.pblk (blockLen s k) } ∧
        (∀ u, 132 ≤ u → u < 160 → k.units = [u] → flag t (engBase u + 0x30) 31 = false) ∧
        getR t (htsBase + 0x24) = getR s (htsBase + 0x24) + 1 ∧ ∀ j, j ≠ e.val → getTask t j = getTask s j) ∧
    (k.st = .ready → isServeStage s k = true → blkOrdered s k.pblk = false → s.ptags = [] →
      (getCtx s k.src k.ctx).wait = none →
      let q := blkQueue s k.pblk
      let r := blkRecv s k.pblk
      r < (getQ s q).recvs.length →
      ∃ t, exec (.kickAccept e) s = .next t ∧
        t = { s with gens := t.gens, queues := t.queues, sched := { s.sched with tasks := t.sched.tasks } } ∧
        getTask t e = some { k with
          st := .running, dataGen := k.gen, flow := none, block := peek s k.pblk (blockLen s k),
          served := some ⟨q, r, blkPcount s k.pblk, 0, 0⟩, threads := blkThreads s k.pblk } ∧
        (let x : Receiver := { nth {} (getQ s q).recvs r with kind := 2, target := k.ttype }
         getQ t q = { getQ s q with recvs := (getQ s q).recvs.set r x })) ∧
    (k.st = .placed → staleKick s k = true →
      let u := unitOfType k.ttype k.inst
      ((getUnit s u).mstate = .enabled → ∃ t, exec (.kickRejectStaleEpoch e) s = .next t ∧
        t = { s with regs := t.regs, sched := t.sched } ∧ seqEpoch t k.src u = (getUnit s u).epoch ∧
        getTask t e = some { k with st := .ready, units := [], uepoch := (getUnit s u).epoch } ∧
        getR t (seqBase k.src + 0x30) = getR s (seqBase k.src + 0x30) + 1) ∧
      ((getUnit s u).mstate ≠ .enabled → ∃ t, exec (.kickRejectStaleEpoch e) s = .next (squashSlot t k.src k.slot 9 0 u) ∧
        t = { s with regs := t.regs, sched := t.sched })) ∧
    (∀ u, k.st = .placed → staleUnit s k = some u → noUnitLeft s k = none →
      ∃ t, exec (.dispatchRejectStaleEpoch e) s = .next t ∧ htsEpoch t u = (getUnit s u).epoch ∧
        getTask t e = some { k with st := .ready, units := [] })

/-- R230, R236, R238, R239, R248: the first eligible task of a pool is placed on the units that fit it; where none fits, it
takes the units of the tasks that it outranks, which go back to their lists; a packet that waits on a served stage makes one
more of its tasks ready. -/
def Sys2Proof.Machine.taskPlacementClaim : Prop :=
  (∀ (s : State) (p : PoolId) (e : Nat) (k : Task) (us : List Nat), firstEligible s p = some (e, k) → k.first = none →
    placeOn s k = some us → ∃ t, exec (.taskDispatch p) s = .next t ∧
      t = { s with sched := { s.sched with tasks := t.sched.tasks } } ∧
      getTask t e = some { k with st := .placed, units := us } ∧ ∀ j, j ≠ e → getTask t j = getTask s j) ∧
  (∀ (s : State) (e : Nat) (k v : Task) (ve : Nat) (us : List Nat) (i : Fin 64), firstEligible s .dma = some (e, k) →
    k.first = none → placeOn s k = none → preemptPlan s (canStop s) k = some (us, [(ve, v)]) → us = [64 + i.val] →
    v.units = us → v.ttype = 7 → ve ≠ e →
    ∃ t, exec (.preemption .dma) s = .next t ∧
      t = { s with regs := t.regs, queues := (mapQueues s (dropProducers us)).queues,
                   pool := { s.pool with taken := t.pool.taken }, sched := { s.sched with tasks := t.sched.tasks } } ∧
      getTask t e = some { k with st := .placed, units := us } ∧
      getTask t ve = some { v with st := .ready, units := [], readySince := now s, starved := false, saved := true } ∧
      getR t (htsBase + 0x28) = getR s (htsBase + 0x28) + 1) ∧
  (∀ (s : State) (e : Fin 10752) (k : Task) (v : Served) (f : Nat), getTask s e = some k → k.served = some v → k.flow = none →
    ((children s e).filter fun x => x.2.st != .complete).length < 16 → v.created < v.pcount →
    ((children s e).filter fun x => !x.2.taken).length < packetsFor (getQ s v.queue) (nth {} (getQ s v.queue).recvs v.recv) →
    freeEntry s k.src = some f → s.power.dozePend = false →
    ∃ t, exec (.servedTaskReady e) s = .next t ∧ t = { s with sched := t.sched } ∧
      getTask t e = some { k with served := some { v with created := v.created + 1 } } ∧
      getTask t f = some { k with st := .ready, parent := some e.val, served := none, win := none, fseq := 0, first := none, units := [], ready := now s, readySince := now s, wdog := none, order := s.sched.order, taken := false, index := v.created })

/-- R243: the oldest unreleased task of a flow that has completed is released: its entry is free, and the flow's release
number moves past it and past every later one that is done; where nothing waits for the entry, nothing else moves. -/
def Sys2Proof.Machine.flowReleaseClaim : Prop :=
  ∀ (s : State) (f : Fin 1024) (e p : Nat) (k q : Task) (v : Served),
    (s.sched.tasks.find? fun x => x.2.flow == some f.val && x.2.st == .complete && x.2.fseq == (getFlow s f).release) = some (e, k) →
    getTask s e = some k → k.units = [] → k.served = none → e ∉ s.flowWait → s.sched.posted = [] →
    (∀ c < 2, (getCtx s k.src c).wait = none) →
    k.parent = some p → p ≠ e → getTask s p = some q → q.served = some v → v.done + 1 < v.pcount → (getFlow s f).done = [] →
    ∃ t, exec (.flowRelease f) s = .next t ∧ t = { s with sched := t.sched, seqs := t.seqs } ∧ getTask t e = none ∧
      getTask t p = some { q with served := some { v with done := v.done + 1 } } ∧
      getFlow t f = { getFlow s f with release := ((getFlow s f).release + 1) % 2 ^ 16, done := [] }

/-- Dispatch, preemption, served tasks and the release of flows: the two statements above together. -/
def Obligations.TaskPlacement : Prop :=
  taskPlacementClaim ∧ flowReleaseClaim

/-- R107, R113, R165, R173, R175, R243, R244, R250, R254: what moves a running task on. -/
def Sys2Proof.Machine.taskProgressClaim : Prop :=
  ∀ (s : State) (e : Fin 10752) (k : Task), getTask s e = some k →
    (k.st = .running → k.served = none → k.worked = true → k.parent = none → k.win = none → k.lid = none →
      ∃ t, exec (.stageCompletion e) s = .next t ∧ t = freeTask (completionUpdate s k) e ∧
        (s.sched.posted = [] → (∀ c < 2, (getCtx s k.src c).wait = none) → getTask t e = none)) ∧
    (k.st = .gate → eff s k.dataGen = 0 → eff s k.gen = 0 → ∃ t, exec (.datingGateResume e) s = .next t ∧
      t = { s with regs := t.regs, sched := { s.sched with tasks := t.sched.tasks } } ∧
      getTask t e = some { k with st := .running } ∧ ∀ j, j ≠ e.val → getTask t j = getTask s j) ∧
    (∀ st wmin wmax f, k.win = some (st, wmin, wmax) → k.first = some f → k.st = .running → k.lid = none →
      k.served = none → k.parent = none →
      let s1 := advance s (f + 1000 * (wmax + 1))
      (k.worked = false → k.err = none → children s e = [] → s.chk.fences = [] → k.remainder = false →
        k.cancelled = false → k.ttype ≠ 8 → exec (.windowExpiry e) s
        = .next (freeTask (completionUpdate (markSlot (countAbort s1 k) k.src k.slot 7 st) k) e)) ∧
      (k.worked = true → wmin ≤ wmax → timeRuns s = true → exec (.windowExpiry e) s
        = .next (freeTask (completionUpdate s1 k) e))) ∧
    (k.st = .running → e.val ∈ s.flowWait → flowHeld s k = false → ∃ t, exec (.flowEnqueueHoldRelease e) s = .next t ∧
      t = { s with regs := t.regs, flowWait := t.flowWait } ∧ e.val ∉ t.flowWait ∧
      getR t (htsBase + 0x30) = getR s (htsBase + 0x30) + 1) ∧
    (k.tier = 2 → k.st = .ready → k.starved = false → getN s (htsBase + 0x18) ≠ 0 →
      exec (.starveLimit e) s = .next (raise (setTask (advance s (k.readySince + 1000 * getN s (htsBase + 0x18))) e
        { k with starved := true }) (htsBase + 0x10) 0))

/-- R225, R254: a read of the snapshot copies the 64 bytes of the descriptor that HTS_SNAP_SEL selects into the snapshot
registers, zeros where the entry is free or belongs to a secure graph and the reader does not. -/
def Sys2Proof.Machine.taskSnapshotClaim : Prop :=
  ∀ (s : State) (secure : Bool), Reaches s secure (flag s (fwlBase + 0xA0) 1) (htsBase + 0x8040) →
    ∀ bytes, bytes = (match heldDesc s (field s (htsBase + 0x8000) 13 0) with
      | some t => if secure = false ∧ t.src ≠ 0xFF ∧ unitWorld s (176 + t.src) = true then zeros 64 else taskBytes t
      | none => zeros 64) →
    ∃ t, exec (.htsSnap secure) s = .next t ∧ t = { s with regs := t.regs, out := s.out ++ [.readData (b2n secure) (bytes.take 4)] } ∧
      (∀ i, i < 16 → getR t (htsBase + 0x8040 + 4 * i) = reg (leAt bytes (4 * i) 4)) ∧
      ∀ a, a < htsBase + 0x8040 ∨ htsBase + 0x8080 ≤ a → getR t a = getR s a

/-- What moves a running task on, and the snapshot of a task: the two statements above together. -/
def Obligations.TaskProgress : Prop :=
  taskProgressClaim ∧ taskSnapshotClaim

/-- R103 steps 5 to 10, R163, R176: a frame whose verdicts are in, whose generation depends on no live one, and whose packet
and held items find space is committed: the packet is the last thing before its generation is dated and its history words
are taught, and the slot leaves for the next one. -/
def Sys2Proof.Machine.dateCommitClaim : Prop :=
  ∀ (s : State) (n : Fin 20) (i : Nat) (x : Slot) (d : Dating) (g : Graph), submitted s n = some (i, x, d, g) →
    d.framed = true → d.nrec.getD 0 ≤ d.verdicts.length → (getGen s x.gen).deps = [] → s.chk.st = 1 →
    let p := placePacket s n x g (datePacket s n i x d g)
    p.2 ≠ .waits → exec (.dateCommit n) s
      = .next (squashPackets (packetOut (applyPins (commitGen (teach p.1 n x d) x.gen)) n i) n)

/-- R523, R526, R538, R545: `LOAD` of a table that passes its checks makes it VALID with its image as read; `DROP` makes a
table invalid; a lantern descriptor word is written while its set is disabled and the block unlocked; under the lock `LOAD`
and `DROP` answer RESULT 4 and the word stays. -/
def Sys2Proof.Machine.checkerCommandsClaim : Prop :=
  ∀ (s : State) (t : Fin 256),
    (Reaches s true true (chkBase + 0x20) →
      (flag s (chkBase + 8) 0 = false → ∀ l, loadTable s (chkArg s) = .inr l → ∃ u, exec (.load true t) s = .next u ∧
        u = { s with regs := u.regs, out := u.out, chk := { s.chk with rules := kvPut s.chk.rules t l } } ∧
        l = peek s (chkArg s) l.length ∧ getN u (chkBase + 0x24) = 0 ∧
        getR u (chkBase + 0x10) = setBit 0 (getR s (chkBase + 0x10))) ∧
      (flag s (chkBase + 8) 0 = false → ∃ u, exec (.drop true t) s = .next u ∧
        u = { s with regs := u.regs, out := u.out, chk := { s.chk with rules := kvDel s.chk.rules t } } ∧
        getN u (chkBase + 0x24) = 0) ∧
      (flag s (chkBase + 8) 0 = true → ∃ u, exec (.load true t) s = .next u ∧ exec (.drop true t) s = .next u ∧
        u = { s with regs := u.regs, out := u.out } ∧ getN u (chkBase + 0x24) = 4)) ∧
    (∀ (l : Fin 128) (j : Fin 16) (v : Reg), Reaches s true true (chkBase + 0x1000 + 64 * l + 4 * j) →
      exec (.lanternSetWrite true l j v) s = .next (
        if flag s (chkBase + 8) 0 = false ∧ flag s (chkBase + 0x80 + 4 * (l / 32)) (l % 32) = false
        then setR s (chkBase + 0x1000 + 64 * l + 4 * j) v else s))

/-- The commit of a date, and the commands of the checker: the two statements above together. -/
def Obligations.DateCommit : Prop :=
  dateCommitClaim ∧ checkerCommandsClaim

/-- R103, R104, R520 to R522, R531 to R534: the units of a checker that runs, with no lockstep mismatch in them. The frame
unit of a slot fixes NREC and LEAPS and finds what withholds the frame whole: RANGE for a count above MAXREC, else the first
of the end-to-end conditions, a frozen frame, a window mark, and the rule table, of which there must be one. The record unit
judges the next record: E2E_CRC when its CRC is not the one of step 3. A unit that takes longer than 25 µs counts as a lockstep
mismatch: the first is repeated, the second makes the checker FAILED. -/
def Sys2Proof.Machine.checkerUnitsClaim : Prop :=
  ∀ (s : State) (n : Fin 20), s.chk.st = 1 → s.chk.mismatch = 0 →
    (∀ i x d g, submitted s n = some (i, x, d, g) → submissionNext s n = true → d.framed = false →
      (g.hdr.maxrec < recordCount s g i d → ∃ t, exec (.frameUnit n) s = .next t ∧ t = { s with seqs := t.seqs } ∧
        getSlot t n i = { x with dating := some { d with nrec := some 0, framed := true, leaps := (getSeq s n).leaps, frame := some (2, 0xFFFF, 0xFFFF, 0xFF00) } }) ∧
      (recordCount s g i d = 0 → s.chk.histBad = false → (s.chk.rules.find? fun p => p.1 == d.ruleset) = none →
        ∃ t f, exec (.frameUnit n) s = .next t ∧
          t = { s with regs := t.regs, out := t.out, seqs := t.seqs, chk := t.chk } ∧
          getSlot t n i = { x with dating := some { d with nrec := some 0, crcs := [], framed := true, table := none, leaps := (getSeq s n).leaps, learn := [], verdicts := [], frame := some f } } ∧
          (e2eConds s n x = [] → x.frozen = false → x.mark = none → f = (1, 0, 0xFFFF, 0x1000)) ∧
          (e2eConds s n x = [] → x.frozen = false → ∀ r dt, x.mark = some (r, dt) → f = (r, dt, 0xFFFF, 0xFF00)) ∧
          (e2eConds s n x = [] → x.frozen = true → f = (8, 0, 0xFFFF, 0xFF00)) ∧
          (∀ r dt rest, e2eConds s n x = (r, dt) :: rest → f = (r, dt, 0xFFFF, 0xFF00)))) ∧
    (∀ i x d g f, submitted s n = some (i, x, d, g) → submissionNext s n = true → d.framed = true → d.table = none →
      d.frame = none → d.verdicts.length < d.nrec.getD 0 → recordArea g = some f →
      let k := d.verdicts.length
      let a := f.addr + i * f.size + 128 * k
      Readable s 200 g.safety a 128 →
      ∃ t v, exec (.recordUnit n) s = .next t ∧
        t = { s with regs := t.regs, out := t.out, seqs := t.seqs, chk := t.chk } ∧
        getSlot t n i = { x with dating := some { d with verdicts := d.verdicts ++ [(k, v)] } } ∧
        getR t (chkBase + 0x40) = getR s (chkBase + 0x40) + 1 ∧
        (recordCrc (peek s a 128) = nth 0 d.crcs k → v = ⟨0, 0⟩) ∧
        (recordCrc (peek s a 128) ≠ nth 0 d.crcs k → v = ⟨4, 0xFF00⟩)) ∧
    ((List.range 20).any (slotWork s) = true →
      (s.chk.rerun = false → ∃ t, exec .checkerUnitTimeout s = .next t ∧
        t = { s with time := t.time, regs := t.regs, out := t.out, chk := { s.chk with subs := t.chk.subs, rerun := true } } ∧
        (timeRuns s = true → now t = now s + 25000)) ∧
      (s.chk.rerun = true → ∃ t, exec .checkerUnitTimeout s = .next t ∧
        t.chk = { s.chk with subs := t.chk.subs, st := 2, rerun := false } ∧
        t.firm.svcSinceTrial = true))

/-- R520, R540, R596: the lower-ranked units of a checker that runs while no slot waits for it: a signature unit covers at most
32,768 bytes and after the last one compares the CRC with SIG; the management request compares an audit's values and mends an
epoch that differs. -/
def Sys2Proof.Machine.checkerBackgroundClaim : Prop :=
  ∀ (s : State), s.chk.st = 1 → s.chk.mismatch = 0 → (List.range 20).any (slotWork s) = false →
    (∀ (l c : Nat) (rest : List ChkJob), s.chk.jobs = .sig l c :: rest →
      let a := lsetWord s l 6 + 2 ^ 32 * lsetWord s l 7
      let left := lsetWord s l 1 - s.chk.sigPos
      let crc (k : Nat) := (peek s (a + s.chk.sigPos) k).foldl (fun c b => crcShift 8 (c.xor b.toNat)) s.chk.sigCrc
      (32768 < left → ∃ t, exec .signatureUnit s = .next t ∧ t = { s with regs := t.regs, chk := t.chk } ∧
        t.chk.sigPos = s.chk.sigPos + 32768 ∧ t.chk.sigCrc = crc 32768 ∧ t.chk.jobs = s.chk.jobs) ∧
      (left ≤ 32768 → (getLSet s l).judged = false → (crc left).xor 0xFFFFFFFF = lsetWord s l 8 → l < 128 → (getLSet s l).done < 256 →
        ∃ t, exec .signatureUnit s = .next t ∧ t = { s with regs := t.regs, chk := t.chk } ∧ t.chk.jobs = rest ∧
          t.chk.sigPos = 0 ∧ t.chk.sigCrc = 0xFFFFFFFF ∧ (getLSet t l).lastPass = now s ∧
          (getR t (chkBase + 0x3000 + 4 * l)).toNat / 2 ^ 30 = 1 ∧
          getR t (chkBase + 0x58) = getR s (chkBase + 0x58) + 1)) ∧
    (∀ (v : AuditVal) (rest : List ChkJob), s.chk.jobs = .audit [v] :: rest → v.awake = false →
      (v.busy = true → (getUnit s v.unit).mstate = .enabled) → (v.mute = true → (getUnit s v.unit).mstate ≠ .enabled) →
      ((getUnit s v.unit).epoch = v.epoch → ∃ t, exec .managementRequest s = .next t ∧
        t = { s with regs := t.regs, chk := t.chk } ∧ t.chk.jobs = rest) ∧
      ((getUnit s v.unit).epoch ≠ v.epoch → ∃ t, exec .managementRequest s = .next t ∧ t.chk.jobs = rest ∧
        t = { s with regs := t.regs, chk := t.chk, diary := t.diary, units := t.units } ∧
        getUnit t v.unit = { getUnit s v.unit with
                             epoch := nextEpoch (getUnit s v.unit).epoch, held := nextEpoch (getUnit s v.unit).epoch }))

/-- The checker's units: frames, records, time-outs, signatures and management requests: the two statements above together. -/
def Obligations.CheckerUnits : Prop :=
  checkerUnitsClaim ∧ checkerBackgroundClaim

/-- R124, R248, R537 to R541: the lantern cycle begins at its instant and activates SEQ 17; `LANTERN` hands over the set's next
chunk as a task of the set; at the cycle's end the progress is discarded and the cycle is over; a chunk that runs for 51 µs on
a vision engine fails its set. -/
def Obligations.LanternCycles : Prop :=
  (∀ (s : State) (c t0 : Nat) (g : Graph), runningGraph s 17 = some (c, g) → s.chk.nextCycle = some t0 → s.chk.cycle = false →
    (getSeq s 17).acts.length < 4 → ∃ t, exec (.seqActivation 17) s = .next t ∧
      t = { s with regs := t.regs, time := t.time, seqs := t.seqs,
                   chk := { s.chk with subs := t.chk.subs, cycle := true, nextCycle := some (t0 + 1000 * g.hdr.period) } } ∧
      getR t (chkBase + 0x6C) = getR s (chkBase + 0x6C) + 1 ∧ (timeRuns s = true → now t = max (now s) t0) ∧
      (getSeq t 17).acts = (getSeq s 17).acts ++ [{ ready := now t, entry := freeEntry s 17 }]) ∧
  (∀ (s : State) (c : Nat) (g : Graph), runningGraph s 18 = some (c, g) → (getSeq s 18).acts.length < 4 →
    ∃ t, exec (.seqActivation 18) s = .next t ∧ t = { s with seqs := t.seqs } ∧
      (getSeq t 18).acts = (getSeq s 18).acts ++ [{ ready := now s, entry := freeEntry s 18 }]) ∧
  (∀ (s : State) (c : Fin 2) (g : Graph) (i e : Nat) (tgt : Fin 1024) (cflag lid : Fin 256),
    Issues s 17 c g (wordLantern tgt cflag lid) → selSlot s 17 c .cs = .act i → lsetOk s lid tgt = true → (getLSet s lid).judged = false →
    (getLSet s lid).next < lsetWord s lid 0 / 2 ^ 16 % 256 → freeEntry s 17 = some e → s.power.dozePend = false →
    (g.safety = true → (getCtx s 17 c).win.isSome) → ((getCtx s 17 c).win.isSome → openWindows s 17 < 12) →
    let pb := lsetWord s lid 4 + 2 ^ 32 * lsetWord s lid 5
    ∃ t k, exec (.lantern 17 c tgt cflag lid) s = .next t ∧
      t = { s with regs := t.regs, mem := t.mem, ctxs := t.ctxs, sched := t.sched, chk := t.chk } ∧
      t.mem = (if tgt.val / 64 = 9 then (poke s (pb + 64) (leBytes 4 (getLSet s lid).next)).mem else s.mem) ∧
      getTask t e = some k ∧ k.win = (getCtx s 17 c).win ∧
      k.lid = some lid.val ∧ k.st = .ready ∧ k.sc = true ∧ k.tkind = 6 ∧ k.ttype = tgt / 64 ∧ k.inst = tgt % 64 ∧
      k.pblk = pb ∧ getLSet t lid = { getLSet s lid with next := (getLSet s lid).next + 1 }) ∧
  (∀ (s : State), s.chk.cycle = true → s.chk.jobs = [] →
    ((enabledSets s).all fun l => (getLSet s l).judged) = true →
    ∃ t, exec .lanternCycleEnd s = .next t ∧ t = { s with time := t.time, regs := t.regs, chk := t.chk } ∧
      t.chk.cycle = false ∧ (timeRuns s = true → now t = max (now s) (s.chk.nextCycle.getD 0)) ∧
      ∀ l, (getLSet t l).next = 0 ∧ (getLSet t l).done = 0 ∧ (getLSet t l).judged = false) ∧
  (∀ (s : State) (e : Fin 10752) (k : Task) (l f : Nat), getTask s e = some k → k.lid = some l → k.first = some f →
    k.ttype ≤ 4 → k.st = .running →
    let s1 := inc (advance s (f + 51000)) (engBase (nth 0 k.units 0) + 0x48)
    exec (.lanternStageTimeout e) s
      = .next (lanternFences (dropWork (completionUpdate (lanternFail s1 l 2 (lanternCycle s1)) k) e k))) ∧
  (∀ (s : State) (l cause cycle : Nat), (getLSet s l).judged = false → s.chk.st ≠ 2 → l < 128 → (getLSet s l).done < 256 →
    cause < 8 → ∃ t, lanternFail s l cause cycle = t ∧ (getLSet t l).judged = true ∧
      t.chk.fences = s.chk.fences ++ [lsetUnit s l] ∧
      (getR t (chkBase + 0x3000 + 4 * l)).toNat = 2 ^ 31 + cause * 2 ^ 27 + (getLSet s l).done * 2 ^ 16 + cycle % 2 ^ 16)

/-- R189, R190, R193, R196, R199: on a VALID inside-bound lossless queue of the unit's world that can grant a cell, with one
receiver that has taken everything, a packet of one word whose cell is granted is taken, and the next dequeue delivers that word with END and
without LEAP; the queue is then as empty as before. -/
def Sys2Proof.Machine.queueDeliversWordClaim : Prop :=
  ∀ (s : State) (qid u : Nat) (w : QWord) (q : Queue) (r : Receiver), getQ s qid = q → qid < 4096 → q.cfg.valid = true →
    q.cfg.out = false → (q.cfg.world = true → unitWorld s u = true) → q.cfg.mode = .lossless → 0 < q.cfg.maxpkt →
    q.ptrBad = false → q.discard = [] → q.flushing = false → q.openPkt = none → q.packets = [] → q.recvs = [r] →
    r.markers = [] → r.off = 0 → r.next ≤ q.nextNum → r.skipTo ≤ q.nextNum → CellsSound s →
    let q1 := { q with openPkt := some { producer := u, seqNo := some q.seq }, seq := (q.seq + 1) % 2 ^ 32 }
    grants (setQ s qid q1) qid u = true →
    ∃ t p, enqWord s qid u w true = (t, .taken) ∧ t = { s with queues := t.queues } ∧ (getQ t qid).packets = [p] ∧
      p.words = [w] ∧ p.leap = false ∧ (getQ t qid).cnt.enq = q.cnt.enq + 1 ∧ (∀ k, k ≠ qid → getQ t k = getQ s k) ∧
      ∃ v, deqWord t qid u 0 = (v, .word w true false) ∧ (getQ v qid).packets = []

/-- R199, R202, R212: a pending DROP marker takes its place when the queue has room and no packet is open; the first waiting
word that can be taken is enqueued and its context goes on; the wait detector replaces the youngest packet of the queue that
has waited for 5,000 µs for a cell that cannot be granted by a BREAK marker. -/
def Sys2Proof.Machine.queueEventsClaim : Prop :=
  (∀ (s : State) (qid : Fin 4096) (f c : Nat), (getQ s qid).dropPend = some (f, c) → (getQ s qid).openPkt = none →
    canGrant s (getQ s qid) 1 = true → CellsSound s → ∃ t m, exec (.leapMarkerPlace qid) s = .next t ∧
      t = { s with regs := t.regs, queues := t.queues } ∧ (getQ t qid).dropPend = none ∧
      (getQ t qid).packets = (getQ s qid).packets ++ [m] ∧ m.leap = true ∧
      m.words.map QWord.data = [BitVec.ofNat 64 (2 ^ 56 + f % 2 ^ 16 * 2 ^ 32 + min c 0xFFFFFFFF)] ∧
      (getQ t qid).cnt.leap = (getQ s qid).cnt.leap + 1 ∧ getN t (qmBase + 0x44) = 2 ^ 24 + qid) ∧
  (∀ (s : State) (qid : Fin 4096) (w : QWaiter), (getQ s qid).waits = [w] → 176 ≤ w.producer → w.producer < 196 →
    (enqWord s qid w.producer w.word w.last).2 ≠ .waits → exec (.cellGrant qid) s
      = .next (resumeCredit (dropWaiter (enqWord s qid w.producer w.word w.last).1 qid w) w.producer qid)) ∧
  (∀ (s : State) (qid since : Nat) (cfg : QConfig) (p : Packet), waitingQueues s = [(qid, since, cfg)] →
    (getQ s qid).openPkt = none → (getQ s qid).packets.getLast? = some p → timeRuns s = true →
    let due := max (since + 5000000) ((s.pool.lastBreak.map (· + 1000000)).getD 0)
    (∀ w ∈ (getQ s qid).waits, waitsForCell (getQ s qid) w = true → grants (advance s due) qid w.producer = false) →
    ∃ t m, exec .waitBreak s = .next t ∧ now t = max (now s) due ∧
      t.pool = { s.pool with lastBreak := some (now t) } ∧ t.mem = s.mem ∧
      (getQ t qid).packets = (getQ s qid).packets.dropLast ++ [m] ∧ m.num = p.num ∧ m.leap = true ∧
      m.words.map QWord.data = [BitVec.ofNat 64 (3 * 2 ^ 56 + (p.seqNo.getD 0) % 2 ^ 16 * 2 ^ 32 + 1)] ∧
      getR t (qmBase + 0x58) = getR s (qmBase + 0x58) + 1)

/-- A queue delivers the word it took; leap markers, credit and the wait detector: the two statements above together. -/
def Obligations.QueueWords : Prop :=
  queueDeliversWordClaim ∧ queueEventsClaim

/-- R205, R206, R214, R219, R222: QM_CMD. A `FLUSH` of a VALID graph queue of the writer's world empties it and runs until its
boundaries have passed; `RESET` and `REBUILD` of the secure world act at once; the non-secure world gets RESULT 2 from both. -/
def Sys2Proof.Machine.queueCommandsClaim : Prop :=
  ∀ (s : State) (qid : Fin 65536),
    (∀ secure, Reaches s secure false (qmBase + 0x30) → flag s (qmBase + 0x34) 31 = false → qValid s qid = true →
      (secure = false → (getQ s qid).cfg.world = false ∧ (getQ s qid).cfg.sys = false) → (getQ s qid).ptrBad = false →
      exec (.flush secure qid) s = .next (setR (dropAhead (setQ s qid { flushQueue (getQ s qid) with flushing := true }))
        (qmBase + 0x34) (reg (2 ^ 31)))) ∧
    (∀ j : Fin 4096, (getQ s j).flushing = true → (getQ s j).flushTail = none → (∀ r ∈ (getQ s j).recvs, r.off = 0) →
      exec (.flushComplete j) s = .next (retrySquash (setR (setQ s j { getQ s j with
        flushing := false, cnt := { (getQ s j).cnt with flush := (getQ s j).cnt.flush + 1 } }) (qmBase + 0x34) 0))) ∧
    (Reaches s true false (qmBase + 0x30) → flag s (qmBase + 0x34) 31 = false → qValid s qid = true →
      (getQ s qid).flushing = false → NoSquashWaits s → ∃ t, exec (.reset true qid) s = .next t ∧
        (getQ t qid).packets = [] ∧ (getQ t qid).openPkt = none ∧ (getQ t qid).resetting = true ∧
        (∀ r ∈ (getQ t qid).recvs, r.off = 0 ∧ r.next = (getQ s qid).nextNum ∧ r.markers.map OwnMarker.lkind = [6]) ∧
        getN t (qmBase + 0x34) = 0) ∧
    (Reaches s true false (qmBase + 0x30) → flag s (qmBase + 0x34) 31 = false → s.pool.st = .run →
      ∃ t, exec (.rebuild true) s = .next t ∧ t = { s with regs := t.regs, out := t.out, pool := t.pool } ∧ t.pool = { s.pool with
          st := .rebuild, cause := 4, held0 := heldBy s false + orphansOf s false, held0Fw := heldBy s true + orphansOf s true } ∧
        getR t (qmBase + 0x54) = getR s (qmBase + 0x54) + 1 ∧ getN t (qmBase + 0x34) = 0) ∧
    (Reaches s false false (qmBase + 0x30) → flag s (qmBase + 0x34) 31 = false → qValid s qid = true →
      exec (.reset false qid) s = .next (setR s (qmBase + 0x34) 2) ∧ exec (.rebuild false) s = .next (setR s (qmBase + 0x34) 2))

/-- R215 to R219: the states of the cell pool: TEST ends in BUILD, BUILD in RUN with up to 64 failing cells retired, a count
that does not add up starts REBUILD, and the sweep's end returns to RUN with every queue out of its ping-pong cells. -/
def Sys2Proof.Machine.poolStatesClaim : Prop :=
  ∀ (s : State),
    (s.pool.st = .test → s.pool.badQueues = [] → s.pool.ptrMemBad = false →
      exec .poolTestEnd s = .next { s with pool := { s.pool with st := .build } }) ∧
    (s.pool.st = .build → s.pool.weak ≤ 64 →
      exec .poolBuildEnd s = .next { s with pool := { s.pool with st := .run, retired := s.pool.weak } }) ∧
    (s.pool.st = .run → freeAdmitted s + heldBy s false ≠ admittedCells s → ∃ t, exec .poolCountCheck s = .next t ∧
      t = { s with regs := t.regs, out := t.out, pool := t.pool } ∧ t.pool.st = .rebuild ∧ t.pool.cause = 3 ∧
      getR t (qmBase + 0x54) = getR s (qmBase + 0x54) + 1 ∧
      getR t (qmBase + 0x20) = setBit 2 (getR s (qmBase + 0x20))) ∧
    (s.pool.st = .rebuild → (∀ p ∈ s.queues, tagsDiffer p.2 = false) → ∃ t, exec .rebuildSweepEnd s = .next t ∧
      t = { s with queues := t.queues, pool := { s.pool with st := .run, lost := 0, held0 := 0, held0Fw := 0 } } ∧
      ∀ p ∈ t.queues, p.2.resetting = false ∧ p.2.orphans = 0)

/-- The commands of the queue manager and the states of the pool: the two statements above together. -/
def Obligations.QueueManager : Prop :=
  queueCommandsClaim ∧ poolStatesClaim

/-- R6, R16, R17, R19: what an access to the control window meets before its block: one of another width or off its word is
counted as malformed, one to no block as unmapped, one to a block whose power domain is off as domain-off, and a non-secure one
to a secure block or instance is reported as a violation; none of them writes a register of the block, and a read answers 0. -/
def Sys2Proof.Machine.controlWindowRefusalsClaim : Prop :=
  ∀ (s : State) (secure : Bool) (off width : Nat) (v : BitVec 64), ctlReach s secure = true → s.power.st = .run →
    let counted (w k : Nat) : Prop :=
      exec (.registerWrite secure false off w (some v)) s = .next (inc s (hifBase + k)) ∧
      exec (.registerWrite secure false off w none) s
        = .next (emit (inc s (hifBase + k)) (.readData (b2n secure) (zeros w)))
    (width ≠ 4 ∨ off % 4 ≠ 0 → counted width 0x20) ∧
    (off % 4 = 0 → blockOf off = none → counted 4 0x24) ∧
    (∀ b, off % 4 = 0 → blockOf off = some b → blockOn s off = false → counted 4 0x28) ∧
    (∀ b, off % 4 = 0 → blockOf off = some b → blockOn s off = true → worldOf s b off = true → secure = false → ∃ t,
      exec (.registerWrite secure false off 4 (some v)) s = .next t ∧
      t = { s with regs := t.regs, out := t.out, fwl := t.fwl, diary := t.diary } ∧
      getR t (fwlBase + 0x20) = getR s (fwlBase + 0x20) + 1 ∧
      ∃ u, exec (.registerWrite secure false off 4 none) s = .next u ∧ u.mem = s.mem ∧
        getR u (fwlBase + 0x20) = getR s (fwlBase + 0x20) + 1 ∧ u.out.getLast? = some (.readData 0 (zeros 4)))

/-- R18, R574, R575: in DOZE an access over the control window first returns the module to RUN, with bit 7 of PWR_WAKESRC and
WOKE set, and then acts. -/
def Sys2Proof.Machine.dozeWakesOnAccessClaim : Prop :=
  ∀ (s : State) (secure : Bool) (off width : Nat) (v : Option (BitVec 64)), s.power.st = .doze → ctlReach s secure = true →
    ctlReach (dozeWake s) secure = true →
    exec (.registerWrite secure false off width v) s = exec (.registerWrite secure false off width v) (dozeWake s) ∧
    (dozeWake s).power.st = .run ∧ bit 7 (getN (dozeWake s) (pwrBase + 0x34)) = true ∧
    bit 1 (getN (dozeWake s) (pwrBase + 0x10)) = true ∧ (dozeWake s).mem = s.mem

/-- What an access to the control window meets before its block: the two statements above together. -/
def Obligations.ControlWindow : Prop :=
  controlWindowRefusalsClaim ∧ dozeWakesOnAccessClaim

/-- R7, R9: a register that takes its value by its access types, in a block that an access reaches. A write: RW and unlocked RWL
bits take the bit written, but those of a field whose value lies outside its range, W1C bits written 1 clear, W1S bits written 1
set, and every other bit stays; no other register of the window changes but for the message of the register's interrupt line. A
read answers the register's value, from the register or the block's view of its state, and changes nothing else. -/
def Obligations.RegisterWriteByType : Prop :=
  ∀ (s : State) (secure : Bool) (off : Nat) (v : BitVec 64) (b : Block) (r : RegRow), ctlReach s secure = true →
    s.power.st = .run → off % 4 = 0 → blockOf off = some b → blockOn s off = true → (worldOf s b off = true → secure = true) →
    b.base = htsBase ∨ b.base = seqBase 0 ∨ b.base = strBase 0 ∨ b.base = wrpBase 0 ∨ b.base = gthBase 0 →
    rowOf off = some r →
    (off ≠ htsBase + 0x8040 → exec (.registerWrite secure false off 4 none) s = .next
      (emit { s with uses := s.uses + 1 } (.readData (b2n secure) (leBytes 4 ((blockView secure s b off).getD (getR s off)).toNat)))) ∧
    ∃ t, exec (.registerWrite secure false off 4 (some v)) s = .next t ∧ t = { s with regs := t.regs, out := t.out } ∧
      (∀ j, j < 32 → (getR t off).getLsbD j =
        (if (r.rw.testBit j || (r.rwl.testBit j && !(b.lock != 0 && flag s (off - localOf b off + b.lock) 0)))
            && !(r.outOfRange (v.toNat % 2 ^ 32)).getLsbD j then v.getLsbD j
         else if r.w1s.testBit j && v.getLsbD j then true
         else if r.w1c.testBit j && v.getLsbD j then false else (getR s off).getLsbD j)) ∧
      ∀ a, a ≠ off → a ≠ hifBase + 0x44 → a < 0x1000_0000 → getR t a = getR s a

/-- R552: the decision on an access that lies in one page: the lowest-numbered VALID entry that holds the page decides, and
the first condition of the table that holds refuses with its REASON; without an entry, everyone but secure firmware (unit 201)
is refused with NOREGION. -/
def Sys2Proof.Machine.firewallDecisionClaim : Prop :=
  ∀ (tbl : List (Nat × Region)) (u p k n : Nat) (world sc write : Bool), 0 < n → k + n ≤ 4096 →
    (regionOf tbl p = none →
      fwDecide tbl u world sc write (4096 * p + k) n = if u = 201 then none else some (2, 0xFF)) ∧
    (∀ i r, regionOf tbl p = some (i, r) → fwDecide tbl u world sc write (4096 * p + k) n =
      if r.flags.getLsbD 26 ∧ u ≠ 201 then some (7, i)
      else if r.flags.getLsbD 29 ∧ ¬ world then some (1, i)
      else if write ∧ r.flags.getLsbD 28 then some (3, i)
      else if write ∧ r.flags.getLsbD 27 ∧ ¬ sc ∧ u ≠ 201 then some (4, i) else none)

/-- R552, R554, R556: a refused access changes no memory and reads nothing: it is counted, and logged as a record that names
the initiator, the REASON and the address, when the log is empty. -/
def Sys2Proof.Machine.refusedAccessIsLoggedClaim : Prop :=
  ∀ (s : State) (u a n reason i : Nat) (sc write : Bool), spaceOf a = .dram → s.fwl.vlog = [] →
    fwDecide s.fwl.dram u (unitWorld s u) sc write a (min n (Config.dramBytes - a)) = some (reason, i) →
    ∃ t, access s u sc write a n = (t, .denied) ∧ t.mem = s.mem ∧ t.queues = s.queues ∧
      t.fwl.vlog = [⟨initId s u sc, reason, b2n write, 0, i, a, now s, 0⟩] ∧
      getR t (fwlBase + 0x20) = getR s (fwlBase + 0x20) + 1 ∧ bit 0 (getN t (fwlBase + 0x10)) = true

/-- The firewall's decision on an access, and what a refusal does: the two statements above together. -/
def Obligations.FirewallDecision : Prop :=
  firewallDecisionClaim ∧ refusedAccessIsLoggedClaim

/-- R547, R549, R556, R565: the firewall's own registers, written from the secure world. A change of worlds that takes effect
advances the epoch of each managed unit whose bit changes, once, and of no other; a region entry is locked for good by LOCK,
is changed only by a write that clears VALID, and never takes LAST below FIRST; the pop removes the oldest record. -/
def Obligations.FirewallRegisters : Prop :=
  (∀ (s : State) (w : Fin 8) (v : Reg), w.val < 6 → Reaches s true true (fwlBase + 0x80 + 4 * w) →
    flag s (fwlBase + 8) 0 = false →
    let old := getR s (fwlBase + 0x80 + 4 * w)
    (∀ b, b < 32 → old.getLsbD b ≠ v.getLsbD b → holdsWork s (32 * w + b) = false ∧ pinnedUnit s (32 * w + b) = false) →
    ∃ t, exec (.unitWorldAssign true w v) s = .next t ∧ t = { s with regs := t.regs, units := t.units } ∧
      getR t (fwlBase + 0x80 + 4 * w) = v ∧
      ∀ u, (getUnit t u).epoch = (if u / 32 = w ∧ old.getLsbD (u % 32) ≠ v.getLsbD (u % 32) ∧ managed u then
        nextEpoch (getUnit s u).epoch else (getUnit s u).epoch)) ∧
  (∀ (s : State) (som : Bool) (r : Fin 256) (k : Fin 4) (v : Reg), (som = true → r.val < 64) →
    Reaches s true true (fwlBase + (if som then 0x2000 else 0x1000) + 16 * r + 4 * k) →
    let x := getRegion s som r
    let y := regionWord som x k v
    let pages := (if som then Config.somBytes else Config.dramBytes) / 4096
    (regionOk som x y = true → ∃ t, exec (.regionEntryWrite true som r k v) s = .next t ∧ t = { s with fwl := t.fwl } ∧
      getRegion t som r = y ∧ ∀ z q, (z, q) ≠ (som, r.val) → getRegion t z q = getRegion s z q) ∧
    (x.flags.getLsbD 30 = true ∨ (x.flags.getLsbD 31 = true ∧ y.flags.getLsbD 31 = true) ∨ y.last < y.first ∨ pages ≤ y.last ∨
      (som = false ∧ (y.flags.getLsbD 29 = true ∨ y.flags.getLsbD 27 = true) ∧ y.flags.getLsbD 25 = false) ∨
      (som = true ∧ (y.flags.getLsbD 25 = true ∨ y.flags.getLsbD 24 = true)) →
      exec (.regionEntryWrite true som r k v) s = .next (raise s (fwlBase + 0x10) 2))) ∧
  (∀ (s : State) (v : Reg), Reaches s true true (fwlBase + 0x34) → exec (.fwlVlogPop true v) s
    = .next { s with fwl := { s.fwl with vlog := if v.getLsbD 0 then s.fwl.vlog.drop 1 else s.fwl.vlog } })

/-- R607: the OP and the argument words of a command of the mailbox, with its world and its TAG. -/
def Sys2Proof.Machine.boxCommand : Instr → Option (Bool × BitVec 16 × Nat × List Reg)
  | .graphLoad w t a l n => some (w, t, 0x0101, addrArgs a ++ [l, n])
  | .graphStart w t n x => some (w, t, 0x0102, n :: addrArgs x)
  | .graphStop w t n x => some (w, t, 0x0103, n :: addrArgs x)
  | .graphReplace w t a l n x => some (w, t, 0x0104, addrArgs a ++ [l, n] ++ addrArgs x)
  | .graphUnload w t n => some (w, t, 0x0105, [n])
  | .admitTrial w t a l n => some (w, t, 0x0106, addrArgs a ++ [l, n])
  | .almanacRead w t c a => some (w, t, 0x0107, c :: addrArgs a)
  | .coolingSet w t c => some (w, t, 0x0108, [c])
  | .tableRegister w t args => some (w, t, 0x0109, args)
  | .doze w (some t) => some (w, t, 0x0201, [0])
  | .vigil w (some t) f => some (w, t, 0x0202, [reg (b2n f)])
  | .solstice w (some t) f => some (w, t, 0x0203, [reg (b2n f)])
  | .off w (some t) => some (w, t, 0x0204, [0])
  | .moduleReset (.box w) (some t) => some (w, t, 0x0205, [0])
  | .clusterReset w (some t) k => some (w, t, 0x0206, [reg k.toNat])
  | .unitReset w (some t) u => some (w, t, 0x0207, [reg u.toNat])
  | .sensorRead (.box w) t => some (w, t, 0x0301, [])
  | .unitState w t u n => some (w, t, 0x0302, [u, n])
  | .unitFence w t u => some (w, t, 0x0303, [u])
  | .unitRelease w t u => some (w, t, 0x0304, [u])
  | .unitPower w t u p => some (w, t, 0x0305, [u, p])
  | .serviceRead (.box w) t => some (w, t, 0x0306, [])
  | .serviceClear w t a => some (w, t, 0x0307, addrArgs a)
  | .diaryRead (.box w) t f n a => some (w, t, 0x0401, [f, n] ++ addrArgs a)
  | .diarySeal w t => some (w, t, 0x0402, [])
  | .diaryKey (.box w) t a => some (w, t, 0x0403, addrArgs a)
  | .diaryNote w t l => some (w, t, 0x0404, l.take 8)
  | .updateBegin (.box w) t n => some (w, t, 0x0501, [n])
  | .updateWrite (.box w) t a l o => some (w, t, 0x0502, addrArgs a ++ [l, o])
  | .updateCommit (.box w) t x => some (w, t, 0x0503, [x])
  | .updateConfirm w t => some (w, t, 0x0504, [])
  | .updateAbort (.box w) t => some (w, t, 0x0505, [])
  | .provision w t a => some (w, t, 0x0601, addrArgs a)
  | .provrecWrite w t a => some (w, t, 0x0602, addrArgs a)
  | .version (.box w) t p g => some (w, t, 0x0701, [p, g])
  | _ => none

/-- R605 to R607, R657: a command that arrives in a mailbox box while another runs there is discarded and sets REJ, and
changes nothing else. An OP that no command has is answered CMD_UNKNOWN; in the recovery loader and before the handshake a
command that does not run there is answered CMD_STATE; with PROV at 1 box 0 answers a secure command WORLD; a command so
turned away places its arguments and its answer and does none of its work. The first is a host's write to its box's CMD. -/
def Sys2Proof.Machine.mailboxTurnsAwayClaim : Prop :=
  ∀ (c : Instr) (s : State) (secure : Bool) (tag : BitVec 16) (op : Nat) (args : List Reg),
    boxCommand c = some (secure, tag, op, args) → fnReach s (b2n secure) = true → s.power.st = .run →
    let cmd := boxAt (b2n secure) + 4
    (bit 31 (getN s cmd) = true → exec c s = .next (setR s cmd (setBit 30 (getR s cmd)))) ∧
    (bit 31 (getN s cmd) = false →
      (s.firm.fw = 2 → recoveryOp op = false →
        exec c s = .next (boxDone (boxed s (b2n secure) args) (b2n secure) tag.toNat 0x22 [])) ∧
      (s.firm.fw ≠ 2 → (getFn s (b2n secure)).done = false → op ∉ [0x0701, 0x0301, 0x0306, 0x0401, 0x0403] →
        exec c s = .next (boxDone (boxed s (b2n secure) args) (b2n secure) tag.toNat 0x22 [])) ∧
      (s.firm.fw ≠ 2 → (getFn s (b2n secure)).done = true → secureOp op = true → secure = false → s.fwl.fuses.prov = true →
        exec c s = .next (boxDone (boxed s (b2n secure) args) (b2n secure) tag.toNat 0x0B [])) ∧
      (∀ v : BitVec 64, ctlReach s secure = true → knownOp (v.toNat % 2 ^ 16) = false →
        exec (.registerWrite secure false (boxAt (b2n secure)) 4 (some v)) s = .next (boxDone (boxed s (b2n secure) (boxArgs s (b2n secure)))
          (b2n secure) (v.toNat % 2 ^ 32 / 2 ^ 16) 0x20 [])))

/-- R605, R614: a command that completes leaves RSP0 to RSP15, RESULT and its TAG in its box with BUSY clear, and raises
CMDDONE; nothing but registers, outputs and the box's own entry changes. -/
def Sys2Proof.Machine.mailboxAnswersClaim : Prop :=
  ∀ (s : State) (b result : Nat) (tag : BitVec 16) (rsp : List Nat), b < 3 → result < 256 →
    let t := boxDone s b tag.toNat result rsp
    field t (boxAt b + 4) 7 0 = result ∧ field t (boxAt b + 4) 23 8 = tag.toNat ∧ flag t (boxAt b + 4) 31 = false ∧
    (∀ k, k < 16 → getR t (boxAt b + 0x50 + 4 * k) = reg (nth 0 rsp k)) ∧
    flag t (if b = 1 then mgcSecureInt else mgcBase + 0x10) 0 = true ∧
    t = { s with regs := t.regs, out := t.out, boxes := kvDel s.boxes b }

/-- What a mailbox box turns away, and how it answers: the two statements above together. -/
def Obligations.Mailbox : Prop :=
  mailboxTurnsAwayClaim ∧ mailboxAnswersClaim

/-- R74, R76 to R78, R143, R145, R147: what a graph command that its box accepts does in the state `s1` that holds its
arguments. GRAPH_LOAD answers the status of the first step that fails, the verdict record where admission refuses, and PLACE
with the resource that lacks; a graph that passes is placed in context 0. GRAPH_START and GRAPH_STOP record their effective
time, or take effect at once where it has come. GRAPH_REPLACE loads the new graph beside the running one. GRAPH_UNLOAD takes a
READY graph away. ADMIT_TRIAL answers the verdict and changes nothing else. -/
def Obligations.GraphCommands : Prop :=
  ∀ (s : State) (secure : Bool) (tag : BitVec 16) (addr time : BitVec 64) (len seq : Reg), seq.toNat < 20 →
    let b := b2n secure
    let n := seq.toNat
    let load (op : Nat) (args : List Reg) (s1 : State) (l : List Byte) : Prop :=
      Accepts s secure op ∧ s1 = boxed s b args ∧ boxSpan s1 b false addr.toNat len.toNat = true ∧
        l = peek s1 addr.toNat len.toNat
    let mine (op : Nat) (args : List Reg) (s1 : State) : Prop :=
      Accepts s secure op ∧ s1 = boxed s b args ∧ boxMay b (unitWorld s1 (176 + n)) = true ∧ cmdPending s1 n = false
    (∀ s1 l, load 0x0101 (addrArgs addr ++ [len, seq]) s1 l → getGraph s n 0 = none → getGraph s n 1 = none →
      ¬ (n < 16 ∧ isPartner s n = true) →
      (∀ e, loadStatus s1 b n l = e → e ≠ 0 → exec (.graphLoad secure tag addr len seq) s = .next (boxDone s1 b tag.toNat e [])) ∧
      (loadStatus s1 b n l = 0 → ∀ v, admitted (shedding s1) (loadedSet s1 ++ [(n, graphOf (xzbOf l))]) n s.cls = v →
        (v.code ≠ 0 →
          exec (.graphLoad secure tag addr len seq) s = .next (boxDone s1 b tag.toNat 0x0D (wordsOf 8 (v.bytes s.cls)))) ∧
        (v.code = 0 → ∀ r, placeGraph s1 n 0 (xzbOf l) (graphOf (xzbOf l)) = (s1, some r) →
          exec (.graphLoad secure tag addr len seq) s = .next (boxDone s1 b tag.toNat 0x0E [r])) ∧
        (v.code = 0 → ∀ s2, placeGraph s1 n 0 (xzbOf l) (graphOf (xzbOf l)) = (s2, none) →
          exec (.graphLoad secure tag addr len seq) s = .next (boxDone s2 b tag.toNat 0 [])))) ∧
    (∀ s1 l c g g', load 0x0104 (addrArgs addr ++ [len, seq] ++ addrArgs time) s1 l → cmdPending s1 n = false →
      runningGraph s1 n = some (c, g) → getGraph s1 n (1 - c) = none →
      ∀ s2, loadGraph s1 b n (1 - c) (some c) l = (s2, .done 0 []) → getGraph s2 n (1 - c) = some g' →
      exec (.graphReplace secure tag addr len seq time) s = .next (boxDone
        (if time.toNat ≤ now s then takeEffect s2 n (1 - c) g'
         else setGraph s2 n (1 - c) { g' with takeAt := some time.toNat }) b tag.toNat 0 [])) ∧
    (∀ s1 l, load 0x0106 (addrArgs addr ++ [len, seq]) s1 l → loadStatus s1 b n l = 0 →
      ∀ v, admitted (shedding s1) (setWithout s1 n [0, 1] ++ [(n, graphOf (xzbOf l))]) n s.cls = v →
      exec (.admitTrial secure tag addr len seq) s
        = .next (boxDone s1 b tag.toNat (if v.code = 0 then 0 else 0x0D) (wordsOf 8 (v.bytes s.cls)))) ∧
    (∀ s1 g, mine 0x0102 (seq :: addrArgs time) s1 → getGraph s n 0 = some g → g.st = .ready →
      exec (.graphStart secure tag seq time) s = .next (boxDone
        (if time.toNat ≤ now s then startEffect s1 n 0 g else setGraph s1 n 0 { g with startAt := some time.toNat })
        b tag.toNat 0 (words64 (max time.toNat (now s))))) ∧
    (∀ s1 c g, mine 0x0103 (seq :: addrArgs time) s1 → runningGraph s1 n = some (c, g) →
      exec (.graphStop secure tag seq time) s = .next (boxDone
        (if time.toNat ≤ now s then setGraph s1 n c { g with st := .draining, stopAt := none }
         else setGraph s1 n c { g with stopAt := some time.toNat })
        b tag.toNat 0 (words64 (max time.toNat (now s))))) ∧
    (∀ s1 g, mine 0x0105 [seq] s1 → getGraph s n 0 = some g → g.st = .ready →
      exec (.graphUnload secure tag seq) s = .next (boxDone
        (unloadGraph { s1 with resident := kvDel s.resident n } n 0 g) b tag.toNat 0 []))

/-- R76, R93, R131, R213: a graph's recorded GRAPH_START takes effect at its time: the graph is RUNNING, its context begins
issuing at instruction 0 and becomes the one for new frames, its DECIM count begins, its sequencer's counters and its DEGRADED
mark clear. A GRAPH_STOP
that takes effect leaves the graph DRAINING. A GRAPH_REPLACE that takes over makes the new graph RUNNING and its context the
one for new frames, and the old graph DRAINING. None of them touches memory but to clear the poison of shared pages. -/
def Sys2Proof.Machine.graphEffectsClaim : Prop :=
  ∀ (s : State) (n : Fin 20) (c : Fin 2) (g : Graph) (at_ : Nat), getGraph s n c = some g → s.power.st = .run →
    2 ≤ s.power.bootStep → s.power.dozePend = false →
    (g.startAt = some at_ → g.st = .ready → ∃ t, exec (.graphStartTakesEffect n c) s = .next t ∧ now t = max at_ (now s) ∧
      getGraph t n c = some { g with st := .running, startAt := none } ∧ (getCtx t n c).rst = .run ∧ (getCtx t n c).pc = 0 ∧
      (getSeq t n).newCtx = c.val ∧ (getSeq t n).decim = 0 ∧ flag t (qmBase + 0x40) n = false ∧ t.mem = s.mem ∧
      t.queues = s.queues ∧ ∀ o ∈ seqCounters, getR t (seqBase n + o) = 0) ∧
    (g.stopAt = some at_ → exec (.graphStopTakesEffect n c) s
      = .next (setGraph (advance s at_) n c { g with st := .draining, stopAt := none })) ∧
    (∀ o, g.takeAt = some at_ → getGraph s n (1 - c.val) = some o → o.st = .running →
      ∃ t, exec (.graphReplaceTakeover n c) s = .next t ∧ now t = max at_ (now s) ∧
        getGraph t n c = some { g with st := .running, takeAt := none } ∧
        getGraph t n (1 - c.val) = some { o with st := .draining, stopAt := none } ∧ (getCtx t n c).rst = .run ∧
        (getSeq t n).newCtx = c.val ∧ t.mem = s.mem ∧ t.queues = s.queues)

/-- R77, R78: a DRAINING graph that has not been replaced is READY again once no slot of its context is in use, and its context
stops issuing; one that has been replaced is unloaded with everything that it held: its context is EMPTY, its queues and flows
are as at reset, and its regions leave the tables. -/
def Sys2Proof.Machine.drainedGraphsClaim : Prop :=
  ∀ (s : State) (n : Fin 20) (c : Fin 2) (g : Graph), getGraph s n c = some g → slotsFree s n c = true →
    (g.st = .draining → replaced s n c = false → (getCtx s n c).rst = .run →
      ∃ t, exec (.graphDrained n c) s = .next t ∧ t = { s with graphs := t.graphs, ctxs := t.ctxs } ∧
        getGraph t n c = some { g with st := .ready, stopAt := none } ∧ (getCtx t n c).rst = .idle) ∧
    (g.st = .draining → replaced s n c = true → c.val = 1 - (getSeq s n).newCtx →
      ∃ t, exec (.replaceOldGraphUnload n) s = .next t ∧ getGraph t n c = none ∧ t.mem = s.mem ∧ t.regs = s.regs ∧
        (∀ q ∈ g.pl.queues, getQ t q.2 = {}) ∧ (∀ f ∈ g.pl.flows, getFlow t f.2 = {}) ∧
        (∀ e ∈ g.pl.dramEnts, ∀ r, (e, r) ∉ t.fwl.dram) ∧ (∀ e ∈ g.pl.somEnts, ∀ r, (e, r) ∉ t.fwl.som) ∧
        t.out = s.out ∧ t.seqs = s.seqs)

/-- A graph starts, drains and stops: the two statements above together. -/
def Obligations.GraphLife : Prop :=
  graphEffectsClaim ∧ drainedGraphsClaim

/-- R145, R148, R473: ALMANAC_READ stores the almanac image at its buffer; COOLING_SET refuses with COOLING and the lowest
sequencer whose graph lacks the class, or with the verdict of admission, and else declares the class and answers the verdict; the clock then moves when
no stream graph runs, and waits for a frame start where one does. TABLE_REGISTER enters a table of a graph's surface under its
number. -/
def Sys2Proof.Machine.classAndTableCommandsClaim : Prop :=
  ∀ (s : State) (secure : Bool) (tag : BitVec 16) (cls : Reg) (addr : BitVec 64) (args : List Reg) (s1 : State),
    let b := b2n secure
    let k := cls.toNat
    (Accepts s secure 0x0107 → s1 = boxed s b (cls :: addrArgs addr) → k < 3 → ∀ image, image = Config.almanacImage
        (capacityCodes.map fun j => almanac j k)
        ((loadedSet s1).map fun p => (p.1, chargesHeld p.1 p.2 s1.cls)) →
      boxSpan s1 b true addr.toNat image.length = true →
      exec (.almanacRead secure tag cls addr) s = .next (boxDone (poke s1 addr.toNat image) b tag.toNat 0 [])) ∧
    (Accepts s secure 0x0108 → s1 = boxed s b [cls] → k < 3 → s.power.entering = none →
      boxMay b (flag s1 (fwlBase + 0xA0) 2) = true →
      (∀ p, s.graphs.find? (fun p => !bit k p.2.hdr.cclass) = some p →
        exec (.coolingSet secure tag cls) s = .next (boxDone s1 b tag.toNat 0x0C [p.1 / 2])) ∧
      (s.graphs.find? (fun p => !bit k p.2.hdr.cclass) = none → ∀ v, admitted (shedding s1) (loadedSet s1) 0xFF k = v →
        (v.code ≠ 0 →
          exec (.coolingSet secure tag cls) s = .next (boxDone s1 b tag.toNat 0x0D (wordsOf 8 (v.bytes k)))) ∧
        (v.code = 0 → ∀ s2, s2 = { diary s1 7 0 false { code := k, detail := s.cls } with cls := k } →
          ((∀ n, n < 16 → runningGraph s2 n = none) → exec (.coolingSet secure tag cls) s
            = .next (boxDone (moveForClass s2 (s.clock.fromF.getD (classClock s.cls))) b tag.toNat 0 (wordsOf 8 (v.bytes k)))) ∧
          ((∃ n, n < 16 ∧ (runningGraph s2 n).isSome) → exec (.coolingSet secure tag cls) s = .next (boxDone
            { s2 with clock := { s2.clock with fromF := some (s.clock.fromF.getD (classClock s.cls)) } } b tag.toNat 0
            (wordsOf 8 (v.bytes k))))))) ∧
    (Accepts s secure 0x0109 → s1 = boxed s b args → ∀ g f, getGraph s (argN args 1) 0 = some g →
      surfaceOf g (argN args 2) = some f → boxMay b g.secure = true → argN args 0 < 64 → argN args 3 < 2 →
      argN args 5 = 1 + 2 * b2n g.secure →
      tableFits (argN args 3) (argN args 4) (argN args 6) (argN args 7) (arg64 args 8) (arg64 args 10) (argN args 12) f.addr f.size
        = true →
      ∃ d, exec (.tableRegister secure tag args) s
          = .next (boxDone { s1 with tables := kvPut s.tables (argN args 0) d } b tag.toNat 0 []) ∧
        leAt d 0 1 = argN args 3 ∧ leAt d 2 1 = argN args 5 ∧ leAt d 8 8 = f.addr % 2 ^ 64 ∧
        leAt d 16 8 = arg64 args 8 % 2 ^ 64)

/-- R597, R607: SENSOR_READ answers a packing of the temperature and rail registers that the specification leaves open (log entry 8) and SERVICE_READ the
declared causes with the SEQ of each cause's SERVICE entry; neither does anything else. SERVICE_CLEAR with a valid token in
secure staging clears the causes that the token names, and answers TOKEN, clearing nothing, with another. -/
def Sys2Proof.Machine.serviceCommandsClaim : Prop :=
  ∀ (s : State) (secure : Bool) (tag : BitVec 16) (addr : BitVec 64) (s1 : State),
    let b := b2n secure
    (Accepts s secure 0x0301 → s1 = boxed s b [] → ∃ rsp, exec (.sensorRead (.box secure) tag) s = .next (boxDone s1 b tag.toNat 0 rsp)) ∧
    (Accepts s secure 0x0306 → s1 = boxed s b [] → exec (.serviceRead (.box secure) tag) s = .next (boxDone s1 b tag.toNat 0
      (getN s1 (mgcBase + 0x20) :: (List.range 8).map (kvGet (fun _ => 0) s.health.svcSeq)))) ∧
    (Accepts s secure 0x0307 → s1 = boxed s b (addrArgs addr) → secureStaging s addr.toNat Config.tokenLen = true →
      ∀ l, l = peek s addr.toNat Config.tokenLen →
      (Config.tokenOk l = false → exec (.serviceClear secure tag addr) s = .next (boxDone s1 b tag.toNat 0x28 [])) ∧
      (Config.tokenOk l = true → ∃ t, exec (.serviceClear secure tag addr) s = .next t ∧
        t = { s with regs := t.regs, out := t.out, boxes := t.boxes, health := t.health } ∧
        getR t (mgcBase + 0x20) = getR s (mgcBase + 0x20) &&& ~~~(reg (Config.tokenCauses l).toNat) ∧
        ∀ c, c < 32 → bit c (Config.tokenCauses l).toNat = false →
          kvGet (fun _ => 0) t.health.svcSeq c = kvGet (fun _ => 0) s.health.svcSeq c))

/-- Cooling class, tables, sensors and service by mailbox (log entry 8): the two statements above together. -/
def Obligations.ClassAndTableCommands : Prop :=
  classAndTableCommandsClaim ∧ serviceCommandsClaim

/-- R591 to R595, R607: UNIT_STATE answers the state words of up to 16 units. UNIT_FENCE of an enabled unit fences it, or
retires it at its third fence, advances its epoch, counts the fence and declares service; of a fenced unit it answers OK and
changes nothing. UNIT_RELEASE enables a fenced unit with the next epoch. UNIT_POWER takes an idle, unpinned unit down and back
up, with the next epoch each time, and waits for a busy one. -/
def Obligations.UnitCommands : Prop :=
  ∀ (s : State) (secure : Bool) (tag : BitVec 16) (u n : Reg) (s1 : State),
    let b := b2n secure
    let k := u.toNat
    (Accepts s secure 0x0302 → s1 = boxed s b [u, n] → n.toNat ≤ 16 → k + n.toNat ≤ 198 →
      exec (.unitState secure tag u n) s
        = .next (boxDone s1 b tag.toNat 0 ((List.range n.toNat).map fun i => ustateWord s (k + i)))) ∧
    (Accepts s secure 0x0303 → s1 = boxed s b [u] → managed k = true →
      ((getUnit s k).mstate = .fenced ∨ (getUnit s k).mstate = .retired →
        exec (.unitFence secure tag u) s = .next (boxDone s1 b tag.toNat 0 [])) ∧
      ((getUnit s k).mstate = .enabled ∨ (getUnit s k).mstate = .poweredDown →
        ∃ t, exec (.unitFence secure tag u) s = .next (boxDone t b tag.toNat 0 []) ∧
          getUnit t k = { getUnit s k with mstate := if 2 ≤ (getUnit s k).fences then .retired else .fenced, fences := (getUnit s k).fences + 1, epoch := nextEpoch (getUnit s k).epoch, held := nextEpoch (getUnit s k).epoch } ∧
          bit 0 (getN t (mgcBase + 0x20)) = true ∧ t.mem = s.mem)) ∧
    (Accepts s secure 0x0304 → s1 = boxed s b [u] → managed k = true → (getUnit s k).mstate = .fenced →
      ∃ t, exec (.unitRelease secure tag u) s = .next (boxDone t b tag.toNat 0 []) ∧
        t = { s1 with units := t.units, diary := t.diary, regs := t.regs } ∧
        getUnit t k = { getUnit s k with mstate := .enabled, off := false, epoch := nextEpoch (getUnit s k).epoch, held := nextEpoch (getUnit s k).epoch } ∧
        (∀ j, j ≠ k → getUnit t j = getUnit s j) ∧ getR t (mgcBase + 0x20) = getR s (mgcBase + 0x20)) ∧
    (Accepts s secure 0x0305 → s1 = boxed s b [u, n] → managed k = true →
      (n = 1 → (getUnit s k).mstate = .poweredDown → exec (.unitPower secure tag u n) s
        = .next (boxDone (bumpEpoch (setUnit s1 k { getUnit s k with mstate := .enabled, off := false }) k) b tag.toNat 0 [])) ∧
      (n = 0 → (getUnit s k).mstate = .enabled → pinnedUnit s k = false → busy s k = false →
        exec (.unitPower secure tag u n) s
          = .next (boxDone (bumpEpoch (setUnit s1 k { getUnit s k with mstate := .poweredDown, off := true }) k) b tag.toNat 0 [])) ∧
      (n = 0 → (getUnit s k).mstate = .enabled → pinnedUnit s k = true →
        exec (.unitPower secure tag u n) s = .next (boxDone s1 b tag.toNat 0x22 [])) ∧
      (n = 0 → (getUnit s k).mstate = .enabled → pinnedUnit s k = false → busy s k = true →
        exec (.unitPower secure tag u n) s
          = .next { s1 with boxes := kvPut s.boxes b { tag := tag.toNat, op := 0x0305, arg := k, since := now s } }))

/-- R598 to R604, R607, R613: DIARY_READ stores the bytes of the entries from `first` on, redacted for the non-secure world, and
answers the first SEQ and the count. DIARY_SEAL makes a seal of four entries while the buffer has room for them, and waits where
it has none. DIARY_KEY stores the attestation key. DIARY_NOTE creates a NOTE entry of the world of its box. An entry that waits
reaches managed flash behind the last one, linked to it. -/
def Obligations.DiaryCommands : Prop :=
  ∀ (s : State) (secure : Bool) (tag : BitVec 16) (first count : Reg) (addr : BitVec 64) (words : List Reg) (s1 : State),
    let b := b2n secure
    (Accepts s secure 0x0401 → s1 = boxed s b ([first, count] ++ addrArgs addr) → count.toNat ≤ 65536 →
      ∀ e es, entriesFrom s first.toNat count.toNat = e :: es → boxSpan s1 b true addr.toNat (64 * (es.length + 1)) = true →
      exec (.diaryRead (.box secure) tag first count addr) s = .next (boxDone
        (poke s1 addr.toNat ((e :: es).flatMap fun x => if secure then x.bytes else x.redacted)) b tag.toNat 0
        [e.item.seq, es.length + 1])) ∧
    (Accepts s secure 0x0402 → s1 = boxed s b [] →
      (s.diary.buffer.length ≤ 1020 → ∃ t, exec (.diarySeal secure tag) s = .next (boxDone t b tag.toNat 0 []) ∧
        t = { s1 with diary := t.diary } ∧ t.diary.buffer.length = s.diary.buffer.length + 4 ∧
        (t.diary.buffer.drop s.diary.buffer.length).map DiaryItem.kind = [0x10, 0x11, 0x11, 0x11] ∧
        t.diary.sealFrom = t.diary.nextSeq ∧ t.diary.flash = s.diary.flash) ∧
      (1020 < s.diary.buffer.length → exec (.diarySeal secure tag) s
        = .next { s1 with diary := { s.diary with sealWait := true }, boxes := kvPut s.boxes b { tag := tag.toNat, op := 0x0402, arg := 0, since := now s } })) ∧
    (Accepts s secure 0x0403 → s1 = boxed s b (addrArgs addr) → boxSpan s1 b true addr.toNat Config.attestKey.length = true →
      exec (.diaryKey (.box secure) tag addr) s = .next (boxDone (poke s1 addr.toNat Config.attestKey) b tag.toNat 0 [])) ∧
    (Accepts s secure 0x0404 → s1 = boxed s b (words.take 8) → s.diary.buffer.length < 1024 →
      exec (.diaryNote secure tag words) s = .next (boxDone { s1 with diary := { s.diary with buffer := s.diary.buffer ++ [⟨s.diary.nextSeq, 0x12, 0, secure, now s, (List.range 8).flatMap fun i => leBytes 4 (nth 0 words i).toNat⟩], nextSeq := (s.diary.nextSeq + 1) % 2 ^ 32 } } b tag.toNat 0 [])) ∧
    (∀ x rest, s.diary.buffer = x :: rest → s.power.st ≠ .off → s.diary.lost = 0 → s.diary.sealWait = false →
      (s.diary.nextSeq + 2 ^ 32 - s.diary.sealFrom) % 2 ^ 32 < 65536 → s.firm.flashBad = false →
      s.health.railsDown.contains 7 = false → s.diary.flash.length < 4194304 →
      exec .diaryEntryWritten s = .next { s with diary := { s.diary with buffer := rest, flash := s.diary.flash ++ [⟨x, chainAfter s.diary.flash.getLast?⟩] } })

/-- R610, R612: UPDATE_BEGIN erases the slot that the selector's ACTIVE does not name; UPDATE_WRITE copies bytes of secure
staging into it; UPDATE_COMMIT answers UPD_SIG or UPD_SVN for an image that does not verify, and else closes the slot and
writes the selector with TRIAL 1, TRIES 2 and the window; UPDATE_CONFIRM of trial firmware makes its slot ACTIVE, ends the
trial and advances FWSVN; UPDATE_ABORT empties the slot and leaves the selector. A refused step leaves the selector as it was. -/
def Obligations.UpdateCommands : Prop :=
  ∀ (s : State) (secure : Bool) (tag : BitVec 16) (addr : BitVec 64) (x len off : Reg) (s1 : State),
    s.firm.flashBad = false → s.health.railsDown.contains 7 = false →
    let b := b2n secure
    let k := 1 - (selector s).active
    let img := getSlotImage s k
    (Accepts s secure 0x0501 → s1 = boxed s b [x] → s.firm.trial = false → 512 ≤ x.toNat → x.toNat ≤ 28 * 2 ^ 20 →
      exec (.updateBegin (.box secure) tag x) s
        = .next (boxDone (setSlotImage s1 k { open_ := true, size := x.toNat }) b tag.toNat 0 [])) ∧
    (Accepts s secure 0x0501 → s1 = boxed s b [x] → s.firm.trial = true →
      exec (.updateBegin (.box secure) tag x) s = .next (boxDone s1 b tag.toNat 0x22 [])) ∧
    (Accepts s secure 0x0502 → s1 = boxed s b (addrArgs addr ++ [len, off]) → img.open_ = true →
      off.toNat + len.toNat ≤ img.size → secureStaging s addr.toNat len.toNat = true →
      ∃ bytes, exec (.updateWrite (.box secure) tag addr len off) s
          = .next (boxDone (setSlotImage s1 k { img with bytes := bytes }) b tag.toNat 0 []) ∧
        ∀ i, kvGet (fun _ => Config.erasedByte) bytes i =
          if off.toNat ≤ i ∧ i < off.toNat + len.toNat then memGet s.mem (addr.toNat + (i - off.toNat))
          else kvGet (fun _ => Config.erasedByte) img.bytes i) ∧
    (Accepts s secure 0x0503 → s1 = boxed s b [x] → img.open_ = true → 60 ≤ x.toNat → x.toNat ≤ 86400 →
      (imageSigned s img = false → exec (.updateCommit (.box secure) tag x) s = .next (boxDone s1 b tag.toNat 0x23 [])) ∧
      (imageSigned s img = true → slotSvn img < s.fwl.fuses.fwsvn →
        exec (.updateCommit (.box secure) tag x) s = .next (boxDone s1 b tag.toNat 0x24 [])) ∧
      (imageSigned s img = true → s.fwl.fuses.fwsvn ≤ slotSvn img →
        ∃ t, exec (.updateCommit (.box secure) tag x) s = .next (boxDone t b tag.toNat 0 []) ∧
          t = { s1 with firm := t.firm, diary := t.diary, regs := t.regs } ∧
          (getSlotImage t k).open_ = false ∧ (getSlotImage t k).bytes = img.bytes ∧ (selector t).trial = 1 ∧
          (selector t).tries = 2 ∧ (selector t).trialWin = x.toNat ∧ (selector t).active = (selector s).active ∧
          (selector t).gen = (selector s).gen + 1)) ∧
    (Accepts s secure 0x0504 → s1 = boxed s b [] → s.firm.fw = 1 → s.chk.st = 1 → s.firm.svcSinceTrial = false →
      (s.firm.trial = true → ∃ t, exec (.updateConfirm secure tag) s = .next (boxDone t b tag.toNat 0 []) ∧
        t = { s1 with firm := t.firm, diary := t.diary, regs := t.regs, fwl := t.fwl } ∧
        t.firm.trial = false ∧ t.firm.trialEnd = none ∧ (selector t).active = s.firm.slot ∧ (selector t).trial = 0 ∧
        t.fwl.fuses.fwsvn = max s.fwl.fuses.fwsvn (min 32 (slotSvn (getSlotImage s s.firm.slot)))) ∧
      (s.firm.trial = false → exec (.updateConfirm secure tag) s = .next (boxDone s1 b tag.toNat 0x22 []))) ∧
    (Accepts s secure 0x0505 → s1 = boxed s b [] → img.open_ = true →
      ∃ t, exec (.updateAbort (.box secure) tag) s = .next (boxDone t b tag.toNat 0 []) ∧ getSlotImage t k = {} ∧
        selector t = selector s ∧ t = { s1 with firm := t.firm, diary := t.diary, regs := t.regs })

/-- R562, R563, R608, R656: PROVISION of an unprovisioned module writes OWNH from memory and blows DBGDIS and PROV, once.
PROVREC_WRITE takes a record that the owner's key has signed and whose SVN is at least PSVN, and answers UPD_SIG or UPD_SVN for
another. VERSION with protocol major 1 sets the function's DONE and answers the identity words. A block write of the SMBus whose
address and PEC are right runs its command in the SMBus box, as the non-secure world, after it has acted as a wake source; any
other is discarded. -/
def Obligations.ProvisioningAndHandshake : Prop :=
  ∀ (s : State) (secure : Bool) (tag : BitVec 16) (addr : BitVec 64) (p g : Reg) (s1 : State),
    let b := b2n secure
    (Accepts s secure 0x0601 → s1 = boxed s b (addrArgs addr) →
      (s.fwl.fuses.prov = true → exec (.provision secure tag addr) s = .next (boxDone s1 b tag.toNat 0x22 [])) ∧
      (s.fwl.fuses.prov = false → boxSpan s1 b false addr.toNat 48 = true → exec (.provision secure tag addr) s
        = .next (boxDone { s1 with fwl := { s1.fwl with fuses := { s1.fwl.fuses with ownh := BitVec.ofNat 384 (beNat (peek s addr.toNat 48)), dbgdis := true, prov := true } } } b tag.toNat 0 []))) ∧
    (Accepts s secure 0x0602 → s1 = boxed s b (addrArgs addr) → boxSpan s1 b false addr.toNat 521 = true →
      s.firm.flashBad = false → s.health.railsDown.contains 7 = false → ∀ l, l = peek s addr.toNat 521 →
      ∀ ok, ok = Config.ownerSigOk s.fwl.fuses.ownh (Config.sha384 (l.take 425)) (slice l 425 96) →
      (ok = false → exec (.provrecWrite secure tag addr) s = .next (boxDone s1 b tag.toNat 0x23 [])) ∧
      (ok = true → leAt l 0 1 < s.fwl.fuses.psvn → exec (.provrecWrite secure tag addr) s = .next (boxDone s1 b tag.toNat 0x24 [])) ∧
      (ok = true → s.fwl.fuses.psvn ≤ leAt l 0 1 → exec (.provrecWrite secure tag addr) s
        = .next (boxDone { s1 with fwl := { s1.fwl with prov := some (provOf l) } } b tag.toNat 0 []))) ∧
    (Accepts s secure 0x0701 → s1 = boxed s b [p, g] →
      (p.toNat / 256 % 256 ≠ 1 ∨ g.toNat % 2 ^ 16 = 0 →
        exec (.version (.box secure) tag p g) s = .next (boxDone s1 b tag.toNat 0x21 [])) ∧
      (p.toNat / 256 % 256 = 1 → g.toNat % 2 ^ 16 ≠ 0 → ∃ rsp, exec (.version (.box secure) tag p g) s
          = .next (boxDone (setFn s1 b { getFn s b with done := true }) b tag.toNat 0 rsp) ∧
        nth 0 rsp 0 = 1 ∧ nth 0 rsp 1 = 0x01000100 ∧ nth 0 rsp 2 = 1 ∧ nth 0 rsp 3 = 0x0100 ∧
        nth 0 rsp 5 + 2 ^ 32 * nth 0 rsp 6 = Config.dramBytes ∧ nth 0 rsp 7 = s.firm.version ∧ nth 0 rsp 8 % 4 = s.cls % 4)) ∧
    (∀ a pec op args, (a.val ≠ s.pins.smbAddr ∨ pec = false → exec (.smbusBlockWrite a pec op tag args) s = .next s) ∧
      (a.val = s.pins.smbAddr → pec = true → s.power.st = .run → s.power.bootStep = 7 → s.health.railsDown.contains 8 = false →
        exec (.smbusBlockWrite a pec op tag args) s
          = .next (boxRun (wakeSource s 1) 2 op.toNat tag.toNat (args.take 16) (boxWorkOf op.toNat tag.toNat))))

/-- R569 to R571, R574, R580 to R582, R586: a power command written to PWR_CMD that the block takes (no command or entry runs, RUN,
started up, no thermal trip). DOZE in a quiet module is entered at once and counted, and waits otherwise with BUSY set. VIGIL
and SOLSTICE are refused with RESULT 5 while a SAFETY graph runs and FORCE is clear, and else begin the entry at its step 2 with
every running graph DRAINING. OFF, MODULE_RESET, CLUSTER_RESET and UNIT_RESET are refused with RESULT 1 from the non-secure
world; from the secure world OFF is entered with the outputs low; a module reset keeps module time and DRAM, loses SOM and names
CMD as its cause; a cluster or unit reset counts itself and advances the epochs of exactly its units. -/
def Sys2Proof.Machine.powerCommandsClaim : Prop :=
  ∀ (s : State) (secure force : Bool) (k u : BitVec 8), Reaches s secure (pwrWorld s) (pwrBase + 0x20) →
    flag s (pwrBase + 0x24) 31 = false → powerBusy s = false → s.power.bootStep = 7 → s.health.tripped = false →
    let enters (c : Instr) (tgt : PState) : Prop :=
      (force = false → safetyRuns s = true → exec c s = .next (pwrDone s 5)) ∧
      ((force = true ∨ safetyRuns s = false) → getN s (pwrBase + 0x3C) = 0xFFFFFFFF →
        ∃ t, exec c s = .next t ∧ t.power.entering = some (tgt, 2) ∧ flag t (pwrBase + 0x24) 31 = true ∧
          t.power.restart = (s.graphs.filter fun p => p.2.st == .running).map Prod.fst ∧
          (∀ n c g, c < 2 → getGraph s n c = some g → g.st = .running → ∃ g', getGraph t n c = some g' ∧ g'.st = .draining) ∧
          t.mem = s.mem)
    (quiet s = true → exec (.doze secure none) s
      = .next (pwrDone (enterDoze s) 0) ∧ (enterDoze s).power.st = .doze ∧ (enterDoze s).mem = s.mem ∧
        (enterDoze s).graphs = s.graphs) ∧
    (quiet s = false → exec (.doze secure none) s
      = .next (setR { s with power := { s.power with dozePend := true } } (pwrBase + 0x24) 0x80000000)) ∧
    enters (.vigil secure none force) .vigil ∧ enters (.solstice secure none force) .solstice ∧
    (secure = false → exec (.off secure none) s = .next (pwrDone s 1) ∧ exec (.moduleReset (.box secure) none) s = .next (pwrDone s 1) ∧
      exec (.clusterReset secure none k) s = .next (pwrDone s 1) ∧ exec (.unitReset secure none u) s = .next (pwrDone s 1)) ∧
    (secure = true →
      (∃ t, exec (.off secure none) s = .next t ∧ t.power.st = .off ∧ t.power.offByCmd = true ∧ t.pins.modPg = false ∧
        t.pins.nvPerstN = false ∧ t.pins.nvPwrEn = false ∧ t.boxes = []) ∧
      (∃ t, exec (.moduleReset (.box secure) none) s = .next t ∧ t.power.st = .run ∧ t.power.bootStep = 7 ∧ t.time.ns = s.time.ns ∧
        getR t (pwrBase + 0x48) = 0x10 ∧
        (s.resident = [] → t.graphs = [] ∧ (∀ a, spaceOf a = .dram → memGet t.mem a = memGet s.mem a) ∧
          ∀ a, spaceOf a = .som → memGet t.mem a = memEmpty)) ∧
      (k.toNat ≤ 12 → clusterOn s k.toNat = true →
        ∃ t, exec (.clusterReset secure none k) s = .next t ∧ getR t (pwrBase + 0x31C) = getR s (pwrBase + 0x31C) + 1 ∧
          ∀ v, getUnit t v = if v ∈ clusterUnits k.toNat then { getUnit s v with epoch := nextEpoch (getUnit s v).epoch, held := nextEpoch (getUnit s v).epoch } else getUnit s v) ∧
      (k.toNat ≤ 12 → clusterOn s k.toNat = false → exec (.clusterReset secure none k) s = .next (pwrDone s 6)) ∧
      (managed u.toNat = true → unitOn s u.toNat = true →
        ∃ t, exec (.unitReset secure none u) s = .next t ∧ getR t (pwrBase + 0x320) = getR s (pwrBase + 0x320) + 1 ∧
          ∀ v, getUnit t v = if v = u.toNat then { getUnit s v with epoch := nextEpoch (getUnit s v).epoch, held := nextEpoch (getUnit s v).epoch } else getUnit s v) ∧
      (managed u.toNat = true → unitOn s u.toNat = false → exec (.unitReset secure none u) s = .next (pwrDone s 6)))

/-- R570, R607: the same commands sent to the mailbox, from a box that accepts them, do the same to the state that holds their
arguments, and answer the box. -/
def Sys2Proof.Machine.powerCommandsByMailboxClaim : Prop :=
  ∀ (s : State) (secure force : Bool) (tag : BitVec 16) (k u : BitVec 8) (s1 : State), powerBusy s = false →
    s.power.bootStep = 7 → s.health.tripped = false →
    let b := b2n secure
    (Accepts s secure 0x0201 → s1 = boxed s b [0] → boxMay b (pwrWorld s1) = true → quiet s = true →
      exec (.doze secure (some tag)) s = .next (boxDone (enterDoze s1) b tag.toNat 0 [])) ∧
    (Accepts s secure 0x0202 → s1 = boxed s b [reg (b2n force)] → boxMay b (pwrWorld s1) = true →
      force = true ∨ safetyRuns s = false → getN s (pwrBase + 0x3C) = 0xFFFFFFFF →
      ∃ t, exec (.vigil secure (some tag) force) s = .next t ∧ t.power.entering = some (.vigil, 2) ∧
        t.boxes = kvPut s.boxes b { tag := tag.toNat, op := 0x0202, arg := b2n force, since := now s }) ∧
    (Accepts s secure 0x0203 → s1 = boxed s b [reg (b2n force)] → boxMay b (pwrWorld s1) = true →
      force = true ∨ safetyRuns s = false → getN s (pwrBase + 0x3C) = 0xFFFFFFFF →
      ∃ t, exec (.solstice secure (some tag) force) s = .next t ∧ t.power.entering = some (.solstice, 2) ∧
        t.boxes = kvPut s.boxes b { tag := tag.toNat, op := 0x0203, arg := b2n force, since := now s }) ∧
    (Accepts s secure 0x0204 → s1 = boxed s b [0] →
      exec (.off secure (some tag)) s = .next (enterOff true (boxDone s1 b tag.toNat 0 []))) ∧
    (Accepts s secure 0x0205 → s1 = boxed s b [0] →
      exec (.moduleReset (.box secure) (some tag)) s = .next (moduleReset 5 (boxDone s1 b tag.toNat 0 []))) ∧
    (Accepts s secure 0x0206 → s1 = boxed s b [reg k.toNat] → k.toNat ≤ 12 → clusterOn s k.toNat = true →
      exec (.clusterReset secure (some tag) k) s = .next (boxDone (clusterReset k.toNat s1) b tag.toNat 0 [])) ∧
    (Accepts s secure 0x0207 → s1 = boxed s b [reg u.toNat] → managed u.toNat = true → unitOn s u.toNat = true →
      exec (.unitReset secure (some tag) u) s = .next (boxDone (unitReset u.toNat s1) b tag.toNat 0 []))

/-- The power and reset commands by register and by mailbox: the two statements above together. -/
def Obligations.PowerCommands : Prop :=
  powerCommandsClaim ∧ powerCommandsByMailboxClaim

/-- R569, R571, R574, R576: the steps of an entry. A quiet module with PWR_DOZEIDLE set enters DOZE. An entry at step 2 goes to
step 3 once every timed frame has drained; at step 3 the packets left on the HOST queues and the notices not yet placed are
discarded and counted in PWR_CNT_PKTLOST, the last dated counters go to the diary and the open segments close; at step 4 it goes
on once the spools are written, an unanswered shutdown of the drive being counted; at step 5 the state is parked and the domains
are powered off, SOM outside parked placements losing its bytes but for the keeping bank in VIGIL (log entry 80); at the end of step 6 the target state is entered and counted. -/
def Obligations.PowerEntrySteps : Prop :=
  ∀ (s : State) (tgt : PState), tgt = .vigil ∨ tgt = .solstice →
    (getN s (pwrBase + 0x44) ≠ 0 → s.power.st = .run → dieOn s = true → s.power.entering = none → s.power.dozePend = false →
      quiet s = true → s.boxes = [] → flag s (pwrBase + 0x24) 31 = false →
      ∃ t, exec .dozeIdleExpiry s = .next t ∧ t = { s with power := { s.power with st := .doze }, regs := t.regs, diary := t.diary } ∧
        getR t (pwrBase + 0x300) = getR s (pwrBase + 0x300) + 1) ∧
    (s.power.entering = some (tgt, 2) → (∀ n, n < 20 → slotsDrained s n = true) →
      exec .entryDrainComplete s = .next { s with power := { s.power with entering := some (tgt, 3) } }) ∧
    (s.power.entering = some (tgt, 3) → ∀ s2 lost,
      (List.range 20).foldl dropNotices ((hostQueues s).foldl dropHostQueue (s, 0)) = (s2, lost) →
      exec .hostwaitExpiry s = .next (setStep ((List.range 16).foldl closeSeg (streamsEntries
        (if lost = 0 then s2 else raise (incBy s2 (pwrBase + 0x310) lost) (pwrBase + 0x10) 2))) 4)) ∧
    (∀ answered, s.power.entering = some (tgt, 4) → (∀ n, n < 16 → (getRing s n).spool = []) → s.cdc.write = none →
      exec (.entrySegmentsClosed answered) s = .next (setStep (if s.hif.nv.up = true ∧ answered = false then shutdownFailed s
        else s) 5)) ∧
    (s.power.entering = some (tgt, 5) → ∃ t, exec .parkComplete s = .next t ∧ t.power.entering = some (tgt, 6) ∧
      t.flags = [] ∧ t.gens = [] ∧ t.tags = [] ∧ t.sched.tasks = [] ∧ t.ctxs = [] ∧ (∀ k g, (k, g) ∈ t.graphs → g.st = .ready) ∧
      t.time = s.time ∧ (∀ a, spaceOf a ≠ .som ∨ (tgt = .vigil ∧ inKeepingBank a = true) ∨ inParked s a = true →
        memGet t.mem a = memGet s.mem a) ∧
      (∀ a, spaceOf a = .som → (tgt = .vigil → inKeepingBank a = false) → inParked s a = false → memGet t.mem a = memEmpty)) ∧
    (s.power.entering = some (tgt, 6) → s.power.heldWake = false → s.boxes = [] →
      ∃ t, exec .parkComplete s = .next t ∧ t.power.st = tgt ∧ t.power.entering = none ∧ t.mem = s.mem ∧
        getR t (pwrBase + (if tgt = .vigil then 0x304 else 0x308)) = getR s (pwrBase + (if tgt = .vigil then 0x304 else 0x308)) + 1)

/-- R572, R573, R575, R576: an enabled wake source that wakes from the state the module is in, or enters, is recorded in
PWR_WAKESRC: before step 6 it cancels the entry, which is counted; during step 6 it is held; in DOZE, VIGIL or SOLSTICE it starts
the exit, in the latter two with the queue pool in TEST. An exit out of DOZE, and out of VIGIL or SOLSTICE once the pool runs,
reaches RUN with WOKE. PWR_WAKETIME and HOST_WAKE_N are sources 2 and 0. -/
def Obligations.WakeAndExit : Prop :=
  ∀ (s : State), s.power.exiting = false → s.power.bootStep = 7 → s.health.tripped = false →
    (∀ (b : Fin 9) (tgt : PState) (k : Nat), s.power.entering = some (tgt, k) → bit b (wakeMask tgt) = true →
      flag s (pwrBase + 0x30) b = true →
      (6 ≤ k → ∃ t, exec (.wakeSource b) s = .next t ∧ t.power = { s.power with heldWake := true } ∧
        flag t (pwrBase + 0x34) b = true ∧ t = { s with regs := t.regs, pins := t.pins, power := t.power }) ∧
      (k < 6 → s.power.restart = [] → s.boxes = [] → ∃ t, exec (.wakeSource b) s = .next t ∧ t.power.entering = none ∧
        flag t (pwrBase + 0x34) b = true ∧ getR t (pwrBase + 0x30C) = getR s (pwrBase + 0x30C) + 1 ∧ t.mem = s.mem)) ∧
    (∀ b : Fin 9, s.power.entering = none → bit b (wakeMask s.power.st) = true → flag s (pwrBase + 0x30) b = true →
      ∃ t, exec (.wakeSource b) s = .next t ∧ t.power.exiting = true ∧ flag t (pwrBase + 0x34) b = true ∧
        (s.power.st = .vigil ∨ s.power.st = .solstice → t.pool.st = .test) ∧
        t = { s with regs := t.regs, pins := t.pins, power := t.power, pool := t.pool }) ∧
    exec .hostWakeNAssert s = exec (.wakeSource 0) s ∧
    (∀ w, wakeTime s = some w → s.power.st = .doze ∨ s.power.st = .vigil ∨ s.power.st = .solstice →
      exec .waketimeReached s = exec (.wakeSource 2) (advance s w)) ∧
    (∀ t, t = { s with power := { s.power with exiting := true } } → t.power.st = .doze →
      ∃ t', exec .exitToRun t = .next t' ∧ t'.power.st = .run ∧ t'.power.exiting = false ∧ flag t' (pwrBase + 0x10) 1 = true ∧
        t'.graphs = s.graphs ∧ t'.mem = s.mem) ∧
    (∀ t, t = { s with power := { s.power with exiting := true, restart := [] } } → t.power.st = .vigil ∨ t.power.st = .solstice →
      t.pool.st = .run → s.boxes = [] → ∃ t', exec .exitToRun t = .next t' ∧ t'.power.st = .run ∧ t'.power.exiting = false ∧
        flag t' (pwrBase + 0x10) 1 = true ∧ t'.graphs = s.graphs ∧ t'.mem = s.mem)

/-- R580, R581, R583, R673, R678, R679: the pins and the supply. MOD_EN asserted in OFF begins a power-on reset with POR and
MODEN, but not after the OFF command; deasserted, it takes the module to OFF with the outputs low. A supply that becomes valid
begins a power-on reset with POR, and with SUPPLY after a brownout. A brownout turns everything off. A power-on reset that has
begun runs to its end: module time starts at 0 and the SMBus address is what its pins read. MOD_RST_N is a module reset with
RSTPIN, which during the start of a power-on reset is only named beside its causes, and is ignored in OFF. -/
def Obligations.PinsAndSupply : Prop :=
  ∀ (s : State),
    (s.power.st = .off → s.power.supply = true → s.power.offByCmd = false → s.power.brownout = false →
      exec .modEnAssert s = .next (setR { s with pins := { s.pins with modEn := true }, power := { st := .run, supply := true, bootStep := 1 } } (pwrBase + 0x48) 5)) ∧
    (s.power.st = .off → s.power.offByCmd = true →
      exec .modEnAssert s = .next { s with pins := { s.pins with modEn := true } }) ∧
    (s.power.st ≠ .off → ∃ t, exec .modEnDeassert s = .next t ∧ t.power.st = .off ∧ t.power.offByCmd = false ∧ t.graphs = [] ∧
      t.pins.modEn = false ∧ t.pins.modPg = false ∧ t.pins.nvPerstN = false ∧ t.pins.nvPwrEn = false) ∧
    (s.power.st = .off → exec .modEnDeassert s
      = .next { s with pins := { s.pins with modEn := false }, power := { s.power with offByCmd := false } }) ∧
    (s.power.supply = false → s.pins.modEn = true →
      exec .supplyValid s = .next (setR { s with power := { st := .run, supply := true, bootStep := 1 } } (pwrBase + 0x48) (if s.power.brownout then 3 else 1))) ∧
    (s.power.supply = true → ∃ t, exec .supplyBrownout s = .next t ∧ t.power = { st := .off, supply := false, brownout := true } ∧
      t.boxes = [] ∧ t.graphs = [] ∧ t.queues = [] ∧ t.mem = [] ∧ t.sched.tasks = [] ∧ t.diary.buffer = [] ∧
      t.diary.flash = s.diary.flash ∧ t.time = s.time ∧ t.pins.modPg = false) ∧
    (∀ straps : Fin 4, s.power.bootStep = 1 → ∃ t, exec (.powerOnReset straps) s = .next t ∧ t.power.bootStep = 7 ∧
      t.power.st = .run ∧ t.time.ns = 0 ∧ t.pins.smbAddr = 0x58 + straps.val ∧ getR t (pwrBase + 0x48) = getR s (pwrBase + 0x48) ∧
      (s.resident = [] → t.mem = [] ∧ t.graphs = [])) ∧
    (s.pins.modEn = true → s.power.st ≠ .off →
      (s.power.bootStep = 1 → exec .modRstNAssert s = .next (setR s (pwrBase + 0x48) (setBit 3 (getR s (pwrBase + 0x48))))) ∧
      (s.power.bootStep ≠ 1 → ∃ t, exec .modRstNAssert s = .next t ∧ getR t (pwrBase + 0x48) = 8 ∧ t.time.ns = s.time.ns ∧
        t.power.bootStep = 7)) ∧
    (s.power.st = .off → exec .modRstNAssert s = .next s)

/-- R588, R589, R597, R611, R587, R596: a sample of a sensor that is on leaves its value, clamped to the sensor's range with the
clamp marked, in the sensor's register. RAILWARN of a rail more than 5% off raises RAIL with a diary entry; RAILFAULT of one more
than 8% off turns the rail off and declares service. SUPPLYLOW is raised below 9,000 mV. The audit reads every managed unit and
hands its values to the checker. The management watchdog and the trial watchdog are module resets with MGMTWD. -/
def Obligations.SensorsAndRails : Prop :=
  ∀ (s : State),
    (∀ (k : SensorKind) (i : Fin 16) (v : BitVec 32), sensorOn s k i = true → k ≠ .temp →
      (sensorRange k i).1 ≤ v.toInt → v.toInt ≤ (sensorRange k i).2 →
      exec (.sensorSample k i v) s = .next (setR s (sensorReg k i) (reg v.toInt.toNat))) ∧
    (∀ (i : Fin 16) (v : BitVec 32), sensorOn s .temp i = true → i.val < 12 → -320 ≤ v.toInt → v.toInt ≤ 1200 →
      ∃ t, exec (.sensorSample .temp i v) s = .next t ∧ tempOf t i = v.toInt ∧ flag t (mgcBase + 0x100 + 4 * i.val) 31 = false ∧
        t = { s with regs := t.regs, health := t.health } ∧
        ∀ a, a ≠ mgcBase + 0x100 + 4 * i.val → a ≠ mgcBase + 0x28 → getR t a = getR s a) ∧
    (∀ (r : Fin 10) (mv : Fin 65536), railOn s r = true → railOut r mv 5 = true →
      exec (.railwarn r mv) s = .next (raise (diary s 0x81 1 false { code := r, detail := mv }) (mgcBase + 0x10) 4)) ∧
    (∀ (r : Fin 10) (mv : Fin 65536), railOn s r = true → railOut r mv 8 = true → r ≠ 9 →
      exec (.railfault r mv) s
        = .next (railOff (service (diary (raise s (mgcBase + 0x10) 4) 0x81 3 false { code := r, detail := mv }) 4) r) ∧
      (r ≠ 3 → (railOff s r).health.railsDown.contains r.val = true) ∧ (r = 3 → (railOff s r).power.st = .off)) ∧
    (flag s (mgcBase + 0x168) 30 = false → field s (mgcBase + 0x168) 15 0 < 900 → s.power.st ≠ .off →
      exec .supplylow s = .next (raise s (mgcBase + 0x10) 5)) ∧
    (dieOn s = true → s.firm.fw = 1 → s.chk.st ≠ 2 → exec .audit s = .next { inc s (mgcBase + 0x40) with chk := { s.chk with jobs := s.chk.jobs ++ [.audit (managedUnits.map (auditRead s))] } }) ∧
    (s.power.st ≠ .off → s.power.bootStep = 7 →
      ∃ t, exec .managementWatchdogExpiry s = .next t ∧ getR t (pwrBase + 0x48) = 0x40 ∧ t.time.ns = s.time.ns ∧
        t.power.bootStep = 7) ∧
    (∀ w, s.firm.trialEnd = some w → timeRuns s = true → ∃ t, exec .trialWindowExpiry s = .next t ∧ getR t (pwrBase + 0x48) = 0x40 ∧
      t.time.ns = max w s.time.ns)

/-- R148, R152, R155, R567, R590: the heat control. THERMWARN is reported and wakes the module. A step down lowers the clock
asked for by 50 MHz to no less than 300 MHz from 100 °C on, and to 300 MHz at once from 110 °C on; a step up raises it by 50 MHz
to no more than F. A change of clock that completes becomes the current clock, is counted and raised, and shedding follows. A
shed graph is restored when the set passes. At 120 °C the module trips: the compute die loses its state and power; a module
reset with THERMTRIP ends the trip when every reading is 85 °C or less. -/
def Obligations.HeatAndClock : Prop :=
  ∀ (s : State), dieOn s = true → (s.clock.target = none → s.clock.waiting = none) →
    (reaches (tmax s) (warnT s) = true ∨ reaches (boardMax s) 90 = true →
      exec .thermwarn s = .next (wakeSource (thermEntry (raise s (mgcBase + 0x10) 3) 1) 8)) ∧
    (300 < goalClock s → reaches (tmax s) 110 = true →
      ∃ t, exec .thermalStepDown s = .next t ∧ goalClock t = 300 ∧
        t = { s with clock := t.clock, health := t.health, diary := t.diary, regs := t.regs }) ∧
    (300 < goalClock s → reaches (tmax s) 110 = false → reaches (tmax s) 100 = true → s.health.lastDown = none →
      ∃ t, exec .thermalStepDown s = .next t ∧ goalClock t = max 300 (goalClock s - 50) ∧
        t = { s with clock := t.clock, health := t.health, diary := t.diary, regs := t.regs }) ∧
    (∀ w, s.health.coolSince = some w → goalClock s < classClock s.cls →
      ∃ t, exec .thermalStepUp s = .next t ∧ goalClock t = min (classClock s.cls) (goalClock s + 50) ∧
        now t = max (w + 1000000000) (now s) ∧
        t = { s with clock := t.clock, health := t.health, diary := t.diary, regs := t.regs, time := t.time, chk := t.chk }) ∧
    (∀ f, s.clock.target = some f → classClock s.cls ≤ f →
      ∃ t, exec .clockChangeComplete s = .next t ∧ t.clock.cur = f ∧ t.clock.waiting = none ∧
        t.clock.target = (s.clock.waiting.bind fun w => if w = f then none else some w) ∧
        getR t (pwrBase + 0x324) = getR s (pwrBase + 0x324) + 1 ∧ flag t (pwrBase + 0x10) 4 = true ∧
        t = { s with clock := t.clock, health := t.health, regs := t.regs, out := t.out }) ∧
    (shedCount s ≠ 0 → s.health.freed = true → s.health.lastRestore = none → shedCount (restoreOne s) < shedCount s →
      exec .shedRestore s = .next { restoreOne s with health := { (restoreOne s).health with lastRestore := some (now (restoreOne s)) } }) ∧
    (s.health.tripped = false → reaches (tmax s) 120 = true →
      ∃ t, exec .thermalTrip s = .next t ∧ t.health.tripped = true ∧ dieOn t = false ∧ t.graphs = [] ∧ t.queues = [] ∧
        t.sched.tasks = []) ∧
    (∀ u, u = { s with health := { s.health with tripped := true } } → allCool u = true →
      ∃ t, exec .thermalTrip u = .next t ∧ getR t (pwrBase + 0x48) = 0x80 ∧ t.power.bootStep = 7)

/-- R257, R260, R266: the burst of the one channel of a cluster that has one ready, between linear buffers of memory, for dated
work that may read and write there, and no longer than BURST, the line and the pages allow: the bytes of the source stand at the
destination, DMA_CH_CNT_BYTES counts them in 64 bytes, the cluster counts the burst, and the channel stands behind them, at the
next line or at the descriptor's end. -/
def Sys2Proof.Machine.dmaMovesABurstClaim : Prop :=
  ∀ (s : State) (k c : Fin 8) (i e : Nat) (t : Task) (d : DmaRun), i = 8 * k + c → chTask s i = some (e, t, d) →
    getTask s e = some t → t.units = [64 + i] → (∀ c', c' < 8 → c' ≠ c.val → chTask s (8 * k + c') = none) →
    d.phase = .move → d.st = .run → d.pmode = 0 → t.dataGen = 0 → dSmode d.desc = 0 → dDmode d.desc = 0 → dSwap d.desc = 0 →
    let sa := (dSrc d.desc + (d.line * dSstride d.desc + d.off)) % 2 ^ 64
    let da := (dDst d.desc + (d.line * dDstride d.desc + d.off)) % 2 ^ 64
    let n := dLen d.desc - d.off
    0 < n → n ≤ dBurst d.desc → sa % 4096 + n ≤ 4096 → da % 4096 + n ≤ 4096 → Readable s (64 + i) t.sc sa n →
    Writable s (64 + i) t.sc da n →
    ∃ t', exec (.dmaBurstStart k) s = .next t' ∧
      t' = { s with regs := t'.regs, mem := memPutAll s.mem da (peek s sa n), memBad := t'.memBad, sched := t'.sched, dmaLast := t'.dmaLast } ∧
      getR t' (chBase i + 0x44) = getR s (chBase i + 0x44) + reg (n / 64) ∧
      getR t' (dmaBase k + 0x20) = getR s (dmaBase k + 0x20) + 1 ∧
      getTask t' e = some { t with dma := some (if d.line + 1 < dLines d.desc then { d with fresh := false, off := 0, line := d.line + 1 }
        else { d with fresh := false, phase := .complete }) }

/-- R258, R261, R268, R270 to R275: a channel's descriptors. A fetched descriptor that passes its checks becomes the current one,
one that fails them is the channel's error. A descriptor that is complete is counted, raises DONE where it asks for it, and its
NEXT is read, which clears the doorbell latch. NEXT leads to the next descriptor, or ends the task at 0. A doorbell is counted
and latched while the channel works, and is spurious at an idle or halted one. FINISH ends a parked task, or, while its NEXT is being read again, marks it to end at 0. An error or a timeout of an access
leaves its code and address in DMA_CH_ERR, raises ERR and halts the channel; CLEAR ends the halt. -/
def Sys2Proof.Machine.dmaChannelsClaim : Prop :=
  ∀ (s : State) (i : Fin 64) (e : Nat) (t : Task) (d : DmaRun), getTask s e = some t → t.dataGen = 0 →
    (chTask s i = some (e, t, d) → d.phase = .fetch → d.st = .run → d.dcount < d.dlimit → Readable s (64 + i) t.sc d.cur 64 →
      ∀ l, l = peek s d.cur 64 →
      (descCheck l = 0 → queueCheck s (64 + i) e l = 0 →
        ∃ t', exec (.descriptorFetch i) s = .next t' ∧ t' = { s with sched := t'.sched } ∧
          getTask t' e = some { t with dma := some { d with desc := l, dcount := d.dcount + 1, line := 0, off := 0, pos := 0, buf := [], phase := if dLen l = 0 then .complete else .move } }) ∧
      (descCheck l ≠ 0 → ∃ t' x, exec (.descriptorFetch i) s = .next t' ∧ t' = { s with sched := t'.sched } ∧
        (getTask t' e).map Task.err = some (some x) ∧ x.code = descCheck l ∧ x.addr = d.cur)) ∧
    (chTask s i = some (e, t, d) → d.phase = .complete → d.st = .run →
      (bit 8 (dCtl d.desc) = true → Writable s (64 + i) t.sc (d.cur + 60) 4) →
      ∃ t', exec (.descriptorComplete i) s = .next t' ∧ getTask t' e = some { t with dma := some { d with phase := .next } } ∧
        t'.mem = (if bit 8 (dCtl d.desc) then memPutAll s.mem (d.cur + 60) (leBytes 4 (2 ^ 31)) else s.mem) ∧
        t'.dmaLatch = s.dmaLatch.filter (· != i.val) ∧ getR t' (chBase i + 0x40) = getR s (chBase i + 0x40) + 1 ∧
        (bit 7 (dCtl d.desc) = true → flag t' (chBase i + 0x24) 0 = true)) ∧
    (chTask s i = some (e, t, d) → d.phase = .next → d.st = .run → Readable s (64 + i) t.sc d.cur 8 →
      ∀ nx, nx = leNat (peek s d.cur 8) →
      (nx ≠ 0 → nx % 8 = 0 → nx ≠ d.dbegin → ∃ t', exec (.nextReadReturn i) s = .next t' ∧ t' = { s with sched := t'.sched } ∧
        getTask t' e = some { t with dma := some { d with phase := .fetch, cur := nx, desc := [] } }) ∧
      (nx = 0 → dPark d.desc = false ∨ d.long = false →
        exec (.nextReadReturn i) s = .next (completeTask (setTask s e t) e))) ∧
    (∀ secure, Reaches s secure (unitWorld s (64 + i)) (chBase i + 8) →
      (s.dmaHalt.contains i.val = true ∨ occupant s (64 + i) = none →
        exec (.dmaChDoorbell secure i) s = .next (inc (inc s (chBase i + 0x48)) (chBase i + 0x4C))) ∧
      (s.dmaHalt.contains i.val = false → occupant s (64 + i) = some (e, t) → t.dma = some d → d.st ≠ .park →
        exec (.dmaChDoorbell secure i) s
          = .next { inc s (chBase i + 0x48) with dmaLatch := i.val :: s.dmaLatch.filter (· != i.val) })) ∧
    (∀ secure, Reaches s secure (unitWorld s (64 + i)) (chBase i + 4) →
      (chTask s i = some (e, t, d) → d.st = .park → exec (.finish secure i) s = .next (if d.phase = .next then
        setRun s e { d with finish := true } else completeTask s e)) ∧
      (s.dmaHalt.contains i.val = true → exec (.clear secure i) s
        = .next (setR { s with dmaHalt := s.dmaHalt.filter (· != i.val) } (chBase i + 0x20) 0))) ∧
    (∀ x, occupant s (64 + i) = some (e, t) → t.err = some x →
      ∃ t', exec (.dmaError i) s = .next t' ∧ i.val ∈ t'.dmaHalt ∧
        getR t' (chBase i + 0x20) = reg (2 ^ 31 + 256 * b2n x.fetch + x.code) ∧ getR t' (chBase i + 0x18) = reg x.addr ∧
        getR t' (chBase i + 0x1C) = reg (x.addr / 2 ^ 32) ∧ flag t' (chBase i + 0x24) 1 = true) ∧
    (chTask s i = some (e, t, d) → accessOut s i d = true →
      ∃ t', exec (.dmaTimeout i) s = .next t' ∧ i.val ∈ t'.dmaHalt ∧
        getR t' (chBase i + 0x20) = reg (2 ^ 31 + 256 * b2n (d.phase != .move) + 4) ∧ flag t' (chBase i + 0x24) 1 = true)

/-- A DMA channel's bursts, descriptors, commands and errors: the two statements above together. -/
def Obligations.DmaTransfers : Prop :=
  dmaMovesABurstClaim ∧ dmaChannelsClaim

/-- R316, R569: a camera port receives: the image pipelines are powered and the port is enabled. -/
def Sys2Proof.Machine.PortOn (s : State) (port : Nat) : Prop :=
  pxcOn s = true ∧ flag s (ispBase port + 0x30000) 31 = true

/-- R76: no graph command waits for its effective time. -/
def Sys2Proof.Machine.NothingDue (s : State) : Prop :=
  ∀ n k g, getGraph s n k = some g → g.startAt = none ∧ g.stopAt = none ∧ g.takeAt = none

/-- R282: pipeline `n` alone takes what arrives on a port and a virtual channel, over a sound packet. -/
def Sys2Proof.Machine.TakesPort (s : State) (port vc n : Nat) : Prop :=
  PortOn s port ∧ owners s port vc = [n] ∧ ∀ m, m < 16 → ¬ (selects s m port vc = true ∧ overshadowed s m port vc = true)

/-- R22, R54, R64, R284, R304: a frame start at a single pipeline whose graph runs with no effect due, no batch waiting and no frame
in progress: the frame counter advances; the frame takes the next slot where that is FREE, which becomes OPEN for it with this
counter and this instant as its time-stamp, and is dropped and counted in LEAPS where it is not; memory stays. -/
def Sys2Proof.Machine.frameStartsClaim : Prop :=
  ∀ (s : State) (port : Fin 4) (vc n : Fin 16) (c : Nat) (g : Graph), TakesPort s port vc n → pipeStream s n = n →
    runningGraph s n = some (c, g) → NothingDue s →
    (getPipe s n).cur = none → (getPipe s n).batches = [] → (getPipe s n).setErr = false → takesThumb s n (now s) = false →
    partnerOf s n = none → s.clock.fromF = none → (getSeq s n).decim = 0 →
    let q := getSeq s n
    ∃ t f, exec (.frameStart port vc .ok) s = .next t ∧ (getPipe t n).cur = some f ∧ (getPipe t n).starts = (getPipe s n).starts + 1 ∧
      (getSeq t n).frameCtr = (q.frameCtr + 1) % 2 ^ 32 ∧ f.acc = true ∧ f.frame = q.frameCtr ∧ f.tstamp = now s ∧ f.lines = [] ∧
      t.mem = s.mem ∧ t.queues = s.queues ∧ t.graphs = s.graphs ∧
      getR t (ispBase n + 0x3000) = getR s (ispBase n + 0x3000) + 1 ∧
      ((getSlot s n q.nextOpen).st = .free → f.slot = some (n.val, q.nextOpen) ∧ (getSeq t n).nextOpen = (q.nextOpen + 1) % 4 ∧
        (getSeq t n).leaps = q.leaps ∧ (getSlot t n q.nextOpen).st = .open_ ∧ (getSlot t n q.nextOpen).ctx = c ∧
        (getSlot t n q.nextOpen).frame = q.frameCtr ∧ (getSlot t n q.nextOpen).tstamp = now s) ∧
      ((getSlot s n q.nextOpen).st ≠ .free → f.slot = none ∧ (getSeq t n).nextOpen = q.nextOpen ∧
        (getSeq t n).leaps = q.leaps + 1 ∧ getSlot t n q.nextOpen = getSlot s n q.nextOpen)

/-- R281, R282, R285 to R287, R306: the lines of a frame in progress. An image line of the configured length is kept behind the
others until the frame has its height, and counted as an extra one from there on; one of another length truncates the frame. An
embedded line that is not the echo line is counted. A line without a frame in progress is an orphan, counted and raised. A packet
that no pipeline takes, or whose header cannot be corrected, is only counted by the port where no pipeline listens to it. -/
def Sys2Proof.Machine.linesOfAFrameClaim : Prop :=
  ∀ (s : State) (port : Fin 4) (vc n : Fin 16) (dt : Fin 64) (l : List Byte), PortOn s port →
    let mine := (List.range 16).filter fun n => selects s n port vc && imageType s n dt
    let p := getPipe s n
    (mine = [n.val] → ∀ f, p.cur = some f → f.tcause = 0 → l.length = lineBytes (dt - 0x2A) (geomW s n) →
      (f.lines.length < geomH s n → ∃ t, exec (.imageLine port vc dt .ok true false l) s = .next t ∧ t = { s with pipes := t.pipes } ∧
        getPipe t n = { p with cur := some { f with last := now s, lines := f.lines ++ [unpackLine (rawOf s n) l (geomW s n)] } }) ∧
      (geomH s n ≤ f.lines.length → ∃ t, exec (.imageLine port vc dt .ok true false l) s = .next t ∧ t = { s with pipes := t.pipes } ∧
        getPipe t n = { p with cur := some { f with last := now s, xlines := satN 0xFFFF (f.xlines + 1) } })) ∧
    (mine = [n.val] → ∀ f, p.cur = some f → f.tcause = 0 → l.length ≠ lineBytes (dt - 0x2A) (geomW s n) →
      ∃ t, exec (.imageLine port vc dt .ok true false l) s = .next t ∧
        (getPipe t n).cur = some { f with last := now s, tcause := 1 }) ∧
    (mine = [n.val] → p.cur = none → exec (.imageLine port vc dt .ok true false l) s
      = .next (raise (inc s (ispBase n + 0x301C)) (ispBase n + 0x30) 7)) ∧
    (mine = [] → exec (.imageLine port vc dt .ok true false l) s = .next (inc s (ispBase port + 0x3001C))) ∧
    ((owners s port vc).filter (fun n => embeddedType s n dt) = [n.val] → ∀ f, p.cur = some f →
      f.embedded ≠ bits 31 30 (cfg s n 0x44) →
      ∃ t, exec (.embeddedLine port vc dt .ok true l) s = .next t ∧ t = { s with pipes := t.pipes } ∧
        getPipe t n = { p with cur := some { f with last := now s, embedded := f.embedded + 1 } })

/-- R285 to R288, R310, R311: an accepted frame that ends waits behind the other ended frames; ended by its packet with all its
lines it is whole, ended with fewer lines or by the timeout of 100,000 µs it is SHORT, which is counted and raised. The oldest
ended frame that is done leaves the pipeline with its outputs written. A primary's slot that no partner joined within the window
is marked UNPAIRED and counted, at the first instant after the window (log entry 125). -/
def Sys2Proof.Machine.frameEndsClaim : Prop :=
  ∀ (s : State) (port : Fin 4) (vc n : Fin 16),
    let p := getPipe s n
    (∀ f, TakesPort s port vc n → p.cur = some f → f.acc = true → f.tcause = 0 → f.thumb = false → f.xlines = 0 →
      ∃ t f', exec (.frameEnd port vc .ok) s = .next t ∧ (getPipe t n).cur = none ∧ (getPipe t n).ended = p.ended ++ [f'] ∧
        f'.frame = f.frame ∧ f'.lines = f.lines ∧ f'.slot = f.slot ∧ f'.tend = now s ∧ f'.long = false ∧
        f'.short = decide (f.lines.length < geomH s n) ∧ t.mem = s.mem ∧
        (f.lines.length < geomH s n → getR t (ispBase n + 0x3004) = getR s (ispBase n + 0x3004) + 1)) ∧
    (∀ f, p.cur = some f → f.acc = true → f.tcause = 0 → f.thumb = false → timeRuns s = true →
      ∃ t f', exec (.frameTimeout n) s = .next t ∧ now t = max (f.last + 100000000) (now s) ∧ (getPipe t n).cur = none ∧
        (getPipe t n).ended = p.ended ++ [f'] ∧ f'.frame = f.frame ∧ f'.lines = f.lines ∧ f'.short = true ∧ t.mem = s.mem ∧
        getR t (ispBase n + 0x3004) = getR s (ispBase n + 0x3004) + 1) ∧
    (∀ f, p.ended.find? (fun f => !f.written) = some f → p.hold.map Prod.snd ≠ some f.tstamp →
      exec (.pipelineFrameDone n) s = .next (finishFrame (setPipe s n { p with ended := p.ended.erase f }) n f) ∧
      (f.slot = none → finishFrame (setPipe s n { p with ended := p.ended.erase f }) n f
        = processFrame (setPipe s n { p with ended := p.ended.erase f }) n f)) ∧
    (∀ q i, partnerOf s n = some q → unpairedSlots s n = [i] → timeRuns s = true →
      ∃ t, exec (.pairWindowExpiry n) s = .next t ∧
        now t = max ((getSlot s n i).tstamp + 1000 * bits 13 0 (cfg s n 0x1C) + 1) (now s) ∧
        bit 4 (getSlot t n i).fflags = true ∧ getR t (ispBase n + 0x3018) = getR s (ispBase n + 0x3018) + 1 ∧ t.mem = s.mem)

/-- A camera frame from its start to its end: the three statements above together. -/
def Obligations.CameraFrames : Prop :=
  frameStartsClaim ∧ linesOfAFrameClaim ∧ frameEndsClaim

/-- R58, R302 to R304, R307: a commit of at most 32 sensor writes while the pipeline's graph runs and fewer than four batches wait
becomes a batch with the next settings epoch, which the status names; with four waiting it is refused as full; without a running
graph the staged bank is active at once. Sensor writes whose turn it is and that were all acknowledged leave on the master's bus
in their order, and the batch is written. -/
def Sys2Proof.Machine.settingsBatchesClaim : Prop :=
  ∀ (s : State) (n : Fin 16),
    (∀ secure, Reaches s secure (unitWorld s (160 + n)) (ispBase n + 0x2104) → field s (ispBase n + 0x2100) 21 16 ≤ 32 →
      ∀ e, e = (if (getSeq s n).setEpoch ≥ 0xFFFF then 1 else (getSeq s n).setEpoch + 1) →
      ((runningGraph s (pipeStream s n)).isSome = true → (getPipe s n).batches.length < 4 →
        ∃ t b, exec (.ispSetCommit secure n) s = .next t ∧ (getSeq t n).setEpoch = e ∧
          (getPipe t n).batches = (getPipe s n).batches ++ [b] ∧ b.epoch = e ∧ b.bank = bankAt s (ispBase n) ∧
          b.writes = stagedWrites s n (field s (ispBase n + 0x2100) 21 16) ∧
          (field s (ispBase n + 0x2100) 21 16 = 0 → b.phase = .written ∧ b.effect = some (getPipe s n).starts) ∧
          t = { s with regs := t.regs, seqs := t.seqs, pipes := t.pipes }) ∧
      ((runningGraph s (pipeStream s n)).isSome = true → 4 ≤ (getPipe s n).batches.length →
        exec (.ispSetCommit secure n) s = .next (setStatus s n none 1)) ∧
      ((runningGraph s (pipeStream s n)).isSome = false → field s (ispBase n + 0x2100) 21 16 = 0 →
        exec (.ispSetCommit secure n) s = .next (setStatus (setPipe (setActive s n (bankAt s (ispBase n))) n
          { getPipe s n with cur := (getPipe s n).cur.map (fun f => { f with bank := bankAt s (ispBase n) }) }) n none 4))) ∧
    (∀ b at_ acked, (getPipe s n).direct = [] → (getPipe s n).batches = [b] → b.phase = .issued at_ → hasTurn s n at_ = true →
      b.writes.length ≤ acked → (getPipe s n).cur = none → getScm s (masterOf s n) = [] →
      ∃ t, exec (.sensorWriteComplete n acked) s = .next t ∧
        t.out = s.out ++ b.writes.map (fun w => .sensor (masterOf s n) (bit 23 (cfg s n 0x40)) true (sensorAddr s n) w.1
          (bit 0 (cfg s n 0x40)) (leBytes w.2.1 w.2.2).reverse) ∧
        (getPipe t n).batches = [{ b with
          phase := .written, failed := false, late := false, done := some (now s),
          effect := some ((getPipe s n).starts - 1 + latchOf s n) }] ∧
        t = { s with pipes := t.pipes, out := t.out, scm := t.scm })

/-- R299, R300: a direct transfer on an enabled sensor-control master on which none waits and no batch has writes: a write to a sensor whose graph runs is refused with STATUS
3; any other write leaves on the bus with the data staged and its end in STATUS; a read leaves its end there too, and the
sensor's answer in the data register where it is done; a dynamic address assignment ends as NACKed on a master in I2C mode. An in-band interrupt is NACKed and counted. -/
def Sys2Proof.Machine.sensorControlClaim : Prop :=
  ∀ (s : State) (m : Fin 4) (addr : Fin 128) (r : Fin 65536) (k : Fin 5) (e : ScmEnd) (v : Reg),
    (∀ secure, Reaches s secure (unitWorld s (160 + m)) (ispBase m + 0x31004) → flag s (ispBase m + 0x31000) 31 = true →
      getScm s m = [] → scmFree s m (now s) = true → NothingDue s →
      let i3c := flag s (ispBase m + 0x31000) 30
      let a16 := Config.scmAddr16 m addr r
      let sent (o : Out) (f : State → State) : State := setScm (f (emit s o)) m []
      let status (v : Reg) (s : State) : State := setR s (ispBase m + 0x3100C) v
      (sensorBusy s m addr = true → exec (.scmWrite secure m addr r k e) s = .next (setField s (ispBase m + 0x3100C) 7 0 3)) ∧
      (sensorBusy s m addr = false → exec (.scmWrite secure m addr r k e) s = .next (sent (.sensor m i3c true addr r a16
        (leBytes k (getN s (ispBase m + 0x31008) % 2 ^ (8 * k.val))).reverse) (status (reg (scmCode e))))) ∧
      exec (.scmRead secure m addr r k .done v) s = .next (sent (.sensor m i3c false addr r a16 []) (fun s =>
        setR (status 0 s) (ispBase m + 0x31008) (reg (v.toNat % 2 ^ (8 * k.val))))) ∧
      (e ≠ .done → exec (.scmRead secure m addr r k e v) s
        = .next (sent (.sensor m i3c false addr r a16 []) (status (reg (scmCode e))))) ∧
      exec (.entdaa secure m e) s
        = .next (sent (.sensor m i3c true 0x7E 0x07 false []) (status (if i3c then reg (scmCode e) else 1)))) ∧
    exec (.inBandInterrupt m) s = .next { s with ibi := kvPut s.ibi m (kvGet (fun _ => 0) s.ibi m + 1) }

/-- Settings batches and direct sensor transfers: the two statements above together. -/
def Obligations.CameraControl : Prop :=
  settingsBatchesClaim ∧ sensorControlClaim

/-- R301, R577: frame sync and the vigil detector. A pulse leaves the module at its instant with its WIDTH and polarity, and the next one is PERIOD later, by
the PERIOD written since where there is one. START and PERIOD written while EN is 0 are kept; a PERIOD below 100,000 ns is
ignored. A thumbnail for a disabled detector forgets its background; the first one of an enabled detector makes it. -/
def Obligations.FrameSyncAndVigil : Prop :=
  ∀ (s : State),
    (∀ (k : Fin 4) w, pxcOn s = true → timeRuns s = true → (getFs s k).next_ = some w →
      let pulse : Out := .fsync k w (field s (ispBase k + 0x32000) 15 0) (flag s (ispBase k + 0x32000) 30)
      ((getFs s k).later = none → ∃ t, exec (.fsyncPulse k) s = .next t ∧ now t = max w (now s) ∧ t.out = s.out ++ [pulse] ∧
        getFs t k = { getFs s k with next_ := some (w + (getFs s k).period) } ∧
        t = { s with time := t.time, out := t.out, fsync := t.fsync, regs := t.regs, chk := t.chk }) ∧
      (∀ p, (getFs s k).later = some p → 1000 * field s (ispBase k + 0x32000) 15 0 < p →
        ∃ t, exec (.fsyncPulse k) s = .next t ∧ t.out = s.out ++ [pulse] ∧
          getFs t k = { getFs s k with anchor := w, period := p, next_ := some (w + p), later := none })) ∧
    (∀ (k : Fin 4) secure hi, Reaches s secure (unitWorld s (160 + k)) (ispBase k + 0x3200C) → flag s (ispBase k + 0x32000) 31 = false →
      ∃ t, exec (.fsyncStartWrite secure k hi) s = .next t ∧ t = { s with regs := t.regs, fsync := t.fsync } ∧
        getR t (ispBase k + 0x3200C) = hi ∧ (getFs t k).start = getN s (ispBase k + 0x32008) + 2 ^ 32 * hi.toNat) ∧
    (∀ (k : Fin 4) secure v, Reaches s secure (unitWorld s (160 + k)) (ispBase k + 0x32004) →
      (v.toNat < 100000 → exec (.fsyncPeriodWrite secure k v) s = .next s) ∧
      (100000 ≤ v.toNat → flag s (ispBase k + 0x32000) 31 = false →
        ∃ t, exec (.fsyncPeriodWrite secure k v) s = .next t ∧ t = { s with regs := t.regs, fsync := t.fsync } ∧
          getR t (ispBase k + 0x32004) = v ∧ (getFs t k).period = v.toNat ∧ (getFs t k).next_ = none) ∧
      (100000 ≤ v.toNat → flag s (ispBase k + 0x32000) 31 = true → (getFs s k).next_.isSome = true →
        ∃ t, exec (.fsyncPeriodWrite secure k v) s = .next t ∧ getFs t k = { getFs s k with later := some v.toNat })) ∧
    (∀ (n : Fin 16) buf thumb tstamp, pxcOn s = true → (getPipe s n).judge = some (buf, thumb, tstamp) →
      (flag s (pwrBase + 0x68) n = false → ∃ t, exec (.vigilThumbnailJudge n) s = .next t ∧ getVigil t n = {} ∧
        (getPipe t n).judge = none ∧ t = { s with pipes := t.pipes, vigil := t.vigil }) ∧
      (flag s (pwrBase + 0x68) n = true → (getVigil s n).ready = false →
        ∃ t, exec (.vigilThumbnailJudge n) s = .next t ∧ (getVigil t n).ready = true ∧ (getPipe t n).judge = none ∧
          t = { s with pipes := t.pipes, vigil := t.vigil, mem := t.mem } ∧
          t.mem = memPutAll s.mem (backAddr n) ((List.range 57600).flatMap fun p => leBytes 2 (wrap 16 (thumbPix s n buf p)))) ∧
      (flag s (pwrBase + 0x68) n = true → (getVigil s n).ready = true →
        exec (.vigilThumbnailJudge n) s
          = .next (judgeThumb (setPipe s n { getPipe s n with judge := none }) n buf thumb tstamp)))

/-- The unit of a vision stage, the blocks that ask for it, and the reads and the computation that give its outputs: R317 to
R333 stereo, R342 to R352 flow, R355 to R364 detection, R365 to R368 matching, R373 to R387 warping and the inverse of a map, R389
to R391 the four pyramid operations. -/
def Sys2Proof.Machine.visionWork :
    Instr → Option (Nat × (List Byte → Bool) × (State → Nat → Task → State × Except EngErr (List EngOut × Nat)))
  | .stereoStage i => some (132 + i, fun _ => true, strStage i)
  | .flowStage i => some (136 + i, fun _ => true, flwStage i)
  | .featureDetectStage i => some (140 + i, fun l => leAt l 0 2 != 4, detStage i)
  | .featureMatchStage i => some (140 + i, fun l => leAt l 0 2 == 4, matchStage i)
  | .warpStage i => some (144 + i, fun l => !(wrpBlk l).gen, fun s _ t => wrpResample s (144 + i) t)
  | .inverseGeneration i => some (144 + i, fun l => (wrpBlk l).gen, fun s _ t => wrpGenerate s (144 + i) t)
  | .reduce i => some (152 + i, fun l => (pyrBlk l).op == 0, pyrWork (152 + i) pyrReduceStage)
  | .laplace i => some (152 + i, fun l => (pyrBlk l).op == 1, pyrWork (152 + i) pyrLaplaceStage)
  | .collapse i => some (152 + i, fun l => (pyrBlk l).op == 2, pyrWork (152 + i) pyrCollapseStage)
  | .expand i => some (152 + i, fun l => (pyrBlk l).op == 3, pyrWork (152 + i) pyrExpandStage)
  | _ => none

/-- The outputs that a stage still owes and the generation of its data, kept with its task. -/
def Sys2Proof.Machine.owing (s : State) (e order : Nat) (l : List EngOut) (g : Nat) : State :=
  updTask s e order fun x => { x with outs := some l, dataGen := g }

/-- R334, R341: a stage has done its work on unit `u`, which counts it and raises DONE. -/
def Sys2Proof.Machine.stageWorked (s : State) (u e order : Nat) : State :=
  raise (inc (updTask s e order fun x => { x with worked := true }) (engBase u + 0x40)) (engBase u + 0x20) 0

/-- R173, R334, R337, R338: a vision engine does the work of the stage that runs on it. Where its checks pass and its outputs all
leave, the stage has done its work, the engine counts it and raises DONE; a stage that was stopped among its outputs goes on with
those that are left. Where an output must wait at the dating gate, the stage stops there with the outputs that are left, and the
engine raises GATE. Where a check fails, the stage keeps the error that the engine reports. -/
def Sys2Proof.Machine.visionStagesClaim : Prop :=
  ∀ (c : Instr) (u : Nat) (sel : List Byte → Bool) (w : State → Nat → Task → State × Except EngErr (List EngOut × Nat))
    (s s1 s2 : State) (e g g' : Nat) (t t1 : Task) (l rest : List EngOut), visionWork c = some (u, sel, w) →
    engTask s u = some (e, t) → sel t.block = true →
    (t.outs = none → w s e t = (s1, .ok (l, g)) →
      (putOuts u t.sc (fun s _ => s) l s1 g = (s2, [], g', none) →
        exec c s = .next (stageWorked (owing s2 e t.order [] g') u e t.order)) ∧
      (∀ x, putOuts u t.sc (fun s _ => s) l s1 g = (s2, rest, g', some (.inl (.gate x))) →
        getTask (owing s2 e t.order rest g') e = some t1 →
        exec c s = .next (stopAtGate (raise (owing s2 e t.order rest g') (engBase u + 0x20) 3) e t1 x))) ∧
    (∀ l0, t.outs = some l0 → putOuts u t.sc (fun s _ => s) l0 s t.dataGen = (s2, [], g', none) →
      exec c s = .next (stageWorked (owing s2 e t.order [] g') u e t.order)) ∧
    (∀ code a, t.outs = none → w s e t = (s1, .error (.inr (code, a))) → getTask s1 e = some t1 → t1.err = none →
      exec c s = .next (setTask s1 e { t1 with err := some { code := code, addr := a } }))

/-- A span of a block that its address field, at offset `o` with its slot step at `so`, enables where it is not 0. -/
def Sys2Proof.Machine.optSpan (l : List Byte) (o so slot n : Nat) : List (Nat × Nat) :=
  if leAt l o 8 = 0 then [] else [(slotAddr l o so slot, n)]

/-- The rows of a plane that its address field enables where it is not 0, with the stride at offset `st`. -/
def Sys2Proof.Machine.optRows (l : List Byte) (o so slot st h n : Nat) : List (Nat × Nat) :=
  if leAt l o 8 = 0 then [] else planeRows (slotAddr l o so slot) (leAt l st 4) h n

/-- The pages of a scratch area. -/
def Sys2Proof.Machine.scratchSpans (a n : Nat) : List (Nat × Nat) :=
  (List.range (cdiv n 4096)).map fun p => (a + 4096 * p, min 4096 (n - 4096 * p))

/-- The rows of the image levels `k` of a list: by the offset field and the stride field of each, its height and its row length. -/
def Sys2Proof.Machine.levelRows (base : Nat) (off st : Nat → Nat) (h n : Nat → Nat) (ks : List Nat) : List (Nat × Nat) :=
  ks.flatMap fun k => planeRows (base + off k) (st k) (h k) (n k)

/-- The spans that a vision stage reads and those it writes, by its parameter block: R317 to R319, R330 to R335 stereo, R343, R350
to R354 flow, R355, R362, R364 detection, R365 to R368 matching, R374, R382, R384 to R387 warping, R388 to R391 pyramids. -/
def Sys2Proof.Machine.visionSpans (s : State) (t : Task) : Instr → List (Nat × Nat) × List (Nat × Nat)
  | .stereoStage _ =>
    let l := t.block
    let b := strBlk l
    let lev (base : Nat) := levelRows base (fun k => leAt l (64 + 4 * k) 4) (fun k => leAt l (80 + 4 * k) 4)
      (fun k => b.h0 / 2 ^ k) (fun k => b.w0 / 2 ^ k * b.bpp) (List.range b.nlev)
    let scr := scratchSpans (slotAddr l 128 136 t.slot) b.scratch
    (optSpan l 144 152 t.slot 64 ++ lev (slotAddr l 32 48 t.slot) ++ lev (slotAddr l 40 52 t.slot) ++ scr,
      planeRows (slotAddr l 96 104 t.slot) (leAt l 108 4) b.h0 (2 * b.w0) ++ optRows l 112 120 t.slot 124 b.h0 b.w0 ++
      optSpan l 160 168 t.slot 64 ++ scr)
  | .flowStage _ =>
    let l := t.block
    let b := flwBlk l
    let lev (base : Nat) := levelRows base (fun k => leAt l (48 + 4 * k) 4) (fun k => leAt l (72 + 4 * k) 4)
      (fun k => b.h0 / 2 ^ k) (fun k => b.w0 / 2 ^ k * b.bpp) ((List.range (b.nlev - b.olev)).map (b.olev + ·))
    let scr := scratchSpans (slotAddr l 128 136 t.slot) b.scratch
    let ho := b.h0 / 2 ^ b.olev
    let wo := b.w0 / 2 ^ b.olev
    (optSpan l 144 160 t.slot 64 ++ optSpan l 152 160 (b.slotB t.slot) 64 ++ lev (slotAddr l 24 40 t.slot) ++
      lev (slotAddr l 32 44 (b.slotB t.slot)) ++ scr,
      planeRows (slotAddr l 96 104 t.slot) (leAt l 108 4) ho (4 * wo) ++ optRows l 112 120 t.slot 124 ho wo ++
      optSpan l 168 176 t.slot 64 ++ scr)
  | .featureDetectStage _ =>
    let l := t.block
    (optSpan l 56 64 t.slot 64 ++ planeRows (slotAddr l 24 32 t.slot) (leAt l 36 4) (detH l) (detW l * detBpp l),
      (if leAt l 40 8 = 0 then [] else (List.range (leAt l 16 4)).map fun k => (slotAddr l 40 48 t.slot + 40 * k, 40)) ++
      optSpan l 72 80 t.slot 64)
  | .featureMatchStage _ =>
    let l := t.block
    let sb := if bit 2 (leAt l 7 1) then (t.slot + 3) % 4 else t.slot
    let aa := slotAddr l 48 64 t.slot
    let ba := slotAddr l 56 64 sb
    let list (base n : Nat) := (List.range n).map fun k => (base + 40 * k, 40)
    ([(aa, 64), (ba, 64)] ++ list (slotAddr l 16 24 t.slot) (leAt (peek s aa 64) 8 4) ++
      list (slotAddr l 32 40 sb) (leAt (peek s ba 64) 8 4),
      (if leAt l 72 8 = 0 then [] else
        (List.range (leAt (peek s aa 64) 8 4)).map fun k => (slotAddr l 72 80 t.slot + 8 * k, 8)) ++ optSpan l 88 96 t.slot 64)
  | .warpStage _ =>
    let l := t.block
    let b := wrpBlk l
    let k := wrpDesc (peek s (leAt l 24 8) 128)
    let n := wrpNodesAt l k b.dir
    ((leAt l 24 8, 128) :: optSpan l 96 104 t.slot 64 ++ (if k.mesh then [(n.1, 8 * n.2.1 * n.2.2)] else []) ++
      (List.range b.planes).flatMap fun p =>
        planeRows (slotAddr l 32 40 t.slot + p * leAt l 48 4) (leAt l 44 4) b.sh (b.sw * fmtBytes b.fmt),
      ((List.range b.planes).flatMap fun p =>
        planeRows (slotAddr l 56 64 t.slot + p * leAt l 72 4) (leAt l 68 4) b.dh (b.dw * fmtBytes b.fmt)) ++
      optRows l 80 88 t.slot 92 b.dh b.dw ++ optSpan l 112 120 t.slot 64)
  | .inverseGeneration _ =>
    let l := t.block
    let base := leAt l 24 8
    let k := wrpDesc (peek s base 128)
    let n := wrpNodesAt l k false
    ((base, 128) :: (if k.mesh then [(n.1, 8 * n.2.1 * n.2.2)] else []),
      (if k.mesh then [(base + k.ioff, 8 * (k.igw * k.igh))] else []) ++
      [(base + 104, 4), (base + 20, 4), (base + 68, 36), (base + 3, 1), (base + 124, 4)] ++ optSpan l 112 120 t.slot 64)
  | .reduce _ =>
    let l := t.block
    let b := pyrBlk l
    let n := fmtBytes b.fmt
    let base := slotAddr l 32 40 t.slot
    (if b.copy then planeRows (slotAddr l 16 24 t.slot) (leAt l 28 4) b.h0 (b.w0 * n) else pyrRows b base n 0,
      (if b.copy then pyrRows b base n 0 else []) ++ (List.range (b.n - 1)).flatMap fun k => pyrRows b base n (k + 1))
  | .laplace _ =>
    let l := t.block
    let b := pyrBlk l
    ((List.range b.n).flatMap (pyrRows b (slotAddr l 32 40 t.slot) (fmtBytes b.fmt)),
      (List.range (b.n - 1)).flatMap (pyrRows b (slotAddr l 48 56 t.slot) 2))
  | .collapse _ =>
    let l := t.block
    let b := pyrBlk l
    let g := pyrRows b (slotAddr l 32 40 t.slot) (fmtBytes b.fmt)
    (g (b.n - 1) ++ (List.range (b.n - 1)).flatMap (pyrRows b (slotAddr l 48 56 t.slot) 2), (List.range (b.n - 1)).flatMap g)
  | .expand _ =>
    let l := t.block
    let b := pyrBlk l
    let n := fmtBytes b.fmt
    (planeRows (slotAddr l 16 24 t.slot) (leAt l 28 4) (pyrSize b.h0 1) (pyrSize b.w0 1 * n),
      planeRows (slotAddr l 64 72 t.slot) (leAt l 76 4) b.h0 (b.w0 * n))
  | _ => ([], [])

/-- R333, R352: the frame info that a block enables is one of the frame named. -/
def Sys2Proof.Machine.InfoOk (s : State) (l : List Byte) (o so slot : Nat) (frame : Option Nat) : Prop :=
  leAt l o 8 ≠ 0 → ∀ b, b = peek s (slotAddr l o so slot) 64 → (frameInfoOf b (frame.getD (leAt b 4 4))).isSome = true

/-- R374, R384: the warp descriptor that a block names serves it, and the nodes of its map in direction `dir` are sound. -/
def Sys2Proof.Machine.MapOk (s : State) (l : List Byte) (dir : Bool) : Prop :=
  ∀ d k n, d = peek s (leAt l 24 8) 128 → k = wrpDesc d → n = wrpNodesAt l k dir → wrpDescOk d l = true ∧
    (k.mesh = true → crc32c (peek s n.1 (8 * n.2.1 * n.2.2)) = leAt d (if dir then 104 else 28) 4)

/-- The acceptance checks of a vision stage that names no queue: R320, R333 stereo, R344, R352 flow, R355, R361 detection, R365
matching, R383, R384 warping, R389 pyramids. -/
def Sys2Proof.Machine.VisionReady (s : State) (t : Task) : Instr → Prop
  | .stereoStage _ => strBlockOk t.block t.slot = true ∧ InfoOk s t.block 144 152 t.slot (some t.frame)
  | .flowStage _ => flwBlockOk t.block t.slot = true ∧ InfoOk s t.block 144 160 t.slot (some t.frame) ∧
    InfoOk s t.block 152 160 ((flwBlk t.block).slotB t.slot) none
  | .featureDetectStage i => detBlockOk t.block t.slot = true ∧ detQout t.block = false ∧
    (detDesc t.block = true → patternOk s i = true) ∧ InfoOk s t.block 56 64 t.slot (some t.frame)
  | .featureMatchStage _ => matchBlockOk t.block t.slot = true ∧ bit 1 (leAt t.block 7 1) = false ∧
    (featSummary (peek s (slotAddr t.block 48 64 t.slot) 64) (some t.frame)).isSome = true ∧
    (featSummary (peek s (slotAddr t.block 56 64 (if bit 2 (leAt t.block 7 1) then (t.slot + 3) % 4 else t.slot)) 64) none).isSome
      = true
  | .warpStage _ => wrpBlockOk t.block = true ∧ MapOk s t.block (wrpBlk t.block).dir ∧ InfoOk s t.block 96 104 t.slot (some t.frame)
  | .inverseGeneration _ => wrpBlockOk t.block = true ∧ MapOk s t.block false
  | _ => pyrBlockOk t.block t.slot = true

/-- R334, R341: a stage of dated work on a vision engine whose acceptance checks pass, which may read every span it reads and
write every span it writes, and which names no queue, completes: it has done its work, is counted and raises DONE, and no byte of
memory outside the spans it writes changes. -/
def Sys2Proof.Machine.visionCompletesClaim : Prop :=
  ∀ (c : Instr) (u : Nat) (sel : List Byte → Bool) (w : State → Nat → Task → State × Except EngErr (List EngOut × Nat))
    (s : State) (e : Nat) (t : Task), visionWork c = some (u, sel, w) → engTask s u = some (e, t) → getTask s e = some t →
    sel t.block = true → t.dataGen = 0 → t.outs = none → VisionReady s t c →
    (∀ r ∈ (visionSpans s t c).1, Readable s u t.sc r.1 r.2) → (∀ r ∈ (visionSpans s t c).2, Writable s u t.sc r.1 r.2) →
    ∃ t', exec c s = .next t' ∧ (getTask t' e).map Task.worked = some true ∧ flag t' (engBase u + 0x20) 0 = true ∧
      getR t' (engBase u + 0x40) = getR s (engBase u + 0x40) + 1 ∧
      t' = { s with regs := t'.regs, out := t'.out, sched := { s.sched with tasks := t'.sched.tasks }, uses := t'.uses,
                    memBad := t'.memBad, mem := t'.mem } ∧
      (Memory.wf s.mem = true → ∀ a, (∀ r ∈ (visionSpans s t c).2, a < r.1 ∨ r.1 + r.2 ≤ a) → memGet t'.mem a = memGet s.mem a)

/-- The stages of the vision engines, and that they complete: the two statements above together. -/
def Obligations.VisionStages : Prop :=
  visionStagesClaim ∧ visionCompletesClaim

/-- R338, R361, R371, R429, R490, R516: the errors of engines and the pattern. The error that a stage on an engine has met is
reported with its code and address and counted, and ends the stage; an access without an answer is such an error. A pattern word
is written while the engine holds no stage and is unlocked, and is discarded with PATBUSY while it holds one. -/
def Obligations.EngineErrorsAndPattern : Prop :=
  ∀ (s : State),
    (∀ (u : Fin 256) e t x, reporting u = true → (s.sched.tasks.find? fun p => p.2.onUnits && p.2.units.contains u.val && p.2.err.isSome) = some (e, t) →
      t.err = some x → exec (.engineError u) s = .next (unitError s u e t x.code x.addr) ∧
        (132 ≤ u.val → u.val < 160 → getR (unitError s u e t x.code x.addr) (engBase u + 0x30) = reg (2 ^ 31 + x.code) ∧
          getR (unitError s u e t x.code x.addr) (engBase u + 0x34) = reg x.addr ∧
          flag (unitError s u e t x.code x.addr) (engBase u + 0x20) 1 = true)) ∧
    (∀ (u : Fin 256) a e t, (s.sched.tasks.find? fun p => p.2.st == .running && p.2.units.contains u.val && !p.2.worked) = some (e, t) →
      (u.val < 64 → exec (.engineMemoryTimeout u a) s = .next (tcFault s u e t (getTc s u).core.d 0x23 (getTc s u).core.fetch.pc a)) ∧
      (128 ≤ u.val → u.val < 132 → exec (.engineMemoryTimeout u a) s = .next (unitError s u e t 5 a)) ∧
      (132 ≤ u.val → u.val < 160 → exec (.engineMemoryTimeout u a) s = .next (unitError s u e t 3 a)) ∧
      (u.val = 196 ∨ u.val = 197 → exec (.engineMemoryTimeout u a) s = .next (unitError s u e t 4 a))) ∧
    (∀ secure (i : Fin 4) (k : Fin 256) v, Reaches s secure (unitWorld s (140 + i)) (ftrBase i + 0x1000 + 4 * k) →
      ((occupant s (140 + i)).isSome = true → exec (.patternWrite secure i k v) s = .next (raise s (ftrBase i + 0x20) 4)) ∧
      (occupant s (140 + i) = none → flag s (ftrBase i + 8) 0 = true → exec (.patternWrite secure i k v) s = .next s) ∧
      (occupant s (140 + i) = none → flag s (ftrBase i + 8) 0 = false →
        exec (.patternWrite secure i k v) s = .next (setR s (ftrBase i + 0x1000 + 4 * k) v)))

/-- The core, unit, opcode and work of a tensor instruction: R446 to R462. -/
def Sys2Proof.Machine.tcWork : Instr → Option (Nat × Bool × Nat × (State → Nat → Task → TCore → BitVec 128 → TcRes TCore))
  | .tcNop c x => some (c, x, 0x00, tcCtl x fun u _ => .ok u)
  | .tcBr c x => some (c, x, 0x02, tcBrWork x)
  | .salu c x => some (c, x, 0x03, tcCtl x saluWork)
  | .aalu c x => some (c, x, 0x04, tcCtl x aaluWork)
  | .mova c x => some (c, x, 0x05, tcCtl x movaWork)
  | .tdset c x => some (c, x, 0x06, tcCtl x tdsetWork)
  | .tdoff c x => some (c, x, 0x07, tcCtl x tdoffWork)
  | .pld c x => some (c, x, 0x08, pldWork x)
  | .ld c => some (c, false, 0x10, ldWork c)
  | .st c => some (c, false, 0x11, stWork c)
  | .ldq c => some (c, false, 0x12, ldqWork c)
  | .stq c => some (c, false, 0x13, stqWork c)
  | .giss c => some (c, false, 0x14, gissWork c)
  | .proc c => some (c, false, 0x15, procWork c)
  | .mac c => some (c, true, 0x20, macWork c)
  | .wout c => some (c, true, 0x21, woutWork c)
  | .vop c => some (c, true, 0x22, vopWork c)
  | .sfu c => some (c, true, 0x23, sfuWork c)
  | .fset c => some (c, true, 0x24, tcFlagUpdate false)
  | .fadd c => some (c, true, 0x25, tcFlagUpdate true)
  | .fwait c => some (c, true, 0x26, tcFlagWait)
  | .bar c => some (c, true, 0x28, barWork c)
  | _ => none

/-- R407, R429, R442, R443, R446, R465: the issue of a tensor instruction by a unit of a core. With its encoding sound and its token
there, the instruction does its work: where that completes or waits, the machine and the core are as it left them; where it meets a
fault, the core records the fault with the instruction's place; where its effect must wait for the dating of its data, the task
stops at the gate and the core raises GATE. A reserved encoding raises ENC, and an instruction whose token is not there waits. -/
def Sys2Proof.Machine.tcIssueClaim : Prop :=
  ∀ (i : Instr) (c : Nat) (x : Bool) (op : Nat) (f : State → Nat → Task → TCore → BitVec 128 → TcRes TCore) (s s1 : State)
    (e : Nat) (t : Task) (w : BitVec 128), tcWork i = some (c, x, op, f) → TcComes s c x op e t w →
    (∀ k k1, TcIssues s c x op e t k w → f s e t k w = (s1, .ok k1) → exec i s = .next (withCore s1 c k1)) ∧
    (∀ k k1, TcIssues s c x op e t k w → f s e t k w = (s1, .error (.wait k1)) →
      exec i s = .next (withCore s1 c k1)) ∧
    (∀ k code a, TcIssues s c x op e t k w → f s e t k w = (s1, .error (.fault code a)) →
      exec i s = .next (tcFault s1 c e t k.d code (k.unit x).pc a)) ∧
    (∀ k, TcIssues s c x op e t k w → f s e t k w = (s1, .error .gate) →
      exec i s = .next (raise (stopAtGate s e t k.d) (tcBase c + 0x20) 3)) ∧
    (encOk w = false → exec i s = .next (tcFault s c e t (getTc s c).core.d 0x01 ((getTc s c).core.unit x).pc 0)) ∧
    (encOk w = true → tcToken (getTc s c).core x w = none → exec i s = .next (withCore s c ((getTc s c).core.setUnit x { (getTc s c).core.unit x with waiting := true })))

/-- R405, R406: a transfer into tile memory has a segment for its bytes and leaves the limit on dirty bytes as it is. -/
def Sys2Proof.Machine.SegRoom (k : TCore) : Prop := (liveSegs k).length < 256 ∧ dirtyBytes k ≤ 16384

/-- R403: no word of a core's tile memory holds an error. -/
def Sys2Proof.Machine.TmSound (s : State) (c : Nat) : Prop := (getTc s c).badWords = [] ∧ (getTc s c).softWords = []

/-- Core `k` after a transfer has made bytes of its tile memory clean: only tile memory and its segments differ (R405). -/
def Sys2Proof.Machine.TmMoved (k k' : TCore) : Prop :=
  k' = { k with tm := k'.tm, segs := k'.segs, segNext := k.segNext + 1 }

/-- Home addresses of the rows of a transfer: row `r` stands at `a + r·st` (R451, R455). -/
def Sys2Proof.Machine.homeAt (a st r : Nat) : Nat := (a + r * st) % 2 ^ 64

/-- R405, R451 to R455, R464, R465: the fetch-side instructions of a task of dated data complete. `LD` loads a descriptor's rows, or
its auxiliary rows, from home; `ST` stores them there and changes no other byte of memory; `LDQ` takes the packet at its
receiver's head, the packet that its served task holds, or with W clear on an empty queue the holiday item, as a packet image;
`STQ` enqueues the packet that its image describes; `GISS` loads its reply; `PROC` loads the core's own shard, steps alone in a run
of one core, or takes the shard that waits on its link, after it has sent its own where it had not. -/
def Sys2Proof.Machine.tcTransfersClaim : Prop :=
  ∀ (s : State) (c : Fin 64) (e : Nat) (t : Task) (k : TCore) (w : BitVec 128) (td : Td) (a : Nat),
    k.d = 0 → TmSound s c → SegRoom k → tdCheck (k.fetch.gtd (wf w 115 112)) = 0 → td = tdOf (k.fetch.gtd (wf w 115 112)) →
    a = (k.fetch.ga (wf w 99 96)).toNat →
    let imageAt (k' : TCore) (img : List Byte) : Prop := ∀ i, i < img.length → tmByte k' (td.base + i) = nth 0 img i
    (∀ st b tst n, st = (if wf w 80 80 = 1 then wf w 31 0 else (k.fetch.gs (wf w 95 91)).toNat) → a % 16 = 0 → st % 16 = 0 →
      (b, tst, n) = (if wf w 81 81 = 1 then (td.auxBase, td.auxStride, td.auxBytes) else (td.base, td.stride, td.rowBytes)) →
      (TcIssues s c false 0x10 e t k w → (∀ r < td.rows, n ≠ 0 → Readable s c t.sc (homeAt a st r) n) →
        ∃ t' k', exec (.ld c) s = .next t' ∧ t' = { s with tcs := t'.tcs } ∧ (getTc t' c).core = fetchDone k' w ∧ TmMoved k k' ∧
          (n ≤ tst → ∀ r i, r < td.rows → i < n → tmByte k' (b + r * tst + i) = memGet s.mem (homeAt a st r + i))) ∧
      (TcIssues s c false 0x11 e t k w → (∀ r < td.rows, n ≠ 0 → Writable s c t.sc (homeAt a st r) n) →
        ∃ t' k', exec (.st c) s = .next t' ∧ t' = { s with tcs := t'.tcs, mem := t'.mem, memBad := t'.memBad } ∧
          (getTc t' c).core = fetchDone k' w ∧ TmMoved k k' ∧
          (Memory.wf s.mem = true →
            (∀ x, (∀ r < td.rows, x < homeAt a st r ∨ homeAt a st r + n ≤ x) → memGet t'.mem x = memGet s.mem x) ∧
            (n ≤ st → a + td.rows * st ≤ 2 ^ 64 → ∀ r i, r < td.rows → i < n →
              memGet t'.mem (homeAt a st r + i) = tmByte k (b + r * tst + i))))) ∧
    (TcIssues s c false 0x12 e t k w → ∀ q r served, q = wf w 47 32 → r = wf w 83 81 →
      served = (t.parent.isSome && q == leAt k.param 4 2 && r == leAt k.param 6 1) →
      tcSource s c e q r served = true → r < (getQ s q).recvs.length → 64 * (1 + (getQ s q).cfg.maxpkt) ≤ td.rows * td.stride →
      (∀ ws leap, served = true → k.got = false → t.packet = some (ws, leap) → (∀ x ∈ ws, x.gen = 0) →
        ∃ t' k', exec (.ldq c) s = .next t' ∧ t' = { s with tcs := t'.tcs } ∧ (getTc t' c).core = fetchDone k' w ∧
          TmMoved { k with got := true } k' ∧ imageAt k' (packetImage ws leap)) ∧
      (served = false → packetsFor (getQ s q) (nth {} (getQ s q).recvs r) = 0 → wf w 80 80 = 0 →
        ∃ t' k', exec (.ldq c) s = .next t' ∧ t' = { s with tcs := t'.tcs } ∧ (getTc t' c).core = fetchDone k' w ∧
          TmMoved k k' ∧ imageAt k' (holidayImage q (getQ s q).cfg.world)) ∧
      (∀ p, served = false → packetsFor (getQ s q) (nth {} (getQ s q).recvs r) ≠ 0 →
        p = deqPacket s q c r (((headFor (getQ s q) (nth {} (getQ s q).recvs r)).map fun p => p.words.length).getD 0 + 1) →
        (∀ x ∈ p.2.1, x.gen = 0) →
        ∃ t' k', exec (.ldq c) s = .next t' ∧ t' = { p.1 with tcs := t'.tcs } ∧ (getTc t' c).core = fetchDone k' w ∧
          TmMoved k k' ∧ imageAt k' (packetImage p.2.1 p.2.2))) ∧
    (TcIssues s c false 0x13 e t k w → ∀ q n ws, q = wf w 47 32 → tcDest s c e q = true → td.base + 64 ≤ 0x200000 →
      imageWords ((List.range 64).map fun i => tmByte k (td.base + i)) (getQ s q).cfg.maxpkt = some n →
      td.base + 64 * (1 + cdiv n 8) ≤ 0x200000 → flowHeld s t = false → s.flowWait.contains e = false →
      ws = bytesToWords ((List.range (8 * n)).map fun i => tmByte k (td.base + 64 + i)) → (enqUnit s q c 0 ws).2 ≠ .waits →
      exec (.stq c) s = .next (withCore (enqUnit s q c 0 ws).1 c (fetchDone k w))) ∧
    (TcIssues s c false 0x14 e t k w → ∀ to_, tdCheck (k.fetch.gtd (wf w 111 108)) = 0 → to_ = tdOf (k.fetch.gtd (wf w 111 108)) →
      fmtWidth td.fmt = 32 → k.asked = true → k.reply = some true →
      (∀ r < to_.rows, Readable s c t.sc (homeAt a to_.rowBytes r) to_.rowBytes) →
      ∃ t' k', exec (.giss c) s = .next t' ∧ t' = { s with tcs := t'.tcs } ∧
        (getTc t' c).core = fetchDone { k' with asked := false, reply := none } w ∧ TmMoved k k' ∧
        (to_.rowBytes ≤ to_.stride → ∀ r i, r < to_.rows → i < to_.rowBytes →
          tmByte k' (to_.base + r * to_.stride + i) = memGet s.mem (homeAt a to_.rowBytes r + i))) ∧
    (TcIssues s c false 0x15 e t k w → ∀ sh, sh = wf w 31 0 → a % 16 = 0 → sh % 64 = 0 →
      (wf w 80 80 = 1 → (∀ r < td.rows, Readable s c t.sc (homeAt (homeAt a sh k.pos) td.rowBytes r) td.rowBytes) →
        ∃ t' k', exec (.proc c) s = .next t' ∧ t' = { s with tcs := t'.tcs } ∧
          (getTc t' c).core = fetchDone { k' with step := 0 } w ∧ TmMoved k k' ∧
          (td.rowBytes ≤ td.stride → ∀ r i, r < td.rows → i < td.rowBytes →
            tmByte k' (td.base + r * td.stride + i) = memGet s.mem (homeAt (homeAt a sh k.pos) td.rowBytes r + i))) ∧
      (∀ to_, wf w 80 80 = 0 → tdCheck (k.fetch.gtd (wf w 111 108)) = 0 → to_ = tdOf (k.fetch.gtd (wf w 111 108)) →
        td.rows = to_.rows → td.rowBytes = to_.rowBytes →
        (k.n = 1 → exec (.proc c) s = .next (withCore s c (fetchDone { k with step := k.step + 1 } w))) ∧
        (∀ x rest m, k.n ≠ 1 → k.link = x :: rest → x.gen = 0 → x.bytes.length = td.rows * td.rowBytes → m = nextCore t k →
          m ≠ c.val → (getTc s c).linkBad = 0 →
          ∃ t' k', exec (.proc c) s = .next t' ∧ t' = { s with tcs := t'.tcs } ∧
            (getTc t' c).core = fetchDone { k' with step := k.step + 1, sent := false } w ∧
            TmMoved { k with link := rest, sent := k'.sent } k' ∧
            (k.sent = false → (getTc t' m).core.link = (getTc s m).core.link ++
              [⟨to_.spans.flatMap fun p => (List.range p.2).map fun i => tmByte k (p.1 + i), 0⟩]) ∧
            (td.rowBytes ≤ td.stride → ∀ r i, r < td.rows → i < td.rowBytes →
              tmByte k' (td.base + r * td.stride + i) = nth 0 x.bytes (r * td.rowBytes + i)))))

/-- Where an instruction of the execute unit has written tile memory: no byte outside the spans of the tiles it writes differs. -/
def Sys2Proof.Machine.OutsideTiles (k k' : TCore) (l : List (Nat × Nat)) : Prop :=
  ∀ x, (∀ p ∈ l, x < p.1 ∨ p.1 + p.2 ≤ x) → tmByte k' x = tmByte k x

/-- R406: the bytes that a tile takes, with its scales. -/
def Sys2Proof.Machine.Td.bytes (d : Td) : Nat := d.rows * (d.rowBytes + d.auxBytes)

/-- R24, R401, R406, R415, R458 to R460: write-out, vector operations and special functions complete. On sound descriptors of
formats, shapes and roles that the operation takes, with no store of the fetch unit pending and room for the dirty bytes, the
execute unit goes on, and only the bytes of the tiles that the operation writes differ. -/
def Sys2Proof.Machine.tcVectorClaim : Prop :=
  ∀ (s : State) (c : Fin 64) (e : Nat) (t : Task) (k : TCore) (w : BitVec 128) (d : Td),
    TmSound s c → k.srcs = [] → tdCheck (k.exec.gtd (wf w 115 112)) = 0 → d = tdOf (k.exec.gtd (wf w 115 112)) →
    dirtyBytes k + d.bytes ≤ 16384 →
    (TcIssues s c true 0x21 e t k w → ∀ acc n, n = wf w 80 80 → acc = k.acc n →
      woutFault (k.exec.gtd (wf w 115 112)) (wf w 107 104) (wf w 84 83) = 0 → residueBad acc = false →
      (wf w 82 82 = 1 → ∀ q, q = tdOf (k.exec.gtd (wf w 111 108)) →
        tdCheck (k.exec.gtd (wf w 111 108)) = 0 ∧ q.fmt = 5 ∧ q.rows = 1 ∧ q.cols = 4 * d.cols) →
      ∃ t' k', exec (.wout c) s = .next t' ∧
        t' = { s with tcs := t'.tcs, regs := t'.regs, out := t'.out, uses := t'.uses, nstat := t'.nstat } ∧
        (getTc t' c).core = execDone (if wf w 81 81 = 1 then k'.setAcc n {} else k') w ∧ k' = { k with tm := k'.tm } ∧
        OutsideTiles k k' (d.spans ++ d.auxSpans)) ∧
    (TcIssues s c true 0x22 e t k w → ∀ fn mask src ta tb tz, fn = wf w 85 80 → mask = (wf w 88 88 == 1) →
      vopSources fn = some src → (RMode.ofCode (wf w 87 86)).isSome = true → ta = tdOf (k.exec.gtd (wf w 111 108)) →
      tb = tdOf (k.exec.gtd (wf w 107 104)) → tz = tdOf (k.exec.gtd (wf w 103 100)) →
      (0 ∈ src → tdCheck (k.exec.gtd (wf w 111 108)) = 0) → (1 ∈ src → tdCheck (k.exec.gtd (wf w 107 104)) = 0) →
      (2 ∈ src ∨ (fn = 0x10 ∧ mask = true) → tdCheck (k.exec.gtd (wf w 103 100)) = 0) → vopFault fn mask d ta tb tz = 0 →
      dirtyBytes k + d.bytes + (if fn = 0x10 ∧ mask = true then tz.bytes else 0) ≤ 16384 →
      ∃ t' k', exec (.vop c) s = .next t' ∧
        t' = { s with tcs := t'.tcs, regs := t'.regs, out := t'.out, nstat := t'.nstat } ∧
        (getTc t' c).core = execDone k' w ∧ k' = { k with tm := k'.tm } ∧
        OutsideTiles k k' (d.spans ++ d.auxSpans ++ if fn = 0x10 ∧ mask = true then tz.spans else [])) ∧
    (TcIssues s c true 0x23 e t k w → ∀ ta, tdCheck (k.exec.gtd (wf w 111 108)) = 0 → ta = tdOf (k.exec.gtd (wf w 111 108)) →
      d.sparse = false → ta.sparse = false → d.fmt = 8 ∨ d.fmt = 9 ∨ d.fmt = 0xA → ta.fmt = d.fmt → ta.rows = d.rows →
      ta.cols = d.cols →
      ∃ t' k', exec (.sfu c) s = .next t' ∧
        t' = { s with tcs := t'.tcs, regs := t'.regs, out := t'.out, nstat := t'.nstat } ∧
        (getTc t' c).core = execDone k' w ∧ k' = { k with tm := k'.tm } ∧ OutsideTiles k k' d.spans)

/-- R165, R461, R462: a flag update, a flag wait whose comparison holds, and a barrier that every core of the run has reached
complete. -/
def Sys2Proof.Machine.tcSyncClaim : Prop :=
  ∀ (s : State) (c : Fin 64) (e : Nat) (t : Task) (k : TCore) (w : BitVec 128),
    (∀ a v, tcFlag s t w = some a → v = (if wf w 80 80 = 1 then reg (wf w 31 0) else k.exec.gs (wf w 95 91)) →
      (TcIssues s c true 0x24 e t k w → (∀ p ∈ k.srcs, p.1 = false) → exec (.fset c) s
        = .next (withCore (flagUpdate s t.src t.slot t.frame (eff s k.d) a false v).1 c (execDone k w))) ∧
      (TcIssues s c true 0x25 e t k w → (∀ p ∈ k.srcs, p.1 = false) → exec (.fadd c) s
        = .next (withCore (flagUpdate s t.src t.slot t.frame (eff s k.d) a true v).1 c (execDone k w))) ∧
      (TcIssues s c true 0x26 e t k w → flagCmp (wf w 82 81) (getFlag s a).value v = true → exec (.fwait c) s
        = .next (withCore (mergeGen s k.d (getFlag s a).gen).1 c
            (execDone { k with d := (mergeGen s k.d (getFlag s a).gen).2 } w)))) ∧
    (TcIssues s c true 0x28 e t k w → k.exec.passed ≤ k.fetch.passed →
      (wf w 81 80 = 0 → exec (.bar c) s = .next (withCore s c (execDone k w))) ∧
      (∀ n, wf w 81 80 = 1 → n = (if k.atBar = true then k.bars else k.bars + 1) →
        (∀ u ∈ t.units, u ≠ c.val → n ≤ (getTc s u).core.bars) →
        exec (.bar c) s = .next (withCore s c (execDone { k with bars := n, atBar := false } w))))

/-- The tensor instructions: their issue, and that the transfers, the vector instructions and the synchronising ones complete. -/
def Obligations.TcInstructions : Prop :=
  tcIssueClaim ∧ tcTransfersClaim ∧ tcVectorClaim ∧ tcSyncClaim

/-- R98, R447: what FN of a tensor scalar operation must give. -/
def Sys2Proof.Machine.saluSpec (fn : Nat) (a b v : Reg) : Prop :=
  match [AluFn.add, .sub, .and, .or, .xor, .shl, .shr, .sra, .min, .max, .minu, .maxu][fn]? with
  | some f => aluSpec f a b v
  | none => v.toNat = a.toNat * b.toNat % 2 ^ 32

/-- R99, R448: whether COND holds. -/
def Sys2Proof.Machine.tcCondSpec (cond : Nat) (a b : Reg) : Prop :=
  (cond = 0 ∧ a = b) ∨ (cond = 1 ∧ a ≠ b) ∨ (cond = 2 ∧ a.toInt < b.toInt) ∨ (cond = 3 ∧ b.toInt ≤ a.toInt) ∨
    (cond = 4 ∧ a.toNat < b.toNat) ∨ (cond = 5 ∧ b.toNat ≤ a.toNat)

/-- R435, R447 to R450: the control instructions, which a unit applies to its own copy of the registers. `NOP` only goes on;
`BR` goes to TARGET where COND holds, and raises PC where TARGET is no instruction; `SALU`, `AALU`, `MOVA`, `TDSET`, `TDOFF` and
`PLD` write the one register they name, with a write to s0 discarded, and a result that leaves the range of a descriptor or a read
that leaves the parameter buffer raises TD_BOUNDS or PLD_RANGE with nothing written. -/
def Obligations.TcControlInstructions : Prop :=
  ∀ (s : State) (c : Fin 64) (x : Bool) (op e : Nat) (t : Task) (k : TCore) (w : BitVec 128), TcIssues s c x op e t k w →
    let u := k.unit x
    let go (v : TcUnit) (pc : Nat) := withCore s c (tcDone (k.setUnit x v) x w pc)
    let b := if wf w 80 80 = 1 then reg (wf w 31 0) else u.gs (wf w 85 81)
    (op = 0 → exec (.tcNop c x) s = .next (go u (u.pc + 1))) ∧
    (op = 2 → ∀ a r, a = u.gs (wf w 95 91) → r = (if wf w 80 80 = 1 then reg (wf w 31 0) else u.gs (wf w 90 86)) →
      (¬ tcCondSpec (wf w 115 112) a r → exec (.tcBr c x) s = .next (go u (u.pc + 1))) ∧
      (tcCondSpec (wf w 115 112) a r → wf w 79 64 < k.prog.length → exec (.tcBr c x) s = .next (go u (wf w 79 64))) ∧
      (tcCondSpec (wf w 115 112) a r → k.prog.length ≤ wf w 79 64 →
        exec (.tcBr c x) s = .next (tcFault s c e t k.d 0x02 u.pc 0))) ∧
    (op = 3 → ∃ v, saluSpec (wf w 115 112) (u.gs (wf w 90 86)) b v ∧
      exec (.salu c x) s = .next (go (u.setS (wf w 95 91) v) (u.pc + 1))) ∧
    (op = 4 → ∃ v : Word, (v.toNat : Int) = ((u.ga (wf w 103 100)).toNat + (if wf w 115 112 = 0 then s32 (wf w 31 0)
        else if wf w 115 112 = 1 then (u.gs (wf w 95 91)).toInt else (u.gs (wf w 95 91)).toInt * s32 (wf w 31 0))) % 2 ^ 64 ∧
      exec (.aalu c x) s = .next (go (u.setA (wf w 99 96) v) (u.pc + 1))) ∧
    (op = 5 → ∃ v : Word, v.toNat = w.toNat % 2 ^ 64 ∧ exec (.mova c x) s = .next (go (u.setA (wf w 99 96) v) (u.pc + 1))) ∧
    (op = 6 → ∃ v : BitVec 128,
      (wf w 80 80 = 0 → v.toNat % 2 ^ 64 = w.toNat % 2 ^ 64 ∧ v.toNat / 2 ^ 64 = (u.gtd (wf w 115 112)).toNat / 2 ^ 64) ∧
      (wf w 80 80 = 1 → v.toNat % 2 ^ 64 = (u.gtd (wf w 115 112)).toNat % 2 ^ 64 ∧ v.toNat / 2 ^ 64 = w.toNat % 2 ^ 64) ∧
      exec (.tdset c x) s = .next (go (u.setTd (wf w 115 112) v) (u.pc + 1))) ∧
    (op = 7 → ∀ lo y, lo = (if wf w 81 81 = 1 then 96 else 0) →
      y = (bits (lo + 20) lo (u.gtd (wf w 115 112)).toNat : Int) + (u.gs (wf w 95 91)).toInt + s32 (wf w 31 0) →
      (0 ≤ y → y < 2 ^ 21 → ∃ v : BitVec 128, (bits (lo + 20) lo v.toNat : Int) = y ∧
        v.toNat % 2 ^ lo = (u.gtd (wf w 115 112)).toNat % 2 ^ lo ∧
        v.toNat / 2 ^ (lo + 21) = (u.gtd (wf w 115 112)).toNat / 2 ^ (lo + 21) ∧
        exec (.tdoff c x) s = .next (go (u.setTd (wf w 115 112) v) (u.pc + 1))) ∧
      (y < 0 ∨ 2 ^ 21 ≤ y → exec (.tdoff c x) s = .next (tcFault s c e t k.d 0x0A u.pc 0))) ∧
    (op = 8 → ∀ off n, off = wf w 15 0 → n = (if wf w 80 80 = 1 then 8 else 4) →
      (off % n = 0 → off + n ≤ k.param.length → exec (.pld c x) s = .next (go (if wf w 80 80 = 1 then
        u.setA (wf w 99 96) (BitVec.ofNat 64 (leAt k.param off 8)) else u.setS (wf w 95 91) (reg (leAt k.param off 4))) (u.pc + 1))) ∧
      (off % n ≠ 0 ∨ k.param.length < off + n → exec (.pld c x) s = .next (tcFault s c e t k.d 0x0E u.pc 0)))

/-- R107, R407, R409, R444, R450, R461 to R463: the instructions for which a core waits. `END`, when both units have reached it,
ends the core's part, and its last core raises DONE on every core and completes the task; `SLD` loads a word of tile memory into
both copies of a register; a flag update is made once every earlier store is visible; an `FWAIT` completes, also when it has
waited, once its comparison holds, and takes the flag word's generation; a LOCAL barrier completes once the fetch unit has passed
everything earlier; a token pushed on a queue releases the unit that waits for it; two units that wait on empty queues with
nothing under way raise TC_DEADLOCK. -/
def Obligations.TcWaits : Prop :=
  ∀ (s : State) (c : Fin 64) (e : Nat) (t : Task) (k : TCore), tcTask s c = some (e, t) → (getTc s c).core = k →
    (∀ w, tcJoined k 0x01 = some w → encOk w = true → ∀ s', s' = withCore s c ({ k with ended := true, fq := 0, xq := 0 }) →
      ((∃ u ∈ t.units, (getTc s' u).core.ended = false) → exec (.tcEnd c) s = .next s') ∧
      ((∀ u ∈ t.units, (getTc s' u).core.ended = true) → exec (.tcEnd c) s = .next
        (completeTask (t.units.foldl (fun s u => raise s (tcBase u + 0x20) 0) s') e))) ∧
    (∀ w td (a : Nat), tcJoined k 0x09 = some w → encOk w = true → tdCheck (k.exec.gtd (wf w 115 112)) = 0 →
      td = tdOf (k.exec.gtd (wf w 115 112)) → (a : Int) = (td.base : Int) + (k.exec.gs (wf w 90 86)).toInt + s32 (wf w 31 0) →
      a + 4 ≤ 0x200000 → (getTc s c).badWords = [] → (getTc s c).softWords = [] → ∀ v k',
      v = reg (leNat ((List.range 4).map fun i => tmByte k (a + i))) →
      k' = tcDone (k.setUnit false (k.fetch.setS (wf w 95 91) v)) false w (k.exec.pc + 1) →
      exec (.sld c) s = .next (withCore s c (tcDone (k'.setUnit true (k'.exec.setS (wf w 95 91) v)) true w (k.exec.pc + 1)))) ∧
    (∀ w k1 a v (add : Bool), TcIssues s c true (if add then 0x25 else 0x24) e t k1 w → tcFlag s t w = some a →
      (∀ p ∈ k1.srcs, p.1 = false) → v = (if wf w 80 80 = 1 then reg (wf w 31 0) else k1.exec.gs (wf w 95 91)) →
      ∀ s', s' = (flagUpdate s t.src t.slot t.frame (eff s k1.d) a add v).1 →
      exec (if add then .fadd c else .fset c) s = .next (withCore s' c (execDone k1 w))) ∧
    (∀ w k1 a v, TcIssues s c true 0x26 e t k1 w → tcFlag s t w = some a →
      v = (if wf w 80 80 = 1 then reg (wf w 31 0) else k1.exec.gs (wf w 95 91)) →
      flagCmp (wf w 82 81) (getFlag s a).value v = true → ∀ s' g, (s', g) = mergeGen s k1.d (getFlag s a).gen →
      exec (.fwait c) s = .next (withCore s' c (execDone { k1 with d := g } w)) ∧
      (k.exec.waiting = true → exec (.tcFwaitRelease c) s = .next (withCore s' c (execDone { k1 with d := g } w)))) ∧
    (∀ w k1, TcIssues s c true 0x28 e t k1 w → wf w 81 80 = 0 → k1.exec.passed ≤ k1.fetch.passed →
      exec (.bar c) s = .next (withCore s c (execDone k1 w))) ∧
    (∀ x k1, waitsToken k x = true → popToken k x = some k1 → exec (.tcQueueTokenRelease c x) s = .next (withCore s c (k1.setUnit x { k1.unit x with granted := true, waiting := false }))) ∧
    (waitsToken k true = true → waitsToken k false = true → k.fq = 0 → k.xq = 0 → k.asked = false → k.sent = false →
      exec (.tcDeadlock c) s = .next (tcFault s c e t k.d 0x82 k.exec.pc 0))

/-- R36, R38, R397, R415, R456, R457: a matrix tile of integers. On sound, dense descriptors of integer formats, with a sound tile
check, `MAC` adds to every element (i, j) of its set, below the two tiles' rows, the products of row i of A and row j of B over
the reduction, saturated at 48 bits, leaves every other element as it was, and counts the tile. -/
def Obligations.MacIntegerTile : Prop :=
  ∀ (s : State) (c : Fin 64) (e : Nat) (t : Task) (k : TCore) (w : BitVec 128) (ta tb : Td) (acc : Acc) (n : Nat),
    TcIssues s c true 0x20 e t k w → tdCheck (k.exec.gtd (wf w 115 112)) = 0 → tdCheck (k.exec.gtd (wf w 111 108)) = 0 →
    ta = tdOf (k.exec.gtd (wf w 115 112)) → tb = tdOf (k.exec.gtd (wf w 111 108)) →
    macFault ta tb (wf w 107 104) (wf w 103 100) (wf w 79 64) (wf w 63 48) = 0 → fmtClass ta.fmt = .int →
    ta.sparse = false → tb.sparse = false → (getTc s c).badWords = [] → (getTc s c).softWords = [] → (getTc s c).tileBad = 0 →
    n = wf w 80 80 → acc = (if wf w 81 81 = 1 then {} else k.acc n) → acc.cls ≠ .float →
    ∃ t' a', exec (.mac c) s = .next t' ∧
      (getTc t' c).core = execDone (k.setAcc n a') w ∧ a'.cls = .int ∧
      getR t' (tcBase c + 0x50) = getR s (tcBase c + 0x50) + 1 ∧
      (∀ i j, i < ta.rows → j < tb.rows → ∀ p, p = ((List.range (wf w 63 48)).map fun z =>
          intVal ta.fmt ta.qual (elemCode ta.fmt ((List.range ta.rowBytes).map fun y => tmByte k (ta.base + i * ta.stride + y)) (wf w 79 64 + z)) *
          intVal tb.fmt tb.qual (elemCode tb.fmt ((List.range tb.rowBytes).map fun y => tmByte k (tb.base + j * tb.stride + y)) (wf w 79 64 + z))).foldl (· + ·) 0 →
        a'.get i j = max (-(2 ^ 47)) (min (2 ^ 47 - 1) (acc.get i j + p))) ∧
      (∀ i j, j < 64 → ¬ (i < ta.rows ∧ j < tb.rows) → a'.get i j = acc.get i j) ∧
      t' = { s with regs := t'.regs, tcs := t'.tcs, nstat := t'.nstat, out := t'.out }

/-- R476, R481 to R484: the bytes that a gather request reads from its table and its addresses, and the output rows that it
writes, each as address and length. -/
def Sys2Proof.Machine.gatherSpans (s : State) (l : List Byte) (r : GthRequest) : List (Nat × Nat) × List (Nat × Nat) :=
  let tb := gthTable s (leAt l 13 1)
  let rows := r.idx.map fun i => (rowAddr tb i, tb.rowBytes)
  let outs (n : Nat) := (List.range n).map fun i => (r.dest + i * r.ostride, outRowBytes tb (leAt l 14 1))
  if leAt l 7 1 = 0 then (rows, outs r.idx.length)
  else if leAt l 7 1 = 1 then (rows, outs r.bend.length)
  else ((r.lut, 512 * tb.elems) :: ((r.idx.eraseDups.flatMap fun i =>
      let d := tb.dir + 16 * i
      if peekN s (d + 4) 4 = 0 then [(d, 16)] else [(d, 16), (tb.base + peekN s (d + 8) 8, tb.elems * peekN s (d + 4) 4)]) ++
      if r.oq = true ∧ r.pre ≠ 0 then [(r.preaddr, 8 * r.pre)] else []),
    if r.dest = 0 then [] else [(r.dest, 8 * leAt l 15 1)])

/-- R241, R480: the request of a dated gather task is at hand: the packet that a served task has taken, or the words in memory
that an unserved task may read. -/
def Sys2Proof.Machine.RequestAtHand (s : State) (u : Nat) (t : Task) (ws : List Word) : Prop :=
  let a := slotAddr t.block 16 24 t.slot
  (t.parent = none ∧ Readable s u t.sc a 40 ∧ ∃ n, n = gthTail (peekN s a 8) ∧ (n ≠ 0 → Readable s u t.sc (a + 40) (8 * n)) ∧
    ws = bytesToWords (peek s a 40 ++ peek s (a + 40) (8 * n))) ∨
  (t.parent.isSome = true ∧ ∃ qs leap, t.packet = some (qs, leap) ∧ (∀ q ∈ qs, q.gen = 0) ∧ ws = qs.map QWord.data)

/-- R473 to R484, R490: a gather task of dated data on its partition. A block that fails its checks keeps GTH_PBLK and a request
that fails its checks the error of R481, with nothing written. Otherwise the request is served: its output rows are written and its
reply is ready, and no byte of memory changes outside its output rows. -/
def Sys2Proof.Machine.gatherOperationsClaim : Prop :=
  ∀ (s : State) (e : Fin 10752) (t : Task) (u : Nat) (op : Nat) (c : Instr), getTask s e = some t → u = nth 128 t.units 0 →
    128 ≤ u → u < 132 → t.ttype = 6 → t.st = .running → t.err = none → t.outs = none → t.reply = none → t.worked = false →
    t.served = none → t.dataGen = 0 → op = leAt t.block 7 1 →
    (op = 0 ∧ c = .lookup e) ∨ (op = 1 ∧ c = .bag e) ∨ (op = 2 ∧ c = .probe e) →
    (gthBlockOk t.block = false ∨ gthThreadsOk s t = false →
      exec c s = .next (setTask s e { t with err := some { code := 1, addr := t.pblk } })) ∧
    (∀ ws r, gthBlockOk t.block = true → gthThreadsOk s t = true → RequestAtHand s u t ws → r = gthRequest ws →
      (gthCheck s u e t r ≠ 0 → ∃ t', exec c s = .next t' ∧ t'.mem = s.mem ∧
        getTask t' e = some { t with err := some { code := gthCheck s u e t r, addr := slotAddr t.block 16 24 t.slot } }) ∧
      (gthCheck s u e t r = 0 → (∀ p ∈ (gatherSpans s t.block r).1, Readable s u t.sc p.1 p.2) →
        (∀ p ∈ (gatherSpans s t.block r).2, Writable s u t.sc p.1 p.2) → ∃ t' words, exec c s = .next t' ∧
        getTask t' e = some { t with reply := some words, outs := some [] } ∧ ((op ≠ 2 ∨ r.oq = false) → words = []) ∧
        t' = { s with regs := t'.regs, sched := { s.sched with tasks := t'.sched.tasks }, uses := t'.uses, gthPairs := t'.gthPairs,
                      gthAhead := t'.gthAhead, memBad := t'.memBad, mem := t'.mem } ∧
        (Memory.wf s.mem = true → ∀ a, (∀ p ∈ (gatherSpans s t.block r).2, a < p.1 ∨ p.1 + p.2 ≤ a) →
          memGet t'.mem a = memGet s.mem a)))

/-- R244, R454, R485: the reply of a gather task whose rows are out. The first time it is made, the `GISS` that awaits it is told and
the flag that the request names is updated. Without a queue result, or with its queue result enqueued, the task's work is done and
counted, the last task of a stage raising DONE. A queue result waits for its flow's turn and for credit, and an undated one waits at
the dating gate before an outside-bound queue. -/
def Sys2Proof.Machine.gatherReplyClaim : Prop :=
  ∀ (s : State) (e : Fin 10752) (t : Task) (words : List Word) (u : Nat) (r : GthRequest), getTask s e = some t →
    t.reply = some words → t.outs = some [] → t.err = none → t.st = .running → t.worked = false → u = nth 128 t.units 0 →
    128 ≤ u → u < 132 → r = gthReq s t →
    (r.oq = false → ∃ t', exec (.gatherReply e) s = .next t' ∧ (getTask t' e).map Task.worked = some true ∧
      getR t' (gthRegs u + 0x40) = getR s (gthRegs u + 0x40) + 1 ∧ (t.parent = none → flag t' (gthRegs u + 0x20) 0 = true) ∧
      t'.mem = s.mem ∧
      (t.told = false → (r.giss = true → gissAt (getTc s r.core).core = some r.dest →
          (getTc t' r.core).core.reply = some true) ∧
        (∀ g, r.flagen = true → getGraph s t.src t.ctx = some g → ∀ w, getFlag t' w =
          getFlag (flagUpdate s t.src t.slot t.frame (eff s t.dataGen) (flagAddr g t.slot r.flag) true 1).1 w)) ∧
      (t.told = true ∨ r.flagen = false → t'.flags = s.flags)) ∧
    (∀ s2, r.oq = true → s2 = (if t.told = true then s else setTask s e { t with told := true }) →
      t.told = true ∨ (r.giss = false ∧ r.flagen = false) → s.flowWait.contains e.val = false →
      (flowHeld s t = true → exec (.gatherReply e) s = .next { s2 with flowWait := s2.flowWait ++ [e.val] }) ∧
      (flowHeld s t = false → (getQ s r.oqid).cfg.out = true → eff s t.dataGen ≠ 0 → exec (.gatherReply e) s
        = .next (raise (stopAtGate s2 e { t with told := true } t.dataGen) (gthRegs u + 0x20) 2)) ∧
      (flowHeld s t = false → ¬ ((getQ s r.oqid).cfg.out = true ∧ eff s t.dataGen ≠ 0) → ∀ s1 o,
        enqUnit s2 r.oqid u (eff s t.dataGen) words = (s1, o) →
        (o = .waits → exec (.gatherReply e) s = .next s1) ∧
        (o ≠ .waits → ∃ t', exec (.gatherReply e) s = .next t' ∧ ((getTask s1 e).isSome = true →
          (getTask t' e).map Task.worked = some true ∧ getR t' (gthRegs u + 0x40) = getR s1 (gthRegs u + 0x40) + 1))))

/-- A gather task's operation and its reply: the two statements above together. -/
def Obligations.GatherTasks : Prop :=
  gatherOperationsClaim ∧ gatherReplyClaim

/-- A codec command that is taken (R15 to R19, R518): it reaches CDC_CMD from the codec's world while none runs. -/
def Sys2Proof.Machine.CdcTakes (s : State) (secure : Bool) : Prop :=
  Reaches s secure false (cdcBase + 0x40) ∧ flag s (cdcBase + 0x44) 31 = false ∧ secure = unitWorld s 196

/-- The arguments of a codec command as they stand in CDC_ARG0 on (R518). -/
def Sys2Proof.Machine.cdcArgs (s : State) (l : List Nat) : State :=
  l.zipIdx.foldl (fun s p => setR s (cdcBase + 0x48 + 4 * p.2) (reg p.1)) s

/-- R500, R501, R506 to R510, R517, R518: the commands of CDC_CMD, whose arguments stand in CDC_ARG. One that comes while a command
runs sets RESULT 3 and one from the wrong world RESULT 5, and does nothing else. `MOUNT` mounts the volume, or tries the bring-up
again while the port is down; `FORMAT` writes a sound header image to both copies and is refused on a bad image or while a graph
encodes; `PIN`, `UNPIN`, `REPLAY_START` and `RING_CLEAR` answer 2 without a volume and 1 without the ring, pin or unpin the segments
that the ring holds, set the rewind mark, and put a ring in FAULT back to ACTIVE; `REPLAY_STOP` discards the pending activations and
keeps the rewind mark. -/
def Obligations.RecordCommands : Prop :=
  ∀ (s : State) (secure : Bool),
    (∀ c s0, ((c = .mount secure ∧ s0 = s) ∨ (∃ a, c = .format secure a ∧ s0 = cdcArgs s [a % 2 ^ 32, a / 2 ^ 32]) ∨
        (∃ n q k, (c = .pin secure n q k ∨ c = .unpin secure n q k) ∧ s0 = cdcArgs s [n, q, k]) ∨
        (∃ n q, c = .replayStart secure n q ∧ s0 = cdcArgs s [n, q]) ∨ (c = .replayStop secure ∧ s0 = s) ∨
        (∃ n, c = .ringClear secure n ∧ s0 = cdcArgs s [n])) →
      Reaches s secure false (cdcBase + 0x40) →
      (flag s (cdcBase + 0x44) 31 = true → exec c s = .next (setField s0 (cdcBase + 0x44) 7 0 3)) ∧
      (flag s (cdcBase + 0x44) 31 = false → secure ≠ unitWorld s 196 → exec c s = .next (cdcResult s0 5))) ∧
    (CdcTakes s secure →
      (s.cdc.replay.active = true → exec (.mount secure) s = .next (cdcResult s 3) ∧
        ∀ a, exec (.format secure a) s = .next (cdcResult (cdcArgs s [a % 2 ^ 32, a / 2 ^ 32]) 3)) ∧
      (s.cdc.replay.active = false → s.hif.nv.up = true → exec (.mount secure) s = .next (cdcResult (mountVolume s).1 (mountVolume s).2)) ∧
      (s.cdc.replay.active = false → s.hif.nv.up = false → ∃ t, exec (.mount secure) s = .next t ∧ t.hif.nv.bring = true ∧
        flag t (cdcBase + 0x44) 31 = true ∧ t = { s with regs := t.regs, hif := t.hif, cdc := t.cdc }) ∧
      (∀ a s0, s0 = cdcArgs s [a % 2 ^ 32, a / 2 ^ 32] → s.cdc.replay.active = false →
        ((∃ n < 16, encodesTo s n = true) → exec (.format secure a) s = .next (cdcResult s0 4)) ∧
        ((∀ n < 16, encodesTo s n = false) → s.hif.nv.up = false → exec (.format secure a) s = .next (cdcResult s0 6)) ∧
        (∀ l, (∀ n < 16, encodesTo s n = false) → s.hif.nv.up = true → spaceOf a = .dram →
          Readable s 196 false a 4096 → l = peek s a 4096 →
          (headerOk l = false → exec (.format secure a) s = .next (cdcResult s0 1)) ∧
          (headerOk l = true → ∃ t, exec (.format secure a) s = .next t ∧ headerCopy t 0 = some l ∧ headerCopy t 1 = some l ∧
            (t.cdc.vol, getN t (cdcBase + 0x44)) = (0, 0) ∧ (∀ n, (getRing t n).st = 0) ∧
            t = { s with regs := t.regs, cdc := t.cdc, out := t.out }))) ∧
      (∀ n q k res, (s.cdc.vol ≠ 1 ∧ res = 2) ∨ (s.cdc.vol = 1 ∧ (16 ≤ n ∨ (getRing s n).st = 0) ∧ res = 1) →
        exec (.pin secure n q k) s = .next (cdcResult (cdcArgs s [n, q, k]) res) ∧
        exec (.unpin secure n q k) s = .next (cdcResult (cdcArgs s [n, q, k]) res) ∧
        exec (.replayStart secure n q) s = .next (cdcResult (cdcArgs s [n, q]) res) ∧
        exec (.ringClear secure n) s = .next (cdcResult (cdcArgs s [n]) res)) ∧
      (∀ n, s.cdc.vol = 1 → n < 16 → (getRing s n).st ≠ 0 → ∀ r, r = getRing s n →
        (∀ q k x s0, x = namedSegs r q k → s0 = cdcArgs s [n, q, k] →
          exec (.pin secure n q k) s = .next (cdcResult (incBy (x.1.foldl (fun s q => pinSeg s n q) s0) (recBase n + 0x38) x.2) 0) ∧
          exec (.unpin secure n q k) s = .next (cdcResult (((r.index.filter fun p => p.2.pinned && x.1.contains p.2.seq).map Prod.fst).foldl
            (fun s k => unpinSlot s n k) (setRing s0 n { r with pinLater := r.pinLater.filter fun y => !x.1.contains y })) 0)) ∧
        (∀ q s0, s0 = cdcArgs s [n, q] →
          (s.cdc.replay.active = true → exec (.replayStart secure n q) s = .next (cdcResult s0 3)) ∧
          (∀ p, s.cdc.replay.active = false → q ≠ 0xFFFFFFFF → r.index.find? (fun p => p.2.seq == q) = some p →
            ∃ t, exec (.replayStart secure n q) s = .next t ∧ t.cdc.replay.active = true ∧ t.cdc.replay.ring = n ∧
              t.cdc.replay.rm = some p.1 ∧ getN t (cdcBase + 0x44) = 0) ∧
          (s.cdc.replay.active = false → q = 0xFFFFFFFF → r.index ≠ [] →
            ∃ t, ∃ p ∈ r.index, exec (.replayStart secure n q) s = .next t ∧ t.cdc.replay.active = true ∧ t.cdc.replay.ring = n ∧
              t.cdc.replay.rm = some p.1 ∧ getN t (cdcBase + 0x44) = 0) ∧
          (s.cdc.replay.active = false → q ≠ 0xFFFFFFFF → r.index.find? (fun p => p.2.seq == q) = none →
            exec (.replayStart secure n q) s = .next (cdcResult s0 1))) ∧
        (encodesTo s n = true → exec (.ringClear secure n) s = .next (cdcResult (cdcArgs s [n]) 4)) ∧
        (encodesTo s n = false → exec (.ringClear secure n) s
          = .next (cdcResult (setRing (cdcArgs s [n]) n { r with st := 1, lostRow := 0 }) 0))) ∧
      (∃ t, exec (.replayStop secure) s = .next t ∧ t.cdc.replay.active = false ∧ (getSeq t 16).acts = [] ∧
        t.cdc.replay.rm = s.cdc.replay.rm ∧ getN t (cdcBase + 0x44) = 0))

/-- R184, R193, R194: a unit finds a sound packet at the head of a queue it may dequeue as receiver `r`: no marker stands before it,
none of it has been taken, and neither it nor the queue's pointers are damaged. -/
def Sys2Proof.Machine.HoldsPacket (s : State) (q r init : Nat) (p : Packet) : Prop :=
  qValid s q = true ∧ r < (getQ s q).recvs.length ∧ ((getQ s q).cfg.world = true → unitWorld s init = true) ∧
    (getQ s q).ptrBad = false ∧ (nth {} (getQ s q).recvs r).markers = [] ∧ (nth {} (getQ s q).recvs r).off = 0 ∧
    headFor (getQ s q) (nth {} (getQ s q).recvs r) = some p ∧ p.bad = false ∧ p.soft = 0 ∧ p.words ≠ []

/-- R505, R506, R510, R511, R515, R649: the record writer and reader. The writer takes a closed segment from its ring's queue and
issues its write to the slot, and waits while that slot is read; an answered write is followed by the index write, and that one's
answer counts the segment, moves WP and frees the spool slot. A command that fails or is not answered in time is issued once more;
a write that fails again loses the segment, and after eight in a row the ring enters FAULT. The reader issues the read of the
segment at the rewind mark, which moves on, or makes the next frame read an activation of SEQ 16. -/
def Sys2Proof.Machine.recordWriterAndReaderClaim : Prop :=
  (∀ (s : State) (n : Nat) (r : Ring) (k : Nat), s.cdc.vol = 1 → s.hif.nv.up = true → s.cdc.write = none → nextRing s = some n →
    r = getRing s n → k = nextSlot r →
    (reading s n k = true → exec .recordWrite s = .next s) ∧
    (∀ s1 ws g, reading s n k = false → deqPacket s (4032 + n) 196 0 9 = (s1, ws, false) →
      (getRing s1 n).spool.find? (fun g => g.seq == leAt (packetBytes ws) 4 4) = some g →
      ∃ t, exec .recordWrite s = .next t ∧ t.cdc.write = some { ring := n, seg := g, slot := k, issued := now t } ∧
        (∀ x ∈ (getRing t n).index, x.1 ≠ k)) ∧
    (∀ p g, reading s n k = false → HoldsPacket s (4032 + n) 0 196 p → p.words.length ≤ 9 → p.leap = false →
      r.spool.find? (fun g => g.seq == leAt (packetBytes p.words) 4 4) = some g →
      ∃ t, exec .recordWrite s = .next t ∧ t.cdc.write = some { ring := n, seg := g, slot := k, issued := now s }) ∧
    (∀ s1 ws, reading s n k = false → deqPacket s (4032 + n) 196 0 9 = (s1, ws, true) →
      exec .recordWrite s = .next (setRing s1 n { getRing s1 n with leap := (getRing s1 n).leap + leAt (packetBytes ws) 0 4 }))) ∧
  (∀ (s : State) (o : WriteOp), s.cdc.write = some o → ∀ r, r = getRing s o.ring →
    (o.index = false → ∃ t, exec (.nvmeCommandComplete false true) s = .next t ∧ (∃ o', t.cdc.write = some o' ∧ o'.index = true ∧ o'.slot = o.slot ∧ o'.ring = o.ring) ∧
      (getRing t o.ring).index.find? (fun p => p.1 == o.slot) = some (o.slot, { o.seg.entry with leap := satN 0xFFFF r.leap, written := now s })) ∧
    (o.index = true → r.pinLater.contains o.seg.seq = false → ∃ t, exec (.nvmeCommandComplete false true) s = .next t ∧ t.cdc.write = none ∧
      (getRing t o.ring).wp = o.slot ∧ (∀ g ∈ (getRing t o.ring).spool, g.seq ≠ o.seg.seq) ∧
      getR t (recBase o.ring + 0x20) = getR s (recBase o.ring + 0x20) + 1) ∧
    (∀ c : Instr, (c = .nvmeCommandComplete false false ∨ c = .nvmeCommandTimeout false) →
      (o.retried = false → ∃ t o', exec c s = .next t ∧ t.cdc.write = some o' ∧ o'.retried = true ∧ o'.slot = o.slot ∧ o'.seg = o.seg ∧
        (getRing t o.ring) = r) ∧
      (o.retried = true → ∃ t, exec c s = .next t ∧ t.cdc.write = none ∧ (getRing t o.ring).leap = r.leap + 1 ∧
        (∀ g ∈ (getRing t o.ring).spool, g.seq ≠ o.seg.seq) ∧ (7 ≤ r.lostRow → (getRing t o.ring).st = 2) ∧
        (r.lostRow < 7 → (getRing t o.ring).st = r.st)))) ∧
  (∀ (s : State) (p : Replay), p = s.cdc.replay → p.active = true →
    (∀ f fs, p.frames = f :: fs → (getSeq s 16).acts.length < 4 → ∃ t, exec .replayRead s = .next t ∧ t.cdc.replay.frames = fs ∧
      t.cdc.replay.skipped = 0) ∧
    (∀ f fs, p.frames = f :: fs → 4 ≤ (getSeq s 16).acts.length → exec .replayRead s = .next s) ∧
    (∀ k x, p.frames = [] → p.read = none → s.cdc.vol = 1 → s.hif.nv.up = true → p.rm = some k →
      (getRing s p.ring).index.find? (fun x => x.1 == k) = some x → ∃ t, exec .replayRead s = .next t ∧
      t.cdc.replay.read = some { ring := p.ring, slot := k, seq := x.2.seq, leap := x.2.leap, issued := now s } ∧
      t.cdc.replay.rm = slotAbove (getRing s p.ring) x.2.seq) ∧
    (∀ o, p.read = some o → o.retried = false → ∀ c : Instr, (c = .nvmeCommandComplete true false ∨ c = .nvmeCommandTimeout true) →
      ∃ t o', exec c s = .next t ∧ t.cdc.replay.read = some o' ∧ o'.retried = true ∧ o'.slot = o.slot))

/-- R648, R649: the NVMe port. A fatal controller is reset and brought up once; a bring-up that ends well sets the port up with
its link and mounts the volume where none is mounted or the command asked for it; one that fails leaves no volume, and after a
fatal error every ring enters FAULT. -/
def Sys2Proof.Machine.nvmePortClaim : Prop :=
  ∀ (s : State),
    (s.hif.nv.up = true → ∃ t, exec .nvmeControllerFatal s = .next t ∧ t.hif.nv.up = false ∧ t.hif.nv.bring = true ∧
      t.hif.nv.fatal = true ∧ getR t (hifBase + 0x100) = 0 ∧ t = { s with regs := t.regs, hif := t.hif }) ∧
    (∀ width speed, s.hif.nv.bring = true →
      (∃ t, exec (.nvmeBringup true width speed) s = .next t ∧ t.hif.nv.up = true ∧ t.hif.nv.bring = false ∧
        getR t (hifBase + 0x100) = reg (2 ^ 31 + width * 2 ^ 16 + speed) ∧
        ((s.cdc.mounting = true ∨ s.cdc.vol = 0) → headerCopy s 0 = none → headerCopy s 1 = none → t.cdc.vol = 2) ∧
        ((s.cdc.mounting = true ∨ s.cdc.vol = 0) → (headerCopy s 0).isSome = true → t.cdc.vol = 1)) ∧
      (s.hif.nv.fatal = false → ∃ t, exec (.nvmeBringup false width speed) s = .next t ∧ t.hif.nv.up = false ∧
        t.hif.nv.bring = false ∧ t.cdc.vol = 2) ∧
      (s.hif.nv.fatal = true → ∃ t, exec (.nvmeBringup false width speed) s = .next t ∧ t.hif.nv.up = false ∧ t.cdc.vol = 0 ∧
        flag t (hifBase + 0x10) 2 = true ∧ ∀ n < 16, (getRing s n).st ≠ 0 → (getRing t n).st = 2))

/-- The record writer and reader, and the NVMe port: the two statements above together. -/
def Obligations.RecordWriterAndReader : Prop :=
  recordWriterAndReaderClaim ∧ nvmePortClaim

/-- R496 to R499, R513, R514: the codec's stages. The encoder codes the dated picture of a sound block that comes later than the
stream's last one: the open segment of its ring ends with that frame, and the picture is counted. The decoder writes the replayed
frame of its slot, with the reference it holds as the decoded bytes say, and its frame info; no other byte of memory changes. An
open segment closes when its time is over. -/
def Obligations.CodecStages : Prop :=
  (∀ (s : State) (e : Nat) (t : Task) (rows : List (Nat × Nat)), engTask s 196 = some (e, t) → getTask s e = some t →
    t.outs = none → t.stream < 16 →
    ∀ l r w, l = t.block → r = getRing s t.stream → w = leAt l 8 2 * (leAt l 2 1 + 1) → encBlockOk l r = true →
    (∀ x, r.last = some x → (t.frame + 2 ^ 32 - x - 1) % 2 ^ 32 < 2 ^ 31 - 1) →
    rows = planeRows (slotAddr l 24 32 t.slot) (leAt l 36 4) (leAt l 10 2) w ++
      planeRows (slotAddr l 24 32 t.slot + leAt l 36 4 * leAt l 10 2) (leAt l 36 4) (leAt l 10 2 / 2) w →
    (∀ p ∈ rows, Readable s 196 t.sc p.1 p.2) → (leAt l 40 8 ≠ 0 → Readable s 196 t.sc (slotAddr l 40 48 t.slot) 64) →
    ∃ t', exec .encodeStage s = .next t' ∧ (getTask t' e).map Task.worked = some true ∧ t'.mem = s.mem ∧
      (getRing t' t.stream).last = some t.frame ∧ getR t' (cdcBase + 0x60) = getR s (cdcBase + 0x60) + 1 ∧
      ((getRing t' t.stream).cur.bind fun g => g.frames.getLast?).map (fun f => (f.frame, f.tstamp, f.epoch)) =
        some (t.frame, t.tstamp, t.epoch)) ∧
  (∀ (s : State) (e : Nat) (t : Task) (f : RepFrame), engTask s 197 = some (e, t) → getTask s e = some t →
    t.outs = none → decBlockOk t.block = true →
    (getSlot s t.src t.slot).rep = some f → f.bad = false → ∀ l w st dst, l = t.block → w = f.w * (b2n f.main10 + 1) →
    st = leAt l 20 4 → w ≤ st → st * 3 * f.h / 2 ≤ leAt l 16 4 → dst = slotAddr l 8 16 t.slot →
    (∀ y < f.h + f.h / 2, Writable s 197 t.sc (dst + y * st) w) → (leAt l 24 8 ≠ 0 → Writable s 197 t.sc (slotAddr l 24 32 t.slot) 64) →
    Memory.wf s.mem = true → ∃ t', exec .decodeStage s = .next t' ∧ (getTask t' e).map Task.worked = some true ∧
      getR t' (cdcBase + 0x64) = getR s (cdcBase + 0x64) + 1 ∧ t'.cdc.replay.ref = some (f.ring, f.seq, f.index) ∧
      (leAt l 24 8 ≠ 0 → peek t' (slotAddr l 24 32 t.slot) 64 = f.info) ∧
      (leAt l 24 8 = 0 → hasRef s f = true → ∀ y x, y < f.h + f.h / 2 → x < w →
        memGet t'.mem (dst + y * st + x) = Config.decodedByte f.coded (y * w + x)) ∧
      (∀ a, (∀ y < f.h + f.h / 2, a < dst + y * st ∨ dst + y * st + w ≤ a) →
        (leAt l 24 8 ≠ 0 → a < slotAddr l 24 32 t.slot ∨ slotAddr l 24 32 t.slot + 64 ≤ a) → memGet t'.mem a = memGet s.mem a)) ∧
  (∀ (s : State) (n : Fin 16) (g : RecSeg), (getRing s n).cur = some g →
    exec (.segmentCloseTimeout n) s = .next (closeSeg (advance s (g.t0 + 2100000000)) n) ∧
    (getRing (closeSeg (advance s (g.t0 + 2100000000)) n) n).cur = none)

/-- R617, R618, R621: the frames of a segment that is up. A frame with a bad FCS or length, then one for another station, is
discarded and counted; a stranger goes to the stranger queue and any other frame to the receive queue, as a packet of its
description, its time and its bytes, and one that the queue drops is counted. A transmit packet with a good word 0 goes on the
wire; one with a bad word 0 is discarded and counted. -/
def Sys2Proof.Machine.segmentFramesClaim : Prop :=
  ∀ (s : State) (g : Fin 2), dieOn s = true → segState s g = 1 →
    (∀ node fcsOk l, fcsOk = false ∨ l.length < 60 ∨ 1518 < l.length →
      exec (.segmentFrameReceive g node fcsOk l) s = .next (segCount s g 3)) ∧
    (∀ (node : Fin 256) l mine dst, 60 ≤ l.length → l.length ≤ 1518 → dst = l.take 6 →
      (mine ↔ dst = macAt s (segBase g + 0x08) ∨ dst = List.replicate 6 0xFF ∨
        ∃ k < 8, flag s (segBase g + 0x84 + 8 * k) 31 = true ∧ macAt s (segBase g + 0x80 + 8 * k) = dst) →
      (¬ mine → exec (.segmentFrameReceive g node true l) s = .next (segCount s g 2)) ∧
      (mine → ∀ plca st s1 ws, plca = flag s (segBase g + 0x10) 29 →
        st = stranger s g (slice l 6 6) (if plca then some node.val else none) → s1 = segCount s g (if st then 1 else 0) →
        ws = frameWords (l.length + 2 ^ 16 * g + 2 ^ 24 * (b2n st + 2 * b2n (!plca)) + 2 ^ 32 * (if plca then node.val else 0xFF)) (now s) l →
        exec (.segmentFrameReceive g node true l) s = .next (if (enqPacket s1 ((if st then 3970 else 3968) + g) 207 0 ws).2 = .taken
          then (enqPacket s1 ((if st then 3970 else 3968) + g) 207 0 ws).1
          else segCount (enqPacket s1 ((if st then 3970 else 3968) + g) 207 0 ws).1 g 4))) ∧
    (∀ src, (∀ k < 32, ¬ (flag s (segBase g + 0x104 + 8 * k) 31 = true ∧ macAt s (segBase g + 0x100 + 8 * k) = src)) →
      ∀ node, stranger s g src node = true) ∧
    (∀ s1 ws, (headFor (getQ s (3973 + g)) (nth {} (getQ s (3973 + g)).recvs 0)).isSome = true →
      deqPacket s (3973 + g) 207 0 2048 = (s1, ws, false) →
      (∀ n l, txFrame ws 1518 0xFFFF = some (n, l) → exec (.segmentTransmit g) s = .next (emit (segCount s1 g 10) (.segTx g l))) ∧
      (txFrame ws 1518 0xFFFF = none → exec (.segmentTransmit g) s = .next (segCount s1 g 12))) ∧
    (∀ p n l, HoldsPacket s (3973 + g) 0 207 p → p.words.length ≤ 2048 → p.leap = false → txFrame p.words 1518 0xFFFF = some (n, l) →
      ∃ t, exec (.segmentTransmit g) s = .next t ∧ t.out = s.out ++ [.segTx g l] ∧
        getR t (segBase g + 0x20 + 4 * 10) = getR s (segBase g + 0x20 + 4 * 10) + 1 ∧
        t = { s with regs := t.regs, queues := t.queues, out := t.out })

/-- R616, R622 to R624, R628, R634: what else happens on a segment. A coordinator beacons and a follower follows; a follower
without BEACONs falls back to CSMA/CD; a third conflict within a second holds a coordinator in CSMA/CD. Events on the wire are
counted, and jabber and unexpected collisions raised. A conductor beyond 5 V isolates the segment, and one within 3 V brings it
back; each change of state is one field event. A wake burst is jabber while the data path runs and a wake source otherwise. A
configuration is taken field by field: one out of its range keeps its value, and so do COORD and NODEID where a coordinator would
have another node than 0 (log entry 124). -/
def Sys2Proof.Machine.segmentConditionsClaim : Prop :=
  ∀ (s : State) (g : Fin 2),
    (dieOn s = true → segState s g = 1 →
      (∀ x, x = getSeg s g → flag s (segBase g) 30 = true →
        (flag s (segBase g) 29 = true → x.held = false → x.backoff ≤ now s →
          exec (.beacon g false) s = .next (segAccess (emit s (.beacon g)) g true false)) ∧
        (flag s (segBase g) 29 = false → exec (.beacon g true) s = .next (segAccess s g true false) ∧
          exec (.beaconLoss g) s = .next (segAccess s g false true)) ∧
        (flag s (segBase g) 29 = true → (x.conflicts.filter fun t => decide (now s < t + 1000000000)).length = 2 →
          ∃ t, exec (.beacon g true) s = .next t ∧ (getSeg t g).held = true ∧ flag t (fldBase + 0x10) 6 = true ∧
            flag t (segBase g + 0x10) 28 = true) ∧
        (flag s (segBase g) 29 = true → (x.conflicts.filter fun t => decide (now s < t + 1000000000)).length < 2 →
          ∃ t, exec (.beacon g true) s = .next t ∧ (getSeg t g).held = x.held ∧ now s + 10000000 ≤ (getSeg t g).backoff ∧
            (getSeg t g).backoff ≤ now s + 20000000 ∧ flag t (segBase g + 0x10) 28 = true)) ∧
      exec (.jabber g .noise) s = .next (segCount s g 5) ∧
      exec (.jabber g .jabber) s = .next (raise (segCount s g 6) (fldBase + 0x10) 4) ∧
      (flag s (segBase g + 0x10) 29 = false → exec (.jabber g .collision) s = .next (segCount s g 7)) ∧
      (flag s (segBase g + 0x10) 29 = true → exec (.jabber g .collision) s = .next (raise (segCount s g 8) (fldBase + 0x10) 5)) ∧
      exec (.jabber g .late) s = .next (segCount s g 9) ∧
      exec (.jabber g .own) s = .next (raise (segCount s g 11) (fldBase + 0x10) 4) ∧
      (∀ v : BitVec 16, 500 < v.toInt.natAbs → ∃ t, exec (.segmentIsolate g v) s = .next t ∧ segState t g = 2 ∧
        field t (segBase g + 0x10) 15 0 = v.toNat ∧ flag t (fldBase + 0x10) 3 = true ∧
        getR t (segBase g + 0x20 + 4 * 14) = getR s (segBase g + 0x20 + 4 * 14) + 1 ∧
        getR t (fldBase + 0xF4) = getR s (fldBase + 0xF4) + 1) ∧
      (s.power.st = .run → exec (.wakeBurst g) s = .next (raise (segCount s g 6) (fldBase + 0x10) 4))) ∧
    (∀ v : BitVec 16, segState s g = 2 →
      (v.toInt.natAbs ≤ 300 → ∃ t, exec (.segmentLineTest g v) s = .next t ∧ segState t g = 1 ∧
        getR t (fldBase + 0xF4) = getR s (fldBase + 0xF4) + 1) ∧
      (300 < v.toInt.natAbs → exec (.segmentLineTest g v) s = .next (setField s (segBase g + 0x10) 15 0 v.toNat))) ∧
    (s.power.st ≠ .run → s.power.st ≠ .off → segState s g ≠ 2 → flag s (fldBase + 0x18) g = true → flag s (pwrBase + 0x30) 5 = true →
      exec (.wakeBurst g) s = .next (wakeSource (segCount s g 15) 5)) ∧
    (∀ secure v n o nd, Reaches s secure (flag s (fwlBase + 0xA0) 3) (segBase g) → n = v.toNat → o = getN s (segBase g) →
      nd = (if bits 23 16 n ≤ 254 then bits 23 16 n else bits 23 16 o) →
      ∃ t x, exec (.fldSegCfg secure g v) s = .next t ∧ x = getN t (segBase g) ∧ bits 31 30 x = bits 31 30 n ∧
        (¬ (bit 29 n = true ∧ nd ≠ 0) → bit 29 x = bit 29 n ∧ bits 23 16 x = nd) ∧
        (bit 29 n = true ∧ nd ≠ 0 → bit 29 x = bit 29 o ∧ bits 23 16 x = bits 23 16 o) ∧
        bits 15 8 x = (if 2 ≤ bits 15 8 n ∧ bits 15 8 n ≤ 32 then bits 15 8 n else bits 15 8 o) ∧
        bits 7 0 x = (if bits 7 0 n = 0 then bits 7 0 o else bits 7 0 n) ∧ bits 28 24 x = bits 28 24 o ∧
        (getSeg t g).held = false ∧ (getSeg t g).conflicts = [] ∧ flag t (segBase g + 0x10) 29 = (bit 31 n && bit 30 n) ∧
        (bit 31 n = false → segState t g = 0) ∧ (bit 31 n = true → segState s g = 0 → segState t g = 1) ∧
        (bit 31 n = true → segState s g ≠ 0 → segState t g = segState s g))

/-- The field segments: frames and conditions: the two statements above together. -/
def Obligations.FieldSegments : Prop :=
  segmentFramesClaim ∧ segmentConditionsClaim

/-- R626: the class that a sample takes: the first row of the table whose condition holds. -/
def Sys2Proof.Machine.sampleSpec (shortT alarmT openT fvth : Nat) (pol : Bool) (voff fwd rev c : Nat) : Prop :=
  let foreign := 10 * fvth < voff
  let reversed := pol = true ∧ openT ≤ fwd ∧ rev < openT
  (c = 6 ∧ foreign) ∨ (c = 5 ∧ ¬ foreign ∧ reversed) ∨ (c = 3 ∧ ¬ foreign ∧ ¬ reversed ∧ fwd < shortT) ∨
    (c = 1 ∧ ¬ foreign ∧ ¬ reversed ∧ shortT ≤ fwd ∧ fwd < alarmT) ∨
    (c = 2 ∧ ¬ foreign ∧ ¬ reversed ∧ shortT ≤ fwd ∧ alarmT ≤ fwd ∧ fwd < openT) ∨
    (c = 4 ∧ ¬ foreign ∧ ¬ reversed ∧ shortT ≤ fwd ∧ alarmT ≤ fwd ∧ openT ≤ fwd)

/-- R625 to R628: a sample of an enabled alarm input takes the first class of the table that holds, and its values stand in the
input's registers with the count of samples of that class. When DEB consecutive samples have taken a class other than the state,
that class becomes the state: one event is counted, numbered and raised, and wakes the module where WAKE is set. -/
def Obligations.AlarmInputs : Prop :=
  ∀ (s : State) (i : Fin 8) (voff fwd rev : BitVec 16) (a : Nat), flag s (fldBase + 0x20 + 4 * i) 31 = true → s.power.st ≠ .off →
    a = fldBase + 0x60 + 4 * i → ∃ c run s1,
      sampleSpec (field s (fldBase + 0x40) 15 0) (field s (fldBase + 0x40) 31 16) (field s (fldBase + 0x44) 15 0)
        (field s (fldBase + 0x44) 25 16) (flag s (fldBase + 0x20 + 4 * i) 29) voff.toInt.natAbs fwd.toNat rev.toNat c ∧
      (field s a 27 24 = c → run = min 255 (field s a 23 16 + 1)) ∧ (field s a 27 24 ≠ c → run = 1) ∧
      getN s1 a = field s a 31 28 * 2 ^ 28 + c * 2 ^ 24 + run * 2 ^ 16 + fwd.toNat ∧
      getN s1 (fldBase + 0x80 + 4 * i) = voff.toNat ∧ s1 = { s with regs := s1.regs } ∧
      (c = field s a 31 28 ∨ run < field s (fldBase + 0x20 + 4 * i) 7 0 → exec (.inputSample i voff fwd rev) s = .next s1) ∧
      (c ≠ field s a 31 28 → field s (fldBase + 0x20 + 4 * i) 7 0 ≤ run → ∃ t, exec (.inputSample i voff fwd rev) s
          = .next (if flag s (fldBase + 0x20 + 4 * i) 30 then wakeSource t 4 else t) ∧ field t a 31 28 = c ∧
        getR t (fldBase + 0xE0) = getR s (fldBase + 0xE0) + 1 ∧ getR t (fldBase + 0xF4) = getR s (fldBase + 0xF4) + 1 ∧
        flag t (fldBase + 0x10) 0 = true)

/-- R628 to R631, R633: the supervised outputs. A write of FLD_OUT_CMD commands the enabled outputs alone. A short opens the switch
of an output that is on, and RETRY ms later it closes again; an open load, a hot switch and a supply out of band give their
states, and the output follows its command again once the condition has ended. -/
def Obligations.SupervisedOutputs : Prop :=
  ∀ (s : State),
    (∀ secure v, Reaches s secure (flag s (fwlBase + 0xA0) 3) (fldBase + 0xB0) → ∃ t, exec (.fldOutCmd secure v) s = .next t ∧
      (∀ o < 4, outEn s o = true → flag t (fldBase + 0xB0) o = bit o v.toNat) ∧
      (∀ o < 4, outEn s o = false → flag t (fldBase + 0xB0) o = flag s (fldBase + 0xB0) o ∧ getOut t o = getOut s o) ∧
      (∀ o < 4, outEn s o = true → flag s (fldBase + 0xB0) o ≠ bit o v.toNat → s.fld.vfldBad = false →
        (bit o v.toNat = false → (getOut t o).st = 1) ∧ (bit o v.toNat = true → (getOut s o).hot = false → (getOut t o).st = 2) ∧
        (bit o v.toNat = true → (getOut s o).hot = true → (getOut t o).st = 5))) ∧
    (∀ (o : Fin 4) (current : Fin 65536),
      (outOn s o = true → ∃ t, exec (.outputShort o current) s = .next t ∧ (getOut t o).st = 3 ∧ (getOut t o).current = current ∧
        (getOut t o).retryAt = some (now s + 1000000 * field s (fldBase + 0xA0 + 4 * o) 13 0) ∧
        getR t (fldBase + 0xE4) = getR s (fldBase + 0xE4) + 1 ∧ flag t (fldBase + 0x10) 1 = true) ∧
      (∀ w, (getOut s o).retryAt = some w → (getOut s o).st = 3 → outEn s o = true → outCmd s o = true → s.fld.vfldBad = false →
        timeRuns s = true → ∃ t, exec (.outputRetry o) s = .next t ∧ now t = max w (now s) ∧ (getOut t o).st = (if (getOut s o).hot then 5 else 2) ∧
          (getOut t o).retryAt = none) ∧
      (outEn s o = true → (getOut s o).st = 2 ∨ ((getOut s o).st = 1 ∧ flag s (fldBase + 0xA0 + 4 * o) 30 = true) →
        ∃ t, exec (.outputOpen o current) s = .next t ∧ (getOut t o).st = 4 ∧ getR t (fldBase + 0xEC) = getR s (fldBase + 0xEC) + 1 ∧
          flag t (fldBase + 0x10) 1 = true) ∧
      ((getOut s o).st = 4 → ∃ t, exec (.openLoadCleared o current) s = .next t ∧ (getOut t o).st = (if outCmd s o then 2 else 1)) ∧
      (outOn s o = true → ∃ t, exec (.outputTherm o true current) s = .next t ∧ (getOut t o).st = 5 ∧ (getOut t o).hot = true ∧
        getR t (fldBase + 0xE8) = getR s (fldBase + 0xE8) + 1 ∧ flag t (fldBase + 0x10) 1 = true) ∧
      ((getOut s o).st = 5 → outEn s o = true → outCmd s o = true → s.fld.vfldBad = false →
        ∃ t, exec (.outputTherm o false current) s = .next t ∧ (getOut t o).st = 2 ∧ (getOut t o).hot = false)) ∧
    (∀ mv : Fin 65536, 22080 ≤ mv.val → mv.val ≤ 25920 → s.power.st ≠ .off → s.fld.vfldBad = true → ∃ t,
      exec (.vfldRestore mv) s = .next t ∧ t.fld.vfldBad = false ∧ flag t (fldBase + 0x10) 2 = true ∧
      ∀ o < 4, outEn s o = true → outCmd s o = false → (getOut t o).st = 1)

/-- R636, R637, R642, R656, R658, R676, R677: the functions and the link. A function-level reset puts the function's configuration
to its defaults with its handshake flag clear, masks its vectors, unbinds its rings and does nothing to the other function; losing
the link does so to both and is counted. The link trains, reaches L0 with its width and speed, which releases PCIE_WAKE_N, and
goes to L2. A configuration request is answered with the values of the function, with Unsupported Request where it is absent, and
with a retry before boot step 6. A message that is pending on a vector is sent when the vector is unmasked. -/
def Obligations.FunctionsAndLink : Prop :=
  ∀ (s : State),
    (∀ f : Fin 2, dieOn s = true → s.hif.link = .l0 → fnPresent s f = true → ∃ t, exec (.functionLevelReset f) s = .next t ∧
      getFn t f = { lastRing := (getFn s f).lastRing } ∧ (∀ r < 32, ringBound t f r = false) ∧
      (∀ v < 2048, flag t (fnPage f + 16 * v + 12) 0 = true) ∧
      t = { s with regs := t.regs, queues := t.queues, hif := t.hif } ∧ (∀ h : Fin 2, h ≠ f → getFn t h = getFn s h) ∧
      ∀ a, a < fnPage f ∨ fnPage f + 0x1000_0000 ≤ a → getR t a = getR s a) ∧
    (∀ k : LinkReset, dieOn s = true → (k = .perst ∧ s.hif.link ≠ .reset) ∨ (k ≠ .perst ∧ s.hif.link = .l0) →
      ∃ t, exec (.pciePerstNAssert k) s = .next t ∧ t.hif.link = (if k = .perst then .reset else .training) ∧
        (t.pins.perstN = (k ≠ .perst && s.pins.perstN)) ∧ getR t (hifBase + 4) = 0 ∧
        (∀ f : Fin 2, getFn t f = { lastRing := (getFn s f).lastRing } ∧ ∀ r < 32, ringBound t f r = false) ∧
        getR t (hifBase + 0x3C) = getR s (hifBase + 0x3C) + 1 ∧ flag t (hifBase + 0x10) 0 = true) ∧
    (dieOn s = true → s.hif.link = .reset → ∃ t, exec .pciePerstNDeassert s = .next t ∧ t.pins.perstN = true ∧ t.hif.link = .training) ∧
    (dieOn s = true → s.hif.link = .l0 → ∃ t, exec .pmeTurnOff s = .next t ∧ t.hif.link = .l2 ∧ getR t (hifBase + 4) = 0) ∧
    (∀ width speed, dieOn s = true → s.pins.perstN = true → s.hif.link ≠ .l0 → ∃ t, exec (.linkReachesL0 width speed) s = .next t ∧
      t.hif.link = .l0 ∧ getN t (hifBase + 4) = 2 ^ 31 + width.val * 2 ^ 16 + speed.val ∧ t.pins.pcieWakeN = true ∧
      t = { s with regs := t.regs, hif := t.hif, pins := t.pins }) ∧
    (∀ (f : Fin 2) r v, s.power.bootStep < 6 →
      exec (.configRequest f false r v) s = .next (emit s (.config f 2 0)) ∧ exec (.configRequest f true r v) s = .next (emit s (.config f 2 0))) ∧
    (∀ (f : Fin 2) v, dieOn s = true → s.hif.link = .l0 → fnPresent s f = true →
      exec (.configRequest f false .id v) s = .next (emit s (.config f 0 (if f = 0 then 0x71601E9B else 0x71611E9B))) ∧
      exec (.configRequest f false .command v) s = .next (emit s (.config f 0 (reg (4 * b2n (getFn s f).busMaster)))) ∧
      exec (.configRequest f true .command v) s
        = .next (emit (setFn s f { getFn s f with busMaster := bit 2 v.toNat }) (.config f 0 0)) ∧
      (v.toNat % 4 = 0 ∨ v.toNat % 4 = 3 → exec (.configRequest f true .power v) s
        = .next (emit (setFn s f { getFn s f with dstate := v.toNat % 4 }) (.config f 0 0)))) ∧
    (∀ (f : Fin 2) r v w, dieOn s = true → s.hif.link = .l0 → fnPresent s f = false →
      exec (.configRequest f w r v) s = .next (emit s (.config f 1 0))) ∧
    (∀ (f : Fin 2) (vec : Fin 2048), fnReach s f = true → (getFn s f).msixEn = true → (getFn s f).msixMask = false →
      flag s (fnPage f + 0x8000 + 4 * (vec.val / 32)) (vec.val % 32) = true → ∃ t, exec (.msixVectorUnmask f vec) s = .next t ∧
        flag t (fnPage f + 16 * vec.val + 12) 0 = false ∧ flag t (fnPage f + 0x8000 + 4 * (vec.val / 32)) (vec.val % 32) = false ∧
        .msix f vec ∈ t.out)

/-- R171, R552, R639: an access of the host through the memory window. A write that the firewall passes stores its bytes at FN_WIN
plus the offset and no others; a read answers the bytes there, or zeros, counted, where a page is not dated; an address in no
memory is counted and answered with zeros, and a refused read with zeros. -/
def Obligations.MemoryWindow : Prop :=
  ∀ (s : State) (f : Fin 2) (o a : Nat), fnReach s f = true → a = 2 ^ 32 * getN s (fnPage f + 0x1_0004) + o →
    (∀ n l, l ≠ [] → (access s (202 + f) false true a l.length).2 = .ok → ∃ t, exec (.memoryWindowAccess f true o n l) s = .next t ∧
      t = { s with mem := t.mem, memBad := t.memBad } ∧ (Memory.wf s.mem = true →
        (∀ i < l.length, memGet t.mem (a + i) = nth 0 l i) ∧ ∀ b, b < a ∨ a + l.length ≤ b → memGet t.mem b = memGet s.mem b)) ∧
    (∀ n l, n ≠ 0 → (access s (202 + f) false false a n).2 = .ok →
      ((∃ p ∈ pagesOf a n, tagOf s p ≠ 0) →
        exec (.memoryWindowAccess f false o n l) s = .next (emit (inc s (hifBase + 0x2C)) (.readData f (zeros n)))) ∧
      ((∀ p ∈ pagesOf a n, tagOf s p = 0) → cellBad s a n = false →
        exec (.memoryWindowAccess f false o n l) s = .next (emit s (.readData f (peek s a n))))) ∧
    (∀ n l, n ≠ 0 → l ≠ [] → spaceOf a = .none →
      exec (.memoryWindowAccess f true o n l) s = .next (inc s (hifBase + 0x24)) ∧
      exec (.memoryWindowAccess f false o n l) s = .next (emit (inc s (hifBase + 0x24)) (.readData f (zeros n)))) ∧
    (∀ n l s1, n ≠ 0 → access s (202 + f) false false a n = (s1, .denied) →
      exec (.memoryWindowAccess f false o n l) s = .next (emit s1 (.readData f (zeros n))))

/-- R191, R643 to R646: the delivery rings. A binding that R643 refuses leaves its RESULT; one that it accepts makes the receiver
report to the ring's vector with PI and CI 0, and unbinding returns it. A doorbell whose CI is in range is taken and another one
refused with RINGERR. The engine writes the packet at the head of the next ring that has room to the host's memory, after a pad
where it does not fit before the ring's end, then PI and the packet count, removes it and sends the message. -/
def Obligations.DeliveryRings : Prop :=
  ∀ (s : State) (f : Fin 2), fnReach s f = true →
    (∀ (r : Fin 32) (v : Reg) (res : Nat), res = bindResult s f r (v ||| 0x80000000).toNat →
      (res ≠ 0 → ringBound s f r = false → ∃ t, exec (.ringBind f r v) s = .next t ∧ ringBound t f r = false ∧
        field t (ringBase f r + 0x20) 7 0 = res ∧ flag t (ringBase f r + 0x10) 31 = false ∧ t = { s with regs := t.regs }) ∧
      (res = 0 → ringBound s f r = false → ∃ t, exec (.ringBind f r v) s = .next t ∧ ringBound t f r = true ∧
        field t (ringBase f r + 0x20) 7 0 = 0 ∧ getR t (ringBase f r + 0x18) = 0 ∧ getR t (ringBase f r + 0x1C) = 0 ∧
        ringRecv t f r = (bits 15 0 v.toNat, bits 23 21 v.toNat) ∧
        (nth {} (getQ t (bits 15 0 v.toNat)).recvs (bits 23 21 v.toNat)).kind = 3 ∧
        (nth {} (getQ t (bits 15 0 v.toNat)).recvs (bits 23 21 v.toNat)).target = getN s (ringBase f r + 0x14))) ∧
    (∀ (r : Fin 32) (v : Reg), ringBound s f r = true → (ringRecv s f r).2 < (getQ s (ringRecv s f r).1).recvs.length →
      ∃ t, exec (.ringUnbind f r v) s = .next t ∧ ringBound t f r = false ∧ flag t (ringBase f r + 0x10) 31 = false ∧
        (nth {} (getQ t (ringRecv s f r).1).recvs (ringRecv s f r).2).kind = 0) ∧
    (∀ (r : Fin 32) (ci : Reg) s1, s1 = (if s.power.st = .doze then toRun s else s) →
      ((getR s (ringBase f r + 0x18) - ci).toNat ≤ 2 ^ field s (ringBase f r + 0x10) 28 24 →
        exec (.ringDb f r ci) s = .next (setR s1 (ringBase f r + 0x1C) ci)) ∧
      (2 ^ field s (ringBase f r + 0x10) 28 24 < (getR s (ringBase f r + 0x18) - ci).toNat →
        exec (.ringDb f r ci) s = .next (raise (setField s1 (ringBase f r + 0x20) 7 0 6) (hifBase + 0x10) 6))) ∧
    (∀ (r : Nat) (q k : Nat) (p : Packet) (b n pi cells pad : Nat), s.power.st = .run → nextRingOf s f = some r →
      hostReach s (f == 1) = true → (q, k) = ringRecv s f r → (getQ s q).ptrBad = false → NoSquashWaits s →
      (nth {} (getQ s q).recvs k).markers = [] → headFor (getQ s q) (nth {} (getQ s q).recvs k) = some p → p.bad = false →
      p.soft = 0 →
      b = ringBase f r → n = 2 ^ field s (b + 0x10) 28 24 → pi = getN s (b + 0x18) → cells = 1 + cdiv p.words.length 8 →
      pad = (if cells ≤ n - pi % n then 0 else n - pi % n) → ∃ t rest, exec (.ringDelivery f) s = .next t ∧
        getN t (b + 0x18) = (pi + pad + cells) % 2 ^ 32 ∧ getR t (b + 0x24) = getR s (b + 0x24) + 1 ∧
        getQ t q = takePacket (getQ s q) k ∧ (getFn t f).lastRing = r ∧
        t.out = s.out ++ (if pad = 0 then [] else
            [.hostWrite f (getN s b + 2 ^ 32 * getN s (b + 4) + 64 * (pi % n)) (leBytes 2 0 ++ leBytes 2 0xFFFF ++ zeros 60)]) ++
          [.hostWrite f (getN s b + 2 ^ 32 * getN s (b + 4) + 64 * ((pi + pad) % n)) (packetImage p.words p.leap),
           .hostWrite f (getN s (b + 8) + 2 ^ 32 * getN s (b + 0xC)) (leBytes 4 (getN t (b + 0x18)) ++ leBytes 4 (getN t (b + 0x24)))] ++ rest ∧
        ((getFn s f).msixEn = true → (getFn s f).msixMask = false → flag s (fnPage f + 16 * field s (b + 0x14) 10 0 + 12) 0 = false →
          rest = [.msix f (field s (b + 0x14) 10 0)]))

/-- R650 to R652, R655: the Ethernet MACs. On an enabled MAC whose link is up, a bad frame and one for another station are counted
and discarded; any other frame is counted and, with its description and its time-stamp, put on the receive queue, or on the PTP
queue where it is a PTP message and the firmware disciplines the clock. A transmit packet with a good word 0 is sent while the link
is up and dropped while it is down, with its status where TSREQ asks for it; a bad one is discarded. -/
def Sys2Proof.Machine.ethernetFramesClaim : Prop :=
  ∀ (s : State) (m : Fin 2), dieOn s = true → flag s (macBase m) 31 = true →
    (∀ fcsOk l s1, flag s (macBase m + 4) 31 = true → s1 = wakeSource s 6 →
      (fcsOk = false ∨ l.length < 60 ∨ 9212 < l.length → exec (.ethFrameReceive m fcsOk l) s = .next (macCount s1 m 2)) ∧
      (fcsOk = true → 60 ≤ l.length → l.length ≤ 9212 →
        (macPasses s1 m (l.take 6) = false → exec (.ethFrameReceive m fcsOk l) s = .next (macCount s1 m 3)) ∧
        (macPasses s1 m (l.take 6) = true → ∀ q ws ptp, ptp = isPtp l →
          q = (if ptp = true ∧ field s1 (hifBase + 0x20C) 1 0 = 1 then 3982 else 3976) + m.val →
          ws = frameWords (l.length + 2 ^ 16 * m.val + 2 ^ 24 * (b2n (beNat (slice l 12 2) == 0x8100) + 2 * b2n ptp + 4 * (leAt l 0 1 % 2)))
            (stamped s1 (field s1 (macBase m + 0x10) 15 0)) l →
          exec (.ethFrameReceive m fcsOk l) s = .next (if (enqPacket (macCount s1 m 0) q (205 + m) 0 ws).2 = .taken
            then (enqPacket (macCount s1 m 0) q (205 + m) 0 ws).1 else macCount (enqPacket (macCount s1 m 0) q (205 + m) 0 ws).1 m 1)))) ∧
    (flag s (macBase m + 4) 31 = false → ∀ fcsOk l, exec (.ethFrameReceive m fcsOk l) s = .next s) ∧
    (∀ s1 ws, (headFor (getQ s (3978 + m)) (nth {} (getQ s (3978 + m)).recvs 0)).isSome = true →
      deqPacket s (3978 + m) (205 + m) 0 2048 = (s1, ws, false) →
      (txFrame ws 9212 0xFFFF0001FFFF = none → exec (.ethTransmit m) s = .next (macCount s1 m 6)) ∧
      (∀ w0 l, txFrame ws 9212 0xFFFF0001FFFF = some (w0, l) →
        (flag s1 (macBase m + 4) 31 = true → exec (.ethTransmit m) s
          = .next (txStatus (emit (macCount s1 m 4) (.ethTx m l)) m w0 true)) ∧
        (flag s1 (macBase m + 4) 31 = false → exec (.ethTransmit m) s = .next (txStatus (macCount s1 m 5) m w0 false)))) ∧
    (∀ p w0 l, HoldsPacket s (3978 + m) 0 (205 + m) p → p.words.length ≤ 2048 → p.leap = false →
      txFrame p.words 9212 0xFFFF0001FFFF = some (w0, l) → bit 16 w0 = false → flag s (macBase m + 4) 31 = true →
      ∃ t, exec (.ethTransmit m) s = .next t ∧ t.out = s.out ++ [.ethTx m l] ∧
        getR t (macBase m + 0x90) = getR s (macBase m + 0x90) + 1 ∧ t = { s with regs := t.regs, queues := t.queues, out := t.out }) ∧
    (∀ rate : Fin 8, ∃ t, exec (.ethLinkChange m rate) s = .next t ∧ getN t (macBase m + 4) = (if rate = 0 then 0 else 2 ^ 31 + rate.val) ∧
      (flag s (macBase m + 4) 31 ≠ decide (rate ≠ 0) → flag t (hifBase + 0x10) (3 + m) = true))

/-- R14, R650, R653, R654, R659, R661: module time and the MDIO master. No write steps module time: ADJ is taken in its range and
OFS as a whole, both only while the firmware does not discipline the clock. The firmware's client steps OFS by an offset of more
than 1 ms and otherwise slews ADJ in its range, which value is free, and is locked once ten offsets in a row have stayed within
1 µs. A read of the lower half latches the upper. An MDIO command of the HIF block's world puts its transaction on the bus. -/
def Sys2Proof.Machine.timeAndMdioClaim : Prop :=
  ∀ (s : State),
    (∀ secure (v : Reg), Reaches s secure (hifWorld s) (hifBase + 0x208) →
      (servo s ≠ 1 → v.toInt.natAbs ≤ 85899345 → exec (.timeAdjWrite secure v) s = .next (setR s (hifBase + 0x208) v)) ∧
      (servo s = 1 ∨ 85899345 < v.toInt.natAbs → exec (.timeAdjWrite secure v) s = .next s)) ∧
    (∀ secure (hi : Reg), Reaches s secure (hifWorld s) (hifBase + 0x214) →
      (servo s = 1 → exec (.timeOfsWrite secure hi) s = .next s) ∧
      (servo s ≠ 1 → ∃ t, exec (.timeOfsWrite secure hi) s = .next t ∧ t.hif.ptp.ofs = getN s (hifBase + 0x210) + 2 ^ 32 * hi.toNat ∧
        getR t (hifBase + 0x214) = hi ∧ t.time = s.time ∧ t = { s with regs := t.regs, hif := t.hif })) ∧
    (∀ secure, Reaches s secure (hifWorld s) (hifBase + 0x200) → ∃ t, exec (.timeReadLatch secure) s = .next t ∧
      t.out = s.out ++ [.readData (b2n secure) (leBytes 4 (now s))] ∧ t.time = { s.time with latch := reg (now s / 2 ^ 32) } ∧
      t = { s with time := t.time, out := t.out }) ∧
    (∀ (off : BitVec 64) m, m = field s (hifBase + 0x20C) 16 16 → servo s = 1 → dieOn s = true → s.power.st = .run →
      (headFor (getQ s (3982 + m)) (nth {} (getQ s (3982 + m)).recvs 0)).isSome = true → ∃ t, exec (.ptpSync off) s = .next t ∧
      t.time = s.time ∧
      (1000000 < off.toInt.natAbs → (t.hif.ptp.ofs : Int) = ((s.hif.ptp.ofs : Int) - off.toInt) % 2 ^ 64 ∧ t.hif.ptp.good = 0) ∧
      (off.toInt.natAbs ≤ 1000000 → t.hif.ptp.ofs = s.hif.ptp.ofs ∧ (getR t (hifBase + 0x208)).toInt.natAbs ≤ 85899345) ∧
      (off.toInt.natAbs ≤ 1000 → t.hif.ptp.good = s.hif.ptp.good + 1) ∧ (1000 < off.toInt.natAbs → t.hif.ptp.good = 0) ∧
      t.hif.ptp.locked = decide (10 ≤ t.hif.ptp.good) ∧ flag t (hifBase + 0x218) 31 = t.hif.ptp.locked ∧
      (t.hif.ptp.locked ≠ s.hif.ptp.locked → flag t (hifBase + 0x10) 5 = true)) ∧
    (∀ secure c45 (m : Fin 2) (port dev : Fin 32), Reaches s secure (hifWorld s) (hifBase + 0x1200) →
      (∀ data, exec (.mdioWrite secure c45 m port dev data) s
        = .next (setR (emit s (.mdio 1 c45 m port dev data)) (hifBase + 0x1204) 0)) ∧
      (∀ v : BitVec 16, ∃ t, exec (.mdioRead secure c45 m port dev v) s = .next t ∧ getN t (hifBase + 0x1204) = v.toNat ∧
        t.out = s.out ++ [.mdio 2 c45 m port dev 0] ∧ t = { s with regs := t.regs, out := t.out }) ∧
      (∀ addr, ∃ t, exec (.mdioAddress secure true m port dev addr) s = .next t ∧ t.out = s.out ++ [.mdio 3 true m port dev addr] ∧
        kvGet (fun _ => 0) t.hif.mdioAddr (mdioKey m port dev) = addr.val) ∧
      (∀ addr, exec (.mdioAddress secure false m port dev addr) s = .next s))

/-- The Ethernet MACs, module time and MDIO: the two statements above together. -/
def Obligations.NetworkAndTime : Prop :=
  ethernetFramesClaim ∧ timeAndMdioClaim
end

