-- ==== Sys2Proof/Laws/Tables.lean ====
section
/-!
SUPPORT. Laws of the keyed tables and of memory: what a read gives after a write, and that every memory operation keeps the
canonical form.
-/
namespace Sys2Proof.Machine

/-! ### Keyed tables -/

/-- A read after a write: the value written at its key, the value from before at every other key. -/
theorem kvGet_kvPut {α : Type} (d : Nat → α) (l : List (Nat × α)) (k j : Nat) (v : α) :
    kvGet d (kvPut l k v) j = if k = j then v else kvGet d l j := by
  induction l with
  | nil => simp [kvPut, kvGet]
  | cons p t ih =>
    obtain ⟨a, w⟩ := p
    by_cases h : a = k
    · subst h; by_cases hj : a = j <;> simp [kvPut, kvGet, hj]
    · by_cases hk : k < a
      · simp [kvPut, kvGet, h, hk]
      · by_cases hj : a = j
        · subst hj; simp [kvPut, kvGet, h, hk, Ne.symm h]
        · simp [kvPut, kvGet, h, hk, hj, ih]

@[simp] theorem kvGet_kvPut_same {α : Type} (d : Nat → α) (l : List (Nat × α)) (k : Nat) (v : α) :
    kvGet d (kvPut l k v) k = v := by simp [kvGet_kvPut]

/-- A table without a key reads as its default there, and as before elsewhere. -/
theorem kvGet_kvDel {α : Type} (d : Nat → α) (l : List (Nat × α)) (k j : Nat) :
    kvGet d (kvDel l k) j = if k = j then d j else kvGet d l j := by
  induction l with
  | nil => simp [kvDel, kvGet]
  | cons p t ih =>
    obtain ⟨a, w⟩ := p
    by_cases h : a = k
    · subst h; by_cases hj : a = j <;> simp_all [kvDel, kvGet]
    · by_cases hj : a = j
      · subst hj; simp [kvDel, kvGet, h, Ne.symm h]
      · simp_all [kvDel, kvGet]

/-! ### Memory -/

/-- Every listed address is at least `a`. -/
def Memory.from (a : Nat) : List Host.Cell → Bool
  | [] => true
  | (x, _) :: _ => decide (a ≤ x)

theorem Memory.wf_cons (x : Nat) (b : Byte) (t : List Host.Cell) :
    Memory.wf ((x, b) :: t) = (b != memEmpty && Memory.from (x + 1) t && Memory.wf t) := by
  cases t with
  | nil => simp [Memory.wf, Memory.from]
  | cons p t => obtain ⟨y, c⟩ := p; rfl

theorem memPut_from (m : List Host.Cell) (a k : Nat) (b : Byte) (hk : k ≤ a) (h : Memory.from k m = true)
    (hw : Memory.wf m = true) : Memory.from k (memPut m a b) = true := by
  cases m with
  | nil => by_cases hb : b = memEmpty <;> simp [memPut, Memory.from, hb, hk]
  | cons p t =>
    obtain ⟨x, w⟩ := p
    simp only [memPut]
    split
    · split <;> simp_all [Memory.from]
    · split
      · split
        · rw [Memory.wf_cons] at hw
          cases t with
          | nil => simp [Memory.from]
          | cons q t => obtain ⟨y, c⟩ := q; simp_all [Memory.from]; omega
        · simpa [Memory.from] using hk
      · simpa [Memory.from] using h

/-- Storing a byte keeps the canonical form. -/
theorem memPut_wf (m : List Host.Cell) (a : Nat) (b : Byte) (h : Memory.wf m = true) :
    Memory.wf (memPut m a b) = true := by
  induction m with
  | nil => by_cases hb : b = memEmpty <;> simp [memPut, Memory.wf, hb]
  | cons p t ih =>
    obtain ⟨x, w⟩ := p
    have h' := h
    rw [Memory.wf_cons] at h'
    simp only [Bool.and_eq_true] at h'
    simp only [memPut]
    split
    · split
      · exact h
      · rename_i ha hb
        rw [Memory.wf_cons]; simp [Memory.from, hb, h]; omega
    · split
      · split
        · exact h'.2
        · rename_i ha hx hb
          rw [Memory.wf_cons]; subst hx; simp [hb, h'.1.2, h'.2]
      · rename_i ha hx
        rw [Memory.wf_cons]
        simp [h'.1.1, ih h'.2, memPut_from t a (x + 1) b (by omega) h'.1.2 h'.2]

/-- Storing bytes keeps the canonical form. -/
theorem memPutAll_wf (l : List Byte) (m : List Host.Cell) (a : Nat) (h : Memory.wf m = true) :
    Memory.wf (memPutAll m a l) = true := by
  induction l generalizing m a with
  | nil => exact h
  | cons b t ih => exact ih _ _ (memPut_wf m a b h)

theorem memFrom_weaken (m : List Host.Cell) (a b : Nat) (hab : a ≤ b) (h : Memory.from b m = true) :
    Memory.from a m = true := by
  cases m with
  | nil => rfl
  | cons p t => simp_all [Memory.from]; omega

theorem memFilter_from (f : Host.Cell → Bool) (m : List Host.Cell) (a : Nat) (h : Memory.from a m = true)
    (hw : Memory.wf m = true) : Memory.from a (m.filter f) = true := by
  induction m with
  | nil => rfl
  | cons p t ih =>
    obtain ⟨x, w⟩ := p
    rw [Memory.wf_cons] at hw
    simp only [Bool.and_eq_true] at hw
    rw [List.filter_cons]
    split
    · simpa [Memory.from] using h
    · refine ih (memFrom_weaken _ _ (x + 1) ?_ hw.1.2) hw.2
      simp [Memory.from] at h; omega

/-- Taking bytes out of memory keeps the canonical form. -/
theorem memFilter_wf (f : Host.Cell → Bool) (m : List Host.Cell) (h : Memory.wf m = true) :
    Memory.wf (m.filter f) = true := by
  induction m with
  | nil => rfl
  | cons p t ih =>
    obtain ⟨x, w⟩ := p
    have h' := h
    rw [Memory.wf_cons] at h'
    simp only [Bool.and_eq_true] at h'
    rw [List.filter_cons]
    split
    · rw [Memory.wf_cons]
      simp [h'.1.1, ih h'.2, memFilter_from f t (x + 1) h'.1.2 h'.2]
    · exact ih h'.2

theorem memGet_before (m : List Host.Cell) (a k : Nat) (hk : a < k) (h : Memory.from k m = true)
    (hw : Memory.wf m = true) : memGet m a = memEmpty := by
  induction m generalizing k with
  | nil => rfl
  | cons p t ih =>
    obtain ⟨x, w⟩ := p
    rw [Memory.wf_cons] at hw
    simp only [Bool.and_eq_true] at hw
    have hx : k ≤ x := by simpa [Memory.from] using h
    have : x ≠ a := by omega
    simp only [memGet, kvGet, this, if_false]
    exact ih (x + 1) (by omega) hw.1.2 hw.2

/-- A read of a canonical memory after a byte is stored: that byte at its address, the byte from before elsewhere. -/
theorem memGet_memPut (m : List Host.Cell) (a j : Nat) (b : Byte) (h : Memory.wf m = true) :
    memGet (memPut m a b) j = if a = j then b else memGet m j := by
  induction m with
  | nil =>
    by_cases hb : b = memEmpty <;> by_cases hj : a = j <;> simp [memPut, memGet, kvGet, hb, hj]
  | cons p t ih =>
    obtain ⟨x, w⟩ := p
    have h' := h
    rw [Memory.wf_cons] at h'
    simp only [Bool.and_eq_true] at h'
    have ih := ih h'.2
    simp only [memPut]
    split
    · rename_i ha
      split
      · rename_i hb
        split
        · rename_i hj
          subst hj
          rw [hb]
          exact memGet_before _ a (a + 1) (by omega) (by simp [Memory.from]; omega) h
        · rfl
      · simp [memGet, kvGet]
    · split
      · rename_i ha hx
        subst hx
        split
        · rename_i hb
          split
          · rename_i hj
            subst hj
            rw [hb]
            exact memGet_before _ a (a + 1) (by omega) h'.1.2 h'.2
          · rename_i hj
            simp [memGet, kvGet, hj]
        · by_cases hj : a = j <;> simp [memGet, kvGet, hj]
      · rename_i ha hx
        by_cases hj : x = j
        · subst hj; simp [memGet, kvGet, hx]
        · have := ih
          simp only [memGet, kvGet, hj, if_false] at this ⊢
          exact this

/-- A read of a canonical memory after bytes are stored from `a` on: the stored byte inside, the byte from before outside. -/
theorem memGet_memPutAll (l : List Byte) (m : List Host.Cell) (a j : Nat) (h : Memory.wf m = true) :
    memGet (memPutAll m a l) j = if a ≤ j ∧ j < a + l.length then nth 0 l (j - a) else memGet m j := by
  induction l generalizing m a with
  | nil => simp [memPutAll] <;> intros <;> omega
  | cons b t ih =>
    simp only [memPutAll]
    rw [ih _ _ (memPut_wf m a b h), memGet_memPut m a j b h]
    by_cases hj : a = j
    · subst hj; simp [nth] <;> intros <;> omega
    · by_cases hi : a + 1 ≤ j ∧ j < a + 1 + t.length
      · have h2 : a ≤ j ∧ j < a + (b :: t).length := by simp; omega
        obtain ⟨k, hk⟩ : ∃ k, j - a = k + 1 := ⟨j - a - 1, by omega⟩
        have hk2 : j - (a + 1) = k := by omega
        rw [if_pos hi, if_pos h2, hk, hk2]; simp [nth]
      · have h2 : ¬ (a ≤ j ∧ j < a + (b :: t).length) := by simp; omega
        rw [if_neg hi, if_neg h2, if_neg hj]

end Sys2Proof.Machine
end

