-- ==== Sys2Proof/Laws/State.lean ====
section
/-!
SUPPORT. One law for each field of the state and each update: an update leaves every field but its own as it was.
-/
namespace Sys2Proof.Machine

variable (s : State)

@[simp] theorem setR_pending (a : Nat) (v : Reg) : (setR s a v).pending = s.pending := rfl
@[simp] theorem setR_time (a : Nat) (v : Reg) : (setR s a v).time = s.time := rfl
@[simp] theorem setR_mem (a : Nat) (v : Reg) : (setR s a v).mem = s.mem := rfl
@[simp] theorem setR_tags (a : Nat) (v : Reg) : (setR s a v).tags = s.tags := rfl
@[simp] theorem setR_somEve (a : Nat) (v : Reg) : (setR s a v).somEve = s.somEve := rfl
@[simp] theorem setR_queues (a : Nat) (v : Reg) : (setR s a v).queues = s.queues := rfl
@[simp] theorem setR_pool (a : Nat) (v : Reg) : (setR s a v).pool = s.pool := rfl
@[simp] theorem setR_gens (a : Nat) (v : Reg) : (setR s a v).gens = s.gens := rfl
@[simp] theorem setR_genOrder (a : Nat) (v : Reg) : (setR s a v).genOrder = s.genOrder := rfl
@[simp] theorem setR_flags (a : Nat) (v : Reg) : (setR s a v).flags = s.flags := rfl
@[simp] theorem setR_held (a : Nat) (v : Reg) : (setR s a v).held = s.held := rfl
@[simp] theorem setR_fwl (a : Nat) (v : Reg) : (setR s a v).fwl = s.fwl := rfl
@[simp] theorem setR_units (a : Nat) (v : Reg) : (setR s a v).units = s.units := rfl
@[simp] theorem setR_diary (a : Nat) (v : Reg) : (setR s a v).diary = s.diary := rfl
@[simp] theorem setR_firm (a : Nat) (v : Reg) : (setR s a v).firm = s.firm := rfl
@[simp] theorem setR_health (a : Nat) (v : Reg) : (setR s a v).health = s.health := rfl
@[simp] theorem setR_boxes (a : Nat) (v : Reg) : (setR s a v).boxes = s.boxes := rfl
@[simp] theorem setR_power (a : Nat) (v : Reg) : (setR s a v).power = s.power := rfl
@[simp] theorem setR_vigil (a : Nat) (v : Reg) : (setR s a v).vigil = s.vigil := rfl
@[simp] theorem setR_clock (a : Nat) (v : Reg) : (setR s a v).clock = s.clock := rfl
@[simp] theorem setR_cls (a : Nat) (v : Reg) : (setR s a v).cls = s.cls := rfl
@[simp] theorem setR_pins (a : Nat) (v : Reg) : (setR s a v).pins = s.pins := rfl
@[simp] theorem setR_fld (a : Nat) (v : Reg) : (setR s a v).fld = s.fld := rfl
@[simp] theorem setR_hif (a : Nat) (v : Reg) : (setR s a v).hif = s.hif := rfl
@[simp] theorem setR_graphs (a : Nat) (v : Reg) : (setR s a v).graphs = s.graphs := rfl
@[simp] theorem setR_seqs (a : Nat) (v : Reg) : (setR s a v).seqs = s.seqs := rfl
@[simp] theorem setR_ctxs (a : Nat) (v : Reg) : (setR s a v).ctxs = s.ctxs := rfl
@[simp] theorem setR_banks (a : Nat) (v : Reg) : (setR s a v).banks = s.banks := rfl
@[simp] theorem setR_sched (a : Nat) (v : Reg) : (setR s a v).sched = s.sched := rfl
@[simp] theorem setR_ptags (a : Nat) (v : Reg) : (setR s a v).ptags = s.ptags := rfl
@[simp] theorem setR_nstat (a : Nat) (v : Reg) : (setR s a v).nstat = s.nstat := rfl
@[simp] theorem setR_dmaHalt (a : Nat) (v : Reg) : (setR s a v).dmaHalt = s.dmaHalt := rfl
@[simp] theorem setR_dmaLatch (a : Nat) (v : Reg) : (setR s a v).dmaLatch = s.dmaLatch := rfl
@[simp] theorem setR_dmaLast (a : Nat) (v : Reg) : (setR s a v).dmaLast = s.dmaLast := rfl
@[simp] theorem setR_memBad (a : Nat) (v : Reg) : (setR s a v).memBad = s.memBad := rfl
@[simp] theorem setR_hostReads (a : Nat) (v : Reg) : (setR s a v).hostReads = s.hostReads := rfl
@[simp] theorem setR_flowWait (a : Nat) (v : Reg) : (setR s a v).flowWait = s.flowWait := rfl
@[simp] theorem setR_admits (a : Nat) (v : Reg) : (setR s a v).admits = s.admits := rfl
@[simp] theorem setR_resident (a : Nat) (v : Reg) : (setR s a v).resident = s.resident := rfl
@[simp] theorem setR_pipes (a : Nat) (v : Reg) : (setR s a v).pipes = s.pipes := rfl
@[simp] theorem setR_fsync (a : Nat) (v : Reg) : (setR s a v).fsync = s.fsync := rfl
@[simp] theorem setR_ibi (a : Nat) (v : Reg) : (setR s a v).ibi = s.ibi := rfl
@[simp] theorem setR_scm (a : Nat) (v : Reg) : (setR s a v).scm = s.scm := rfl
@[simp] theorem setR_chk (a : Nat) (v : Reg) : (setR s a v).chk = s.chk := rfl
@[simp] theorem setR_cdc (a : Nat) (v : Reg) : (setR s a v).cdc = s.cdc := rfl
@[simp] theorem setR_tcs (a : Nat) (v : Reg) : (setR s a v).tcs = s.tcs := rfl
@[simp] theorem setR_tables (a : Nat) (v : Reg) : (setR s a v).tables = s.tables := rfl
@[simp] theorem setR_gthPairs (a : Nat) (v : Reg) : (setR s a v).gthPairs = s.gthPairs := rfl
@[simp] theorem setR_gthBusy (a : Nat) (v : Reg) : (setR s a v).gthBusy = s.gthBusy := rfl
@[simp] theorem setR_gthAhead (a : Nat) (v : Reg) : (setR s a v).gthAhead = s.gthAhead := rfl
@[simp] theorem setR_uses (a : Nat) (v : Reg) : (setR s a v).uses = s.uses := rfl
@[simp] theorem setR_out (a : Nat) (v : Reg) : (setR s a v).out = s.out := rfl

@[simp] theorem inc_pending (a : Nat) : (inc s a).pending = s.pending := rfl
@[simp] theorem inc_time (a : Nat) : (inc s a).time = s.time := rfl
@[simp] theorem inc_mem (a : Nat) : (inc s a).mem = s.mem := rfl
@[simp] theorem inc_tags (a : Nat) : (inc s a).tags = s.tags := rfl
@[simp] theorem inc_somEve (a : Nat) : (inc s a).somEve = s.somEve := rfl
@[simp] theorem inc_queues (a : Nat) : (inc s a).queues = s.queues := rfl
@[simp] theorem inc_pool (a : Nat) : (inc s a).pool = s.pool := rfl
@[simp] theorem inc_gens (a : Nat) : (inc s a).gens = s.gens := rfl
@[simp] theorem inc_genOrder (a : Nat) : (inc s a).genOrder = s.genOrder := rfl
@[simp] theorem inc_flags (a : Nat) : (inc s a).flags = s.flags := rfl
@[simp] theorem inc_held (a : Nat) : (inc s a).held = s.held := rfl
@[simp] theorem inc_fwl (a : Nat) : (inc s a).fwl = s.fwl := rfl
@[simp] theorem inc_units (a : Nat) : (inc s a).units = s.units := rfl
@[simp] theorem inc_diary (a : Nat) : (inc s a).diary = s.diary := rfl
@[simp] theorem inc_firm (a : Nat) : (inc s a).firm = s.firm := rfl
@[simp] theorem inc_health (a : Nat) : (inc s a).health = s.health := rfl
@[simp] theorem inc_boxes (a : Nat) : (inc s a).boxes = s.boxes := rfl
@[simp] theorem inc_power (a : Nat) : (inc s a).power = s.power := rfl
@[simp] theorem inc_vigil (a : Nat) : (inc s a).vigil = s.vigil := rfl
@[simp] theorem inc_clock (a : Nat) : (inc s a).clock = s.clock := rfl
@[simp] theorem inc_cls (a : Nat) : (inc s a).cls = s.cls := rfl
@[simp] theorem inc_pins (a : Nat) : (inc s a).pins = s.pins := rfl
@[simp] theorem inc_fld (a : Nat) : (inc s a).fld = s.fld := rfl
@[simp] theorem inc_hif (a : Nat) : (inc s a).hif = s.hif := rfl
@[simp] theorem inc_graphs (a : Nat) : (inc s a).graphs = s.graphs := rfl
@[simp] theorem inc_seqs (a : Nat) : (inc s a).seqs = s.seqs := rfl
@[simp] theorem inc_ctxs (a : Nat) : (inc s a).ctxs = s.ctxs := rfl
@[simp] theorem inc_banks (a : Nat) : (inc s a).banks = s.banks := rfl
@[simp] theorem inc_sched (a : Nat) : (inc s a).sched = s.sched := rfl
@[simp] theorem inc_ptags (a : Nat) : (inc s a).ptags = s.ptags := rfl
@[simp] theorem inc_nstat (a : Nat) : (inc s a).nstat = s.nstat := rfl
@[simp] theorem inc_dmaHalt (a : Nat) : (inc s a).dmaHalt = s.dmaHalt := rfl
@[simp] theorem inc_dmaLatch (a : Nat) : (inc s a).dmaLatch = s.dmaLatch := rfl
@[simp] theorem inc_dmaLast (a : Nat) : (inc s a).dmaLast = s.dmaLast := rfl
@[simp] theorem inc_memBad (a : Nat) : (inc s a).memBad = s.memBad := rfl
@[simp] theorem inc_hostReads (a : Nat) : (inc s a).hostReads = s.hostReads := rfl
@[simp] theorem inc_flowWait (a : Nat) : (inc s a).flowWait = s.flowWait := rfl
@[simp] theorem inc_admits (a : Nat) : (inc s a).admits = s.admits := rfl
@[simp] theorem inc_resident (a : Nat) : (inc s a).resident = s.resident := rfl
@[simp] theorem inc_pipes (a : Nat) : (inc s a).pipes = s.pipes := rfl
@[simp] theorem inc_fsync (a : Nat) : (inc s a).fsync = s.fsync := rfl
@[simp] theorem inc_ibi (a : Nat) : (inc s a).ibi = s.ibi := rfl
@[simp] theorem inc_scm (a : Nat) : (inc s a).scm = s.scm := rfl
@[simp] theorem inc_chk (a : Nat) : (inc s a).chk = s.chk := rfl
@[simp] theorem inc_cdc (a : Nat) : (inc s a).cdc = s.cdc := rfl
@[simp] theorem inc_tcs (a : Nat) : (inc s a).tcs = s.tcs := rfl
@[simp] theorem inc_tables (a : Nat) : (inc s a).tables = s.tables := rfl
@[simp] theorem inc_gthPairs (a : Nat) : (inc s a).gthPairs = s.gthPairs := rfl
@[simp] theorem inc_gthBusy (a : Nat) : (inc s a).gthBusy = s.gthBusy := rfl
@[simp] theorem inc_gthAhead (a : Nat) : (inc s a).gthAhead = s.gthAhead := rfl
@[simp] theorem inc_uses (a : Nat) : (inc s a).uses = s.uses := rfl
@[simp] theorem inc_out (a : Nat) : (inc s a).out = s.out := rfl

@[simp] theorem incBy_pending (a n : Nat) : (incBy s a n).pending = s.pending := rfl
@[simp] theorem incBy_time (a n : Nat) : (incBy s a n).time = s.time := rfl
@[simp] theorem incBy_mem (a n : Nat) : (incBy s a n).mem = s.mem := rfl
@[simp] theorem incBy_tags (a n : Nat) : (incBy s a n).tags = s.tags := rfl
@[simp] theorem incBy_somEve (a n : Nat) : (incBy s a n).somEve = s.somEve := rfl
@[simp] theorem incBy_queues (a n : Nat) : (incBy s a n).queues = s.queues := rfl
@[simp] theorem incBy_pool (a n : Nat) : (incBy s a n).pool = s.pool := rfl
@[simp] theorem incBy_gens (a n : Nat) : (incBy s a n).gens = s.gens := rfl
@[simp] theorem incBy_genOrder (a n : Nat) : (incBy s a n).genOrder = s.genOrder := rfl
@[simp] theorem incBy_flags (a n : Nat) : (incBy s a n).flags = s.flags := rfl
@[simp] theorem incBy_held (a n : Nat) : (incBy s a n).held = s.held := rfl
@[simp] theorem incBy_fwl (a n : Nat) : (incBy s a n).fwl = s.fwl := rfl
@[simp] theorem incBy_units (a n : Nat) : (incBy s a n).units = s.units := rfl
@[simp] theorem incBy_diary (a n : Nat) : (incBy s a n).diary = s.diary := rfl
@[simp] theorem incBy_firm (a n : Nat) : (incBy s a n).firm = s.firm := rfl
@[simp] theorem incBy_health (a n : Nat) : (incBy s a n).health = s.health := rfl
@[simp] theorem incBy_boxes (a n : Nat) : (incBy s a n).boxes = s.boxes := rfl
@[simp] theorem incBy_power (a n : Nat) : (incBy s a n).power = s.power := rfl
@[simp] theorem incBy_vigil (a n : Nat) : (incBy s a n).vigil = s.vigil := rfl
@[simp] theorem incBy_clock (a n : Nat) : (incBy s a n).clock = s.clock := rfl
@[simp] theorem incBy_cls (a n : Nat) : (incBy s a n).cls = s.cls := rfl
@[simp] theorem incBy_pins (a n : Nat) : (incBy s a n).pins = s.pins := rfl
@[simp] theorem incBy_fld (a n : Nat) : (incBy s a n).fld = s.fld := rfl
@[simp] theorem incBy_hif (a n : Nat) : (incBy s a n).hif = s.hif := rfl
@[simp] theorem incBy_graphs (a n : Nat) : (incBy s a n).graphs = s.graphs := rfl
@[simp] theorem incBy_seqs (a n : Nat) : (incBy s a n).seqs = s.seqs := rfl
@[simp] theorem incBy_ctxs (a n : Nat) : (incBy s a n).ctxs = s.ctxs := rfl
@[simp] theorem incBy_banks (a n : Nat) : (incBy s a n).banks = s.banks := rfl
@[simp] theorem incBy_sched (a n : Nat) : (incBy s a n).sched = s.sched := rfl
@[simp] theorem incBy_ptags (a n : Nat) : (incBy s a n).ptags = s.ptags := rfl
@[simp] theorem incBy_nstat (a n : Nat) : (incBy s a n).nstat = s.nstat := rfl
@[simp] theorem incBy_dmaHalt (a n : Nat) : (incBy s a n).dmaHalt = s.dmaHalt := rfl
@[simp] theorem incBy_dmaLatch (a n : Nat) : (incBy s a n).dmaLatch = s.dmaLatch := rfl
@[simp] theorem incBy_dmaLast (a n : Nat) : (incBy s a n).dmaLast = s.dmaLast := rfl
@[simp] theorem incBy_memBad (a n : Nat) : (incBy s a n).memBad = s.memBad := rfl
@[simp] theorem incBy_hostReads (a n : Nat) : (incBy s a n).hostReads = s.hostReads := rfl
@[simp] theorem incBy_flowWait (a n : Nat) : (incBy s a n).flowWait = s.flowWait := rfl
@[simp] theorem incBy_admits (a n : Nat) : (incBy s a n).admits = s.admits := rfl
@[simp] theorem incBy_resident (a n : Nat) : (incBy s a n).resident = s.resident := rfl
@[simp] theorem incBy_pipes (a n : Nat) : (incBy s a n).pipes = s.pipes := rfl
@[simp] theorem incBy_fsync (a n : Nat) : (incBy s a n).fsync = s.fsync := rfl
@[simp] theorem incBy_ibi (a n : Nat) : (incBy s a n).ibi = s.ibi := rfl
@[simp] theorem incBy_scm (a n : Nat) : (incBy s a n).scm = s.scm := rfl
@[simp] theorem incBy_chk (a n : Nat) : (incBy s a n).chk = s.chk := rfl
@[simp] theorem incBy_cdc (a n : Nat) : (incBy s a n).cdc = s.cdc := rfl
@[simp] theorem incBy_tcs (a n : Nat) : (incBy s a n).tcs = s.tcs := rfl
@[simp] theorem incBy_tables (a n : Nat) : (incBy s a n).tables = s.tables := rfl
@[simp] theorem incBy_gthPairs (a n : Nat) : (incBy s a n).gthPairs = s.gthPairs := rfl
@[simp] theorem incBy_gthBusy (a n : Nat) : (incBy s a n).gthBusy = s.gthBusy := rfl
@[simp] theorem incBy_gthAhead (a n : Nat) : (incBy s a n).gthAhead = s.gthAhead := rfl
@[simp] theorem incBy_uses (a n : Nat) : (incBy s a n).uses = s.uses := rfl
@[simp] theorem incBy_out (a n : Nat) : (incBy s a n).out = s.out := rfl

@[simp] theorem setField_pending (a hi lo v : Nat) : (setField s a hi lo v).pending = s.pending := rfl
@[simp] theorem setField_time (a hi lo v : Nat) : (setField s a hi lo v).time = s.time := rfl
@[simp] theorem setField_mem (a hi lo v : Nat) : (setField s a hi lo v).mem = s.mem := rfl
@[simp] theorem setField_tags (a hi lo v : Nat) : (setField s a hi lo v).tags = s.tags := rfl
@[simp] theorem setField_somEve (a hi lo v : Nat) : (setField s a hi lo v).somEve = s.somEve := rfl
@[simp] theorem setField_queues (a hi lo v : Nat) : (setField s a hi lo v).queues = s.queues := rfl
@[simp] theorem setField_pool (a hi lo v : Nat) : (setField s a hi lo v).pool = s.pool := rfl
@[simp] theorem setField_gens (a hi lo v : Nat) : (setField s a hi lo v).gens = s.gens := rfl
@[simp] theorem setField_genOrder (a hi lo v : Nat) : (setField s a hi lo v).genOrder = s.genOrder := rfl
@[simp] theorem setField_flags (a hi lo v : Nat) : (setField s a hi lo v).flags = s.flags := rfl
@[simp] theorem setField_held (a hi lo v : Nat) : (setField s a hi lo v).held = s.held := rfl
@[simp] theorem setField_fwl (a hi lo v : Nat) : (setField s a hi lo v).fwl = s.fwl := rfl
@[simp] theorem setField_units (a hi lo v : Nat) : (setField s a hi lo v).units = s.units := rfl
@[simp] theorem setField_diary (a hi lo v : Nat) : (setField s a hi lo v).diary = s.diary := rfl
@[simp] theorem setField_firm (a hi lo v : Nat) : (setField s a hi lo v).firm = s.firm := rfl
@[simp] theorem setField_health (a hi lo v : Nat) : (setField s a hi lo v).health = s.health := rfl
@[simp] theorem setField_boxes (a hi lo v : Nat) : (setField s a hi lo v).boxes = s.boxes := rfl
@[simp] theorem setField_power (a hi lo v : Nat) : (setField s a hi lo v).power = s.power := rfl
@[simp] theorem setField_vigil (a hi lo v : Nat) : (setField s a hi lo v).vigil = s.vigil := rfl
@[simp] theorem setField_clock (a hi lo v : Nat) : (setField s a hi lo v).clock = s.clock := rfl
@[simp] theorem setField_cls (a hi lo v : Nat) : (setField s a hi lo v).cls = s.cls := rfl
@[simp] theorem setField_pins (a hi lo v : Nat) : (setField s a hi lo v).pins = s.pins := rfl
@[simp] theorem setField_fld (a hi lo v : Nat) : (setField s a hi lo v).fld = s.fld := rfl
@[simp] theorem setField_hif (a hi lo v : Nat) : (setField s a hi lo v).hif = s.hif := rfl
@[simp] theorem setField_graphs (a hi lo v : Nat) : (setField s a hi lo v).graphs = s.graphs := rfl
@[simp] theorem setField_seqs (a hi lo v : Nat) : (setField s a hi lo v).seqs = s.seqs := rfl
@[simp] theorem setField_ctxs (a hi lo v : Nat) : (setField s a hi lo v).ctxs = s.ctxs := rfl
@[simp] theorem setField_banks (a hi lo v : Nat) : (setField s a hi lo v).banks = s.banks := rfl
@[simp] theorem setField_sched (a hi lo v : Nat) : (setField s a hi lo v).sched = s.sched := rfl
@[simp] theorem setField_ptags (a hi lo v : Nat) : (setField s a hi lo v).ptags = s.ptags := rfl
@[simp] theorem setField_nstat (a hi lo v : Nat) : (setField s a hi lo v).nstat = s.nstat := rfl
@[simp] theorem setField_dmaHalt (a hi lo v : Nat) : (setField s a hi lo v).dmaHalt = s.dmaHalt := rfl
@[simp] theorem setField_dmaLatch (a hi lo v : Nat) : (setField s a hi lo v).dmaLatch = s.dmaLatch := rfl
@[simp] theorem setField_dmaLast (a hi lo v : Nat) : (setField s a hi lo v).dmaLast = s.dmaLast := rfl
@[simp] theorem setField_memBad (a hi lo v : Nat) : (setField s a hi lo v).memBad = s.memBad := rfl
@[simp] theorem setField_hostReads (a hi lo v : Nat) : (setField s a hi lo v).hostReads = s.hostReads := rfl
@[simp] theorem setField_flowWait (a hi lo v : Nat) : (setField s a hi lo v).flowWait = s.flowWait := rfl
@[simp] theorem setField_admits (a hi lo v : Nat) : (setField s a hi lo v).admits = s.admits := rfl
@[simp] theorem setField_resident (a hi lo v : Nat) : (setField s a hi lo v).resident = s.resident := rfl
@[simp] theorem setField_pipes (a hi lo v : Nat) : (setField s a hi lo v).pipes = s.pipes := rfl
@[simp] theorem setField_fsync (a hi lo v : Nat) : (setField s a hi lo v).fsync = s.fsync := rfl
@[simp] theorem setField_ibi (a hi lo v : Nat) : (setField s a hi lo v).ibi = s.ibi := rfl
@[simp] theorem setField_scm (a hi lo v : Nat) : (setField s a hi lo v).scm = s.scm := rfl
@[simp] theorem setField_chk (a hi lo v : Nat) : (setField s a hi lo v).chk = s.chk := rfl
@[simp] theorem setField_cdc (a hi lo v : Nat) : (setField s a hi lo v).cdc = s.cdc := rfl
@[simp] theorem setField_tcs (a hi lo v : Nat) : (setField s a hi lo v).tcs = s.tcs := rfl
@[simp] theorem setField_tables (a hi lo v : Nat) : (setField s a hi lo v).tables = s.tables := rfl
@[simp] theorem setField_gthPairs (a hi lo v : Nat) : (setField s a hi lo v).gthPairs = s.gthPairs := rfl
@[simp] theorem setField_gthBusy (a hi lo v : Nat) : (setField s a hi lo v).gthBusy = s.gthBusy := rfl
@[simp] theorem setField_gthAhead (a hi lo v : Nat) : (setField s a hi lo v).gthAhead = s.gthAhead := rfl
@[simp] theorem setField_uses (a hi lo v : Nat) : (setField s a hi lo v).uses = s.uses := rfl
@[simp] theorem setField_out (a hi lo v : Nat) : (setField s a hi lo v).out = s.out := rfl

@[simp] theorem emit_pending (o : Out) : (emit s o).pending = s.pending := rfl
@[simp] theorem emit_time (o : Out) : (emit s o).time = s.time := rfl
@[simp] theorem emit_regs (o : Out) : (emit s o).regs = s.regs := rfl
@[simp] theorem emit_mem (o : Out) : (emit s o).mem = s.mem := rfl
@[simp] theorem emit_tags (o : Out) : (emit s o).tags = s.tags := rfl
@[simp] theorem emit_somEve (o : Out) : (emit s o).somEve = s.somEve := rfl
@[simp] theorem emit_queues (o : Out) : (emit s o).queues = s.queues := rfl
@[simp] theorem emit_pool (o : Out) : (emit s o).pool = s.pool := rfl
@[simp] theorem emit_gens (o : Out) : (emit s o).gens = s.gens := rfl
@[simp] theorem emit_genOrder (o : Out) : (emit s o).genOrder = s.genOrder := rfl
@[simp] theorem emit_flags (o : Out) : (emit s o).flags = s.flags := rfl
@[simp] theorem emit_held (o : Out) : (emit s o).held = s.held := rfl
@[simp] theorem emit_fwl (o : Out) : (emit s o).fwl = s.fwl := rfl
@[simp] theorem emit_units (o : Out) : (emit s o).units = s.units := rfl
@[simp] theorem emit_diary (o : Out) : (emit s o).diary = s.diary := rfl
@[simp] theorem emit_firm (o : Out) : (emit s o).firm = s.firm := rfl
@[simp] theorem emit_health (o : Out) : (emit s o).health = s.health := rfl
@[simp] theorem emit_boxes (o : Out) : (emit s o).boxes = s.boxes := rfl
@[simp] theorem emit_power (o : Out) : (emit s o).power = s.power := rfl
@[simp] theorem emit_vigil (o : Out) : (emit s o).vigil = s.vigil := rfl
@[simp] theorem emit_clock (o : Out) : (emit s o).clock = s.clock := rfl
@[simp] theorem emit_cls (o : Out) : (emit s o).cls = s.cls := rfl
@[simp] theorem emit_pins (o : Out) : (emit s o).pins = s.pins := rfl
@[simp] theorem emit_fld (o : Out) : (emit s o).fld = s.fld := rfl
@[simp] theorem emit_hif (o : Out) : (emit s o).hif = s.hif := rfl
@[simp] theorem emit_graphs (o : Out) : (emit s o).graphs = s.graphs := rfl
@[simp] theorem emit_seqs (o : Out) : (emit s o).seqs = s.seqs := rfl
@[simp] theorem emit_ctxs (o : Out) : (emit s o).ctxs = s.ctxs := rfl
@[simp] theorem emit_banks (o : Out) : (emit s o).banks = s.banks := rfl
@[simp] theorem emit_sched (o : Out) : (emit s o).sched = s.sched := rfl
@[simp] theorem emit_ptags (o : Out) : (emit s o).ptags = s.ptags := rfl
@[simp] theorem emit_nstat (o : Out) : (emit s o).nstat = s.nstat := rfl
@[simp] theorem emit_dmaHalt (o : Out) : (emit s o).dmaHalt = s.dmaHalt := rfl
@[simp] theorem emit_dmaLatch (o : Out) : (emit s o).dmaLatch = s.dmaLatch := rfl
@[simp] theorem emit_dmaLast (o : Out) : (emit s o).dmaLast = s.dmaLast := rfl
@[simp] theorem emit_memBad (o : Out) : (emit s o).memBad = s.memBad := rfl
@[simp] theorem emit_hostReads (o : Out) : (emit s o).hostReads = s.hostReads := rfl
@[simp] theorem emit_flowWait (o : Out) : (emit s o).flowWait = s.flowWait := rfl
@[simp] theorem emit_admits (o : Out) : (emit s o).admits = s.admits := rfl
@[simp] theorem emit_resident (o : Out) : (emit s o).resident = s.resident := rfl
@[simp] theorem emit_pipes (o : Out) : (emit s o).pipes = s.pipes := rfl
@[simp] theorem emit_fsync (o : Out) : (emit s o).fsync = s.fsync := rfl
@[simp] theorem emit_ibi (o : Out) : (emit s o).ibi = s.ibi := rfl
@[simp] theorem emit_scm (o : Out) : (emit s o).scm = s.scm := rfl
@[simp] theorem emit_chk (o : Out) : (emit s o).chk = s.chk := rfl
@[simp] theorem emit_cdc (o : Out) : (emit s o).cdc = s.cdc := rfl
@[simp] theorem emit_tcs (o : Out) : (emit s o).tcs = s.tcs := rfl
@[simp] theorem emit_tables (o : Out) : (emit s o).tables = s.tables := rfl
@[simp] theorem emit_gthPairs (o : Out) : (emit s o).gthPairs = s.gthPairs := rfl
@[simp] theorem emit_gthBusy (o : Out) : (emit s o).gthBusy = s.gthBusy := rfl
@[simp] theorem emit_gthAhead (o : Out) : (emit s o).gthAhead = s.gthAhead := rfl
@[simp] theorem emit_uses (o : Out) : (emit s o).uses = s.uses := rfl

@[simp] theorem setFn_pending (f : Nat) (p : PcieFn) : (setFn s f p).pending = s.pending := by unfold setFn; split <;> rfl
@[simp] theorem setFn_time (f : Nat) (p : PcieFn) : (setFn s f p).time = s.time := by unfold setFn; split <;> rfl
@[simp] theorem setFn_regs (f : Nat) (p : PcieFn) : (setFn s f p).regs = s.regs := by unfold setFn; split <;> rfl
@[simp] theorem setFn_mem (f : Nat) (p : PcieFn) : (setFn s f p).mem = s.mem := by unfold setFn; split <;> rfl
@[simp] theorem setFn_tags (f : Nat) (p : PcieFn) : (setFn s f p).tags = s.tags := by unfold setFn; split <;> rfl
@[simp] theorem setFn_somEve (f : Nat) (p : PcieFn) : (setFn s f p).somEve = s.somEve := by unfold setFn; split <;> rfl
@[simp] theorem setFn_queues (f : Nat) (p : PcieFn) : (setFn s f p).queues = s.queues := by unfold setFn; split <;> rfl
@[simp] theorem setFn_pool (f : Nat) (p : PcieFn) : (setFn s f p).pool = s.pool := by unfold setFn; split <;> rfl
@[simp] theorem setFn_gens (f : Nat) (p : PcieFn) : (setFn s f p).gens = s.gens := by unfold setFn; split <;> rfl
@[simp] theorem setFn_genOrder (f : Nat) (p : PcieFn) : (setFn s f p).genOrder = s.genOrder := by unfold setFn; split <;> rfl
@[simp] theorem setFn_flags (f : Nat) (p : PcieFn) : (setFn s f p).flags = s.flags := by unfold setFn; split <;> rfl
@[simp] theorem setFn_held (f : Nat) (p : PcieFn) : (setFn s f p).held = s.held := by unfold setFn; split <;> rfl
@[simp] theorem setFn_fwl (f : Nat) (p : PcieFn) : (setFn s f p).fwl = s.fwl := by unfold setFn; split <;> rfl
@[simp] theorem setFn_units (f : Nat) (p : PcieFn) : (setFn s f p).units = s.units := by unfold setFn; split <;> rfl
@[simp] theorem setFn_diary (f : Nat) (p : PcieFn) : (setFn s f p).diary = s.diary := by unfold setFn; split <;> rfl
@[simp] theorem setFn_firm (f : Nat) (p : PcieFn) : (setFn s f p).firm = s.firm := by unfold setFn; split <;> rfl
@[simp] theorem setFn_health (f : Nat) (p : PcieFn) : (setFn s f p).health = s.health := by unfold setFn; split <;> rfl
@[simp] theorem setFn_boxes (f : Nat) (p : PcieFn) : (setFn s f p).boxes = s.boxes := by unfold setFn; split <;> rfl
@[simp] theorem setFn_power (f : Nat) (p : PcieFn) : (setFn s f p).power = s.power := by unfold setFn; split <;> rfl
@[simp] theorem setFn_vigil (f : Nat) (p : PcieFn) : (setFn s f p).vigil = s.vigil := by unfold setFn; split <;> rfl
@[simp] theorem setFn_clock (f : Nat) (p : PcieFn) : (setFn s f p).clock = s.clock := by unfold setFn; split <;> rfl
@[simp] theorem setFn_cls (f : Nat) (p : PcieFn) : (setFn s f p).cls = s.cls := by unfold setFn; split <;> rfl
@[simp] theorem setFn_pins (f : Nat) (p : PcieFn) : (setFn s f p).pins = s.pins := by unfold setFn; split <;> rfl
@[simp] theorem setFn_fld (f : Nat) (p : PcieFn) : (setFn s f p).fld = s.fld := by unfold setFn; split <;> rfl
@[simp] theorem setFn_graphs (f : Nat) (p : PcieFn) : (setFn s f p).graphs = s.graphs := by unfold setFn; split <;> rfl
@[simp] theorem setFn_seqs (f : Nat) (p : PcieFn) : (setFn s f p).seqs = s.seqs := by unfold setFn; split <;> rfl
@[simp] theorem setFn_ctxs (f : Nat) (p : PcieFn) : (setFn s f p).ctxs = s.ctxs := by unfold setFn; split <;> rfl
@[simp] theorem setFn_banks (f : Nat) (p : PcieFn) : (setFn s f p).banks = s.banks := by unfold setFn; split <;> rfl
@[simp] theorem setFn_sched (f : Nat) (p : PcieFn) : (setFn s f p).sched = s.sched := by unfold setFn; split <;> rfl
@[simp] theorem setFn_ptags (f : Nat) (p : PcieFn) : (setFn s f p).ptags = s.ptags := by unfold setFn; split <;> rfl
@[simp] theorem setFn_nstat (f : Nat) (p : PcieFn) : (setFn s f p).nstat = s.nstat := by unfold setFn; split <;> rfl
@[simp] theorem setFn_dmaHalt (f : Nat) (p : PcieFn) : (setFn s f p).dmaHalt = s.dmaHalt := by unfold setFn; split <;> rfl
@[simp] theorem setFn_dmaLatch (f : Nat) (p : PcieFn) : (setFn s f p).dmaLatch = s.dmaLatch := by unfold setFn; split <;> rfl
@[simp] theorem setFn_dmaLast (f : Nat) (p : PcieFn) : (setFn s f p).dmaLast = s.dmaLast := by unfold setFn; split <;> rfl
@[simp] theorem setFn_memBad (f : Nat) (p : PcieFn) : (setFn s f p).memBad = s.memBad := by unfold setFn; split <;> rfl
@[simp] theorem setFn_hostReads (f : Nat) (p : PcieFn) : (setFn s f p).hostReads = s.hostReads := by unfold setFn; split <;> rfl
@[simp] theorem setFn_flowWait (f : Nat) (p : PcieFn) : (setFn s f p).flowWait = s.flowWait := by unfold setFn; split <;> rfl
@[simp] theorem setFn_admits (f : Nat) (p : PcieFn) : (setFn s f p).admits = s.admits := by unfold setFn; split <;> rfl
@[simp] theorem setFn_resident (f : Nat) (p : PcieFn) : (setFn s f p).resident = s.resident := by unfold setFn; split <;> rfl
@[simp] theorem setFn_pipes (f : Nat) (p : PcieFn) : (setFn s f p).pipes = s.pipes := by unfold setFn; split <;> rfl
@[simp] theorem setFn_fsync (f : Nat) (p : PcieFn) : (setFn s f p).fsync = s.fsync := by unfold setFn; split <;> rfl
@[simp] theorem setFn_ibi (f : Nat) (p : PcieFn) : (setFn s f p).ibi = s.ibi := by unfold setFn; split <;> rfl
@[simp] theorem setFn_scm (f : Nat) (p : PcieFn) : (setFn s f p).scm = s.scm := by unfold setFn; split <;> rfl
@[simp] theorem setFn_chk (f : Nat) (p : PcieFn) : (setFn s f p).chk = s.chk := by unfold setFn; split <;> rfl
@[simp] theorem setFn_cdc (f : Nat) (p : PcieFn) : (setFn s f p).cdc = s.cdc := by unfold setFn; split <;> rfl
@[simp] theorem setFn_tcs (f : Nat) (p : PcieFn) : (setFn s f p).tcs = s.tcs := by unfold setFn; split <;> rfl
@[simp] theorem setFn_tables (f : Nat) (p : PcieFn) : (setFn s f p).tables = s.tables := by unfold setFn; split <;> rfl
@[simp] theorem setFn_gthPairs (f : Nat) (p : PcieFn) : (setFn s f p).gthPairs = s.gthPairs := by unfold setFn; split <;> rfl
@[simp] theorem setFn_gthBusy (f : Nat) (p : PcieFn) : (setFn s f p).gthBusy = s.gthBusy := by unfold setFn; split <;> rfl
@[simp] theorem setFn_gthAhead (f : Nat) (p : PcieFn) : (setFn s f p).gthAhead = s.gthAhead := by unfold setFn; split <;> rfl
@[simp] theorem setFn_uses (f : Nat) (p : PcieFn) : (setFn s f p).uses = s.uses := by unfold setFn; split <;> rfl
@[simp] theorem setFn_out (f : Nat) (p : PcieFn) : (setFn s f p).out = s.out := by unfold setFn; split <;> rfl

@[simp] theorem setUnit_pending (u : Nat) (r : UnitRec) : (setUnit s u r).pending = s.pending := rfl
@[simp] theorem setUnit_time (u : Nat) (r : UnitRec) : (setUnit s u r).time = s.time := rfl
@[simp] theorem setUnit_regs (u : Nat) (r : UnitRec) : (setUnit s u r).regs = s.regs := rfl
@[simp] theorem setUnit_mem (u : Nat) (r : UnitRec) : (setUnit s u r).mem = s.mem := rfl
@[simp] theorem setUnit_tags (u : Nat) (r : UnitRec) : (setUnit s u r).tags = s.tags := rfl
@[simp] theorem setUnit_somEve (u : Nat) (r : UnitRec) : (setUnit s u r).somEve = s.somEve := rfl
@[simp] theorem setUnit_queues (u : Nat) (r : UnitRec) : (setUnit s u r).queues = s.queues := rfl
@[simp] theorem setUnit_pool (u : Nat) (r : UnitRec) : (setUnit s u r).pool = s.pool := rfl
@[simp] theorem setUnit_gens (u : Nat) (r : UnitRec) : (setUnit s u r).gens = s.gens := rfl
@[simp] theorem setUnit_genOrder (u : Nat) (r : UnitRec) : (setUnit s u r).genOrder = s.genOrder := rfl
@[simp] theorem setUnit_flags (u : Nat) (r : UnitRec) : (setUnit s u r).flags = s.flags := rfl
@[simp] theorem setUnit_held (u : Nat) (r : UnitRec) : (setUnit s u r).held = s.held := rfl
@[simp] theorem setUnit_fwl (u : Nat) (r : UnitRec) : (setUnit s u r).fwl = s.fwl := rfl
@[simp] theorem setUnit_diary (u : Nat) (r : UnitRec) : (setUnit s u r).diary = s.diary := rfl
@[simp] theorem setUnit_firm (u : Nat) (r : UnitRec) : (setUnit s u r).firm = s.firm := rfl
@[simp] theorem setUnit_health (u : Nat) (r : UnitRec) : (setUnit s u r).health = s.health := rfl
@[simp] theorem setUnit_boxes (u : Nat) (r : UnitRec) : (setUnit s u r).boxes = s.boxes := rfl
@[simp] theorem setUnit_power (u : Nat) (r : UnitRec) : (setUnit s u r).power = s.power := rfl
@[simp] theorem setUnit_vigil (u : Nat) (r : UnitRec) : (setUnit s u r).vigil = s.vigil := rfl
@[simp] theorem setUnit_clock (u : Nat) (r : UnitRec) : (setUnit s u r).clock = s.clock := rfl
@[simp] theorem setUnit_cls (u : Nat) (r : UnitRec) : (setUnit s u r).cls = s.cls := rfl
@[simp] theorem setUnit_pins (u : Nat) (r : UnitRec) : (setUnit s u r).pins = s.pins := rfl
@[simp] theorem setUnit_fld (u : Nat) (r : UnitRec) : (setUnit s u r).fld = s.fld := rfl
@[simp] theorem setUnit_hif (u : Nat) (r : UnitRec) : (setUnit s u r).hif = s.hif := rfl
@[simp] theorem setUnit_graphs (u : Nat) (r : UnitRec) : (setUnit s u r).graphs = s.graphs := rfl
@[simp] theorem setUnit_seqs (u : Nat) (r : UnitRec) : (setUnit s u r).seqs = s.seqs := rfl
@[simp] theorem setUnit_ctxs (u : Nat) (r : UnitRec) : (setUnit s u r).ctxs = s.ctxs := rfl
@[simp] theorem setUnit_banks (u : Nat) (r : UnitRec) : (setUnit s u r).banks = s.banks := rfl
@[simp] theorem setUnit_sched (u : Nat) (r : UnitRec) : (setUnit s u r).sched = s.sched := rfl
@[simp] theorem setUnit_ptags (u : Nat) (r : UnitRec) : (setUnit s u r).ptags = s.ptags := rfl
@[simp] theorem setUnit_nstat (u : Nat) (r : UnitRec) : (setUnit s u r).nstat = s.nstat := rfl
@[simp] theorem setUnit_dmaHalt (u : Nat) (r : UnitRec) : (setUnit s u r).dmaHalt = s.dmaHalt := rfl
@[simp] theorem setUnit_dmaLatch (u : Nat) (r : UnitRec) : (setUnit s u r).dmaLatch = s.dmaLatch := rfl
@[simp] theorem setUnit_dmaLast (u : Nat) (r : UnitRec) : (setUnit s u r).dmaLast = s.dmaLast := rfl
@[simp] theorem setUnit_memBad (u : Nat) (r : UnitRec) : (setUnit s u r).memBad = s.memBad := rfl
@[simp] theorem setUnit_hostReads (u : Nat) (r : UnitRec) : (setUnit s u r).hostReads = s.hostReads := rfl
@[simp] theorem setUnit_flowWait (u : Nat) (r : UnitRec) : (setUnit s u r).flowWait = s.flowWait := rfl
@[simp] theorem setUnit_admits (u : Nat) (r : UnitRec) : (setUnit s u r).admits = s.admits := rfl
@[simp] theorem setUnit_resident (u : Nat) (r : UnitRec) : (setUnit s u r).resident = s.resident := rfl
@[simp] theorem setUnit_pipes (u : Nat) (r : UnitRec) : (setUnit s u r).pipes = s.pipes := rfl
@[simp] theorem setUnit_fsync (u : Nat) (r : UnitRec) : (setUnit s u r).fsync = s.fsync := rfl
@[simp] theorem setUnit_ibi (u : Nat) (r : UnitRec) : (setUnit s u r).ibi = s.ibi := rfl
@[simp] theorem setUnit_scm (u : Nat) (r : UnitRec) : (setUnit s u r).scm = s.scm := rfl
@[simp] theorem setUnit_chk (u : Nat) (r : UnitRec) : (setUnit s u r).chk = s.chk := rfl
@[simp] theorem setUnit_cdc (u : Nat) (r : UnitRec) : (setUnit s u r).cdc = s.cdc := rfl
@[simp] theorem setUnit_tcs (u : Nat) (r : UnitRec) : (setUnit s u r).tcs = s.tcs := rfl
@[simp] theorem setUnit_tables (u : Nat) (r : UnitRec) : (setUnit s u r).tables = s.tables := rfl
@[simp] theorem setUnit_gthPairs (u : Nat) (r : UnitRec) : (setUnit s u r).gthPairs = s.gthPairs := rfl
@[simp] theorem setUnit_gthBusy (u : Nat) (r : UnitRec) : (setUnit s u r).gthBusy = s.gthBusy := rfl
@[simp] theorem setUnit_gthAhead (u : Nat) (r : UnitRec) : (setUnit s u r).gthAhead = s.gthAhead := rfl
@[simp] theorem setUnit_uses (u : Nat) (r : UnitRec) : (setUnit s u r).uses = s.uses := rfl
@[simp] theorem setUnit_out (u : Nat) (r : UnitRec) : (setUnit s u r).out = s.out := rfl

@[simp] theorem poke_pending (a : Nat) (l : List Byte) : (poke s a l).pending = s.pending := rfl
@[simp] theorem poke_time (a : Nat) (l : List Byte) : (poke s a l).time = s.time := rfl
@[simp] theorem poke_regs (a : Nat) (l : List Byte) : (poke s a l).regs = s.regs := rfl
@[simp] theorem poke_tags (a : Nat) (l : List Byte) : (poke s a l).tags = s.tags := rfl
@[simp] theorem poke_somEve (a : Nat) (l : List Byte) : (poke s a l).somEve = s.somEve := rfl
@[simp] theorem poke_queues (a : Nat) (l : List Byte) : (poke s a l).queues = s.queues := rfl
@[simp] theorem poke_pool (a : Nat) (l : List Byte) : (poke s a l).pool = s.pool := rfl
@[simp] theorem poke_gens (a : Nat) (l : List Byte) : (poke s a l).gens = s.gens := rfl
@[simp] theorem poke_genOrder (a : Nat) (l : List Byte) : (poke s a l).genOrder = s.genOrder := rfl
@[simp] theorem poke_flags (a : Nat) (l : List Byte) : (poke s a l).flags = s.flags := rfl
@[simp] theorem poke_held (a : Nat) (l : List Byte) : (poke s a l).held = s.held := rfl
@[simp] theorem poke_fwl (a : Nat) (l : List Byte) : (poke s a l).fwl = s.fwl := rfl
@[simp] theorem poke_units (a : Nat) (l : List Byte) : (poke s a l).units = s.units := rfl
@[simp] theorem poke_diary (a : Nat) (l : List Byte) : (poke s a l).diary = s.diary := rfl
@[simp] theorem poke_firm (a : Nat) (l : List Byte) : (poke s a l).firm = s.firm := rfl
@[simp] theorem poke_health (a : Nat) (l : List Byte) : (poke s a l).health = s.health := rfl
@[simp] theorem poke_boxes (a : Nat) (l : List Byte) : (poke s a l).boxes = s.boxes := rfl
@[simp] theorem poke_power (a : Nat) (l : List Byte) : (poke s a l).power = s.power := rfl
@[simp] theorem poke_vigil (a : Nat) (l : List Byte) : (poke s a l).vigil = s.vigil := rfl
@[simp] theorem poke_clock (a : Nat) (l : List Byte) : (poke s a l).clock = s.clock := rfl
@[simp] theorem poke_cls (a : Nat) (l : List Byte) : (poke s a l).cls = s.cls := rfl
@[simp] theorem poke_pins (a : Nat) (l : List Byte) : (poke s a l).pins = s.pins := rfl
@[simp] theorem poke_fld (a : Nat) (l : List Byte) : (poke s a l).fld = s.fld := rfl
@[simp] theorem poke_hif (a : Nat) (l : List Byte) : (poke s a l).hif = s.hif := rfl
@[simp] theorem poke_graphs (a : Nat) (l : List Byte) : (poke s a l).graphs = s.graphs := rfl
@[simp] theorem poke_seqs (a : Nat) (l : List Byte) : (poke s a l).seqs = s.seqs := rfl
@[simp] theorem poke_ctxs (a : Nat) (l : List Byte) : (poke s a l).ctxs = s.ctxs := rfl
@[simp] theorem poke_banks (a : Nat) (l : List Byte) : (poke s a l).banks = s.banks := rfl
@[simp] theorem poke_sched (a : Nat) (l : List Byte) : (poke s a l).sched = s.sched := rfl
@[simp] theorem poke_ptags (a : Nat) (l : List Byte) : (poke s a l).ptags = s.ptags := rfl
@[simp] theorem poke_nstat (a : Nat) (l : List Byte) : (poke s a l).nstat = s.nstat := rfl
@[simp] theorem poke_dmaHalt (a : Nat) (l : List Byte) : (poke s a l).dmaHalt = s.dmaHalt := rfl
@[simp] theorem poke_dmaLatch (a : Nat) (l : List Byte) : (poke s a l).dmaLatch = s.dmaLatch := rfl
@[simp] theorem poke_dmaLast (a : Nat) (l : List Byte) : (poke s a l).dmaLast = s.dmaLast := rfl
@[simp] theorem poke_memBad (a : Nat) (l : List Byte) : (poke s a l).memBad = s.memBad := rfl
@[simp] theorem poke_hostReads (a : Nat) (l : List Byte) : (poke s a l).hostReads = s.hostReads := rfl
@[simp] theorem poke_flowWait (a : Nat) (l : List Byte) : (poke s a l).flowWait = s.flowWait := rfl
@[simp] theorem poke_admits (a : Nat) (l : List Byte) : (poke s a l).admits = s.admits := rfl
@[simp] theorem poke_resident (a : Nat) (l : List Byte) : (poke s a l).resident = s.resident := rfl
@[simp] theorem poke_pipes (a : Nat) (l : List Byte) : (poke s a l).pipes = s.pipes := rfl
@[simp] theorem poke_fsync (a : Nat) (l : List Byte) : (poke s a l).fsync = s.fsync := rfl
@[simp] theorem poke_ibi (a : Nat) (l : List Byte) : (poke s a l).ibi = s.ibi := rfl
@[simp] theorem poke_scm (a : Nat) (l : List Byte) : (poke s a l).scm = s.scm := rfl
@[simp] theorem poke_chk (a : Nat) (l : List Byte) : (poke s a l).chk = s.chk := rfl
@[simp] theorem poke_cdc (a : Nat) (l : List Byte) : (poke s a l).cdc = s.cdc := rfl
@[simp] theorem poke_tcs (a : Nat) (l : List Byte) : (poke s a l).tcs = s.tcs := rfl
@[simp] theorem poke_tables (a : Nat) (l : List Byte) : (poke s a l).tables = s.tables := rfl
@[simp] theorem poke_gthPairs (a : Nat) (l : List Byte) : (poke s a l).gthPairs = s.gthPairs := rfl
@[simp] theorem poke_gthBusy (a : Nat) (l : List Byte) : (poke s a l).gthBusy = s.gthBusy := rfl
@[simp] theorem poke_gthAhead (a : Nat) (l : List Byte) : (poke s a l).gthAhead = s.gthAhead := rfl
@[simp] theorem poke_uses (a : Nat) (l : List Byte) : (poke s a l).uses = s.uses := rfl
@[simp] theorem poke_out (a : Nat) (l : List Byte) : (poke s a l).out = s.out := rfl

@[simp] theorem setGen_pending (g : Nat) (e : Gen) : (setGen s g e).pending = s.pending := rfl
@[simp] theorem setGen_time (g : Nat) (e : Gen) : (setGen s g e).time = s.time := rfl
@[simp] theorem setGen_regs (g : Nat) (e : Gen) : (setGen s g e).regs = s.regs := rfl
@[simp] theorem setGen_mem (g : Nat) (e : Gen) : (setGen s g e).mem = s.mem := rfl
@[simp] theorem setGen_tags (g : Nat) (e : Gen) : (setGen s g e).tags = s.tags := rfl
@[simp] theorem setGen_somEve (g : Nat) (e : Gen) : (setGen s g e).somEve = s.somEve := rfl
@[simp] theorem setGen_queues (g : Nat) (e : Gen) : (setGen s g e).queues = s.queues := rfl
@[simp] theorem setGen_pool (g : Nat) (e : Gen) : (setGen s g e).pool = s.pool := rfl
@[simp] theorem setGen_genOrder (g : Nat) (e : Gen) : (setGen s g e).genOrder = s.genOrder := rfl
@[simp] theorem setGen_flags (g : Nat) (e : Gen) : (setGen s g e).flags = s.flags := rfl
@[simp] theorem setGen_held (g : Nat) (e : Gen) : (setGen s g e).held = s.held := rfl
@[simp] theorem setGen_fwl (g : Nat) (e : Gen) : (setGen s g e).fwl = s.fwl := rfl
@[simp] theorem setGen_units (g : Nat) (e : Gen) : (setGen s g e).units = s.units := rfl
@[simp] theorem setGen_diary (g : Nat) (e : Gen) : (setGen s g e).diary = s.diary := rfl
@[simp] theorem setGen_firm (g : Nat) (e : Gen) : (setGen s g e).firm = s.firm := rfl
@[simp] theorem setGen_health (g : Nat) (e : Gen) : (setGen s g e).health = s.health := rfl
@[simp] theorem setGen_boxes (g : Nat) (e : Gen) : (setGen s g e).boxes = s.boxes := rfl
@[simp] theorem setGen_power (g : Nat) (e : Gen) : (setGen s g e).power = s.power := rfl
@[simp] theorem setGen_vigil (g : Nat) (e : Gen) : (setGen s g e).vigil = s.vigil := rfl
@[simp] theorem setGen_clock (g : Nat) (e : Gen) : (setGen s g e).clock = s.clock := rfl
@[simp] theorem setGen_cls (g : Nat) (e : Gen) : (setGen s g e).cls = s.cls := rfl
@[simp] theorem setGen_pins (g : Nat) (e : Gen) : (setGen s g e).pins = s.pins := rfl
@[simp] theorem setGen_fld (g : Nat) (e : Gen) : (setGen s g e).fld = s.fld := rfl
@[simp] theorem setGen_hif (g : Nat) (e : Gen) : (setGen s g e).hif = s.hif := rfl
@[simp] theorem setGen_graphs (g : Nat) (e : Gen) : (setGen s g e).graphs = s.graphs := rfl
@[simp] theorem setGen_seqs (g : Nat) (e : Gen) : (setGen s g e).seqs = s.seqs := rfl
@[simp] theorem setGen_ctxs (g : Nat) (e : Gen) : (setGen s g e).ctxs = s.ctxs := rfl
@[simp] theorem setGen_banks (g : Nat) (e : Gen) : (setGen s g e).banks = s.banks := rfl
@[simp] theorem setGen_sched (g : Nat) (e : Gen) : (setGen s g e).sched = s.sched := rfl
@[simp] theorem setGen_ptags (g : Nat) (e : Gen) : (setGen s g e).ptags = s.ptags := rfl
@[simp] theorem setGen_nstat (g : Nat) (e : Gen) : (setGen s g e).nstat = s.nstat := rfl
@[simp] theorem setGen_dmaHalt (g : Nat) (e : Gen) : (setGen s g e).dmaHalt = s.dmaHalt := rfl
@[simp] theorem setGen_dmaLatch (g : Nat) (e : Gen) : (setGen s g e).dmaLatch = s.dmaLatch := rfl
@[simp] theorem setGen_dmaLast (g : Nat) (e : Gen) : (setGen s g e).dmaLast = s.dmaLast := rfl
@[simp] theorem setGen_memBad (g : Nat) (e : Gen) : (setGen s g e).memBad = s.memBad := rfl
@[simp] theorem setGen_hostReads (g : Nat) (e : Gen) : (setGen s g e).hostReads = s.hostReads := rfl
@[simp] theorem setGen_flowWait (g : Nat) (e : Gen) : (setGen s g e).flowWait = s.flowWait := rfl
@[simp] theorem setGen_admits (g : Nat) (e : Gen) : (setGen s g e).admits = s.admits := rfl
@[simp] theorem setGen_resident (g : Nat) (e : Gen) : (setGen s g e).resident = s.resident := rfl
@[simp] theorem setGen_pipes (g : Nat) (e : Gen) : (setGen s g e).pipes = s.pipes := rfl
@[simp] theorem setGen_fsync (g : Nat) (e : Gen) : (setGen s g e).fsync = s.fsync := rfl
@[simp] theorem setGen_ibi (g : Nat) (e : Gen) : (setGen s g e).ibi = s.ibi := rfl
@[simp] theorem setGen_scm (g : Nat) (e : Gen) : (setGen s g e).scm = s.scm := rfl
@[simp] theorem setGen_chk (g : Nat) (e : Gen) : (setGen s g e).chk = s.chk := rfl
@[simp] theorem setGen_cdc (g : Nat) (e : Gen) : (setGen s g e).cdc = s.cdc := rfl
@[simp] theorem setGen_tcs (g : Nat) (e : Gen) : (setGen s g e).tcs = s.tcs := rfl
@[simp] theorem setGen_tables (g : Nat) (e : Gen) : (setGen s g e).tables = s.tables := rfl
@[simp] theorem setGen_gthPairs (g : Nat) (e : Gen) : (setGen s g e).gthPairs = s.gthPairs := rfl
@[simp] theorem setGen_gthBusy (g : Nat) (e : Gen) : (setGen s g e).gthBusy = s.gthBusy := rfl
@[simp] theorem setGen_gthAhead (g : Nat) (e : Gen) : (setGen s g e).gthAhead = s.gthAhead := rfl
@[simp] theorem setGen_uses (g : Nat) (e : Gen) : (setGen s g e).uses = s.uses := rfl
@[simp] theorem setGen_out (g : Nat) (e : Gen) : (setGen s g e).out = s.out := rfl

@[simp] theorem setTag_pending (p g : Nat) : (setTag s p g).pending = s.pending := rfl
@[simp] theorem setTag_time (p g : Nat) : (setTag s p g).time = s.time := rfl
@[simp] theorem setTag_regs (p g : Nat) : (setTag s p g).regs = s.regs := rfl
@[simp] theorem setTag_mem (p g : Nat) : (setTag s p g).mem = s.mem := rfl
@[simp] theorem setTag_somEve (p g : Nat) : (setTag s p g).somEve = s.somEve := rfl
@[simp] theorem setTag_queues (p g : Nat) : (setTag s p g).queues = s.queues := rfl
@[simp] theorem setTag_pool (p g : Nat) : (setTag s p g).pool = s.pool := rfl
@[simp] theorem setTag_gens (p g : Nat) : (setTag s p g).gens = s.gens := rfl
@[simp] theorem setTag_genOrder (p g : Nat) : (setTag s p g).genOrder = s.genOrder := rfl
@[simp] theorem setTag_flags (p g : Nat) : (setTag s p g).flags = s.flags := rfl
@[simp] theorem setTag_held (p g : Nat) : (setTag s p g).held = s.held := rfl
@[simp] theorem setTag_fwl (p g : Nat) : (setTag s p g).fwl = s.fwl := rfl
@[simp] theorem setTag_units (p g : Nat) : (setTag s p g).units = s.units := rfl
@[simp] theorem setTag_diary (p g : Nat) : (setTag s p g).diary = s.diary := rfl
@[simp] theorem setTag_firm (p g : Nat) : (setTag s p g).firm = s.firm := rfl
@[simp] theorem setTag_health (p g : Nat) : (setTag s p g).health = s.health := rfl
@[simp] theorem setTag_boxes (p g : Nat) : (setTag s p g).boxes = s.boxes := rfl
@[simp] theorem setTag_power (p g : Nat) : (setTag s p g).power = s.power := rfl
@[simp] theorem setTag_vigil (p g : Nat) : (setTag s p g).vigil = s.vigil := rfl
@[simp] theorem setTag_clock (p g : Nat) : (setTag s p g).clock = s.clock := rfl
@[simp] theorem setTag_cls (p g : Nat) : (setTag s p g).cls = s.cls := rfl
@[simp] theorem setTag_pins (p g : Nat) : (setTag s p g).pins = s.pins := rfl
@[simp] theorem setTag_fld (p g : Nat) : (setTag s p g).fld = s.fld := rfl
@[simp] theorem setTag_hif (p g : Nat) : (setTag s p g).hif = s.hif := rfl
@[simp] theorem setTag_graphs (p g : Nat) : (setTag s p g).graphs = s.graphs := rfl
@[simp] theorem setTag_seqs (p g : Nat) : (setTag s p g).seqs = s.seqs := rfl
@[simp] theorem setTag_ctxs (p g : Nat) : (setTag s p g).ctxs = s.ctxs := rfl
@[simp] theorem setTag_banks (p g : Nat) : (setTag s p g).banks = s.banks := rfl
@[simp] theorem setTag_sched (p g : Nat) : (setTag s p g).sched = s.sched := rfl
@[simp] theorem setTag_ptags (p g : Nat) : (setTag s p g).ptags = s.ptags := rfl
@[simp] theorem setTag_nstat (p g : Nat) : (setTag s p g).nstat = s.nstat := rfl
@[simp] theorem setTag_dmaHalt (p g : Nat) : (setTag s p g).dmaHalt = s.dmaHalt := rfl
@[simp] theorem setTag_dmaLatch (p g : Nat) : (setTag s p g).dmaLatch = s.dmaLatch := rfl
@[simp] theorem setTag_dmaLast (p g : Nat) : (setTag s p g).dmaLast = s.dmaLast := rfl
@[simp] theorem setTag_memBad (p g : Nat) : (setTag s p g).memBad = s.memBad := rfl
@[simp] theorem setTag_hostReads (p g : Nat) : (setTag s p g).hostReads = s.hostReads := rfl
@[simp] theorem setTag_flowWait (p g : Nat) : (setTag s p g).flowWait = s.flowWait := rfl
@[simp] theorem setTag_admits (p g : Nat) : (setTag s p g).admits = s.admits := rfl
@[simp] theorem setTag_resident (p g : Nat) : (setTag s p g).resident = s.resident := rfl
@[simp] theorem setTag_pipes (p g : Nat) : (setTag s p g).pipes = s.pipes := rfl
@[simp] theorem setTag_fsync (p g : Nat) : (setTag s p g).fsync = s.fsync := rfl
@[simp] theorem setTag_ibi (p g : Nat) : (setTag s p g).ibi = s.ibi := rfl
@[simp] theorem setTag_scm (p g : Nat) : (setTag s p g).scm = s.scm := rfl
@[simp] theorem setTag_chk (p g : Nat) : (setTag s p g).chk = s.chk := rfl
@[simp] theorem setTag_cdc (p g : Nat) : (setTag s p g).cdc = s.cdc := rfl
@[simp] theorem setTag_tcs (p g : Nat) : (setTag s p g).tcs = s.tcs := rfl
@[simp] theorem setTag_tables (p g : Nat) : (setTag s p g).tables = s.tables := rfl
@[simp] theorem setTag_gthPairs (p g : Nat) : (setTag s p g).gthPairs = s.gthPairs := rfl
@[simp] theorem setTag_gthBusy (p g : Nat) : (setTag s p g).gthBusy = s.gthBusy := rfl
@[simp] theorem setTag_gthAhead (p g : Nat) : (setTag s p g).gthAhead = s.gthAhead := rfl
@[simp] theorem setTag_uses (p g : Nat) : (setTag s p g).uses = s.uses := rfl
@[simp] theorem setTag_out (p g : Nat) : (setTag s p g).out = s.out := rfl

@[simp] theorem setQ_pending (q : Nat) (x : Queue) : (setQ s q x).pending = s.pending := rfl
@[simp] theorem setQ_time (q : Nat) (x : Queue) : (setQ s q x).time = s.time := rfl
@[simp] theorem setQ_regs (q : Nat) (x : Queue) : (setQ s q x).regs = s.regs := rfl
@[simp] theorem setQ_mem (q : Nat) (x : Queue) : (setQ s q x).mem = s.mem := rfl
@[simp] theorem setQ_tags (q : Nat) (x : Queue) : (setQ s q x).tags = s.tags := rfl
@[simp] theorem setQ_somEve (q : Nat) (x : Queue) : (setQ s q x).somEve = s.somEve := rfl
@[simp] theorem setQ_pool (q : Nat) (x : Queue) : (setQ s q x).pool = s.pool := rfl
@[simp] theorem setQ_gens (q : Nat) (x : Queue) : (setQ s q x).gens = s.gens := rfl
@[simp] theorem setQ_genOrder (q : Nat) (x : Queue) : (setQ s q x).genOrder = s.genOrder := rfl
@[simp] theorem setQ_flags (q : Nat) (x : Queue) : (setQ s q x).flags = s.flags := rfl
@[simp] theorem setQ_held (q : Nat) (x : Queue) : (setQ s q x).held = s.held := rfl
@[simp] theorem setQ_fwl (q : Nat) (x : Queue) : (setQ s q x).fwl = s.fwl := rfl
@[simp] theorem setQ_units (q : Nat) (x : Queue) : (setQ s q x).units = s.units := rfl
@[simp] theorem setQ_diary (q : Nat) (x : Queue) : (setQ s q x).diary = s.diary := rfl
@[simp] theorem setQ_firm (q : Nat) (x : Queue) : (setQ s q x).firm = s.firm := rfl
@[simp] theorem setQ_health (q : Nat) (x : Queue) : (setQ s q x).health = s.health := rfl
@[simp] theorem setQ_boxes (q : Nat) (x : Queue) : (setQ s q x).boxes = s.boxes := rfl
@[simp] theorem setQ_power (q : Nat) (x : Queue) : (setQ s q x).power = s.power := rfl
@[simp] theorem setQ_vigil (q : Nat) (x : Queue) : (setQ s q x).vigil = s.vigil := rfl
@[simp] theorem setQ_clock (q : Nat) (x : Queue) : (setQ s q x).clock = s.clock := rfl
@[simp] theorem setQ_cls (q : Nat) (x : Queue) : (setQ s q x).cls = s.cls := rfl
@[simp] theorem setQ_pins (q : Nat) (x : Queue) : (setQ s q x).pins = s.pins := rfl
@[simp] theorem setQ_fld (q : Nat) (x : Queue) : (setQ s q x).fld = s.fld := rfl
@[simp] theorem setQ_hif (q : Nat) (x : Queue) : (setQ s q x).hif = s.hif := rfl
@[simp] theorem setQ_graphs (q : Nat) (x : Queue) : (setQ s q x).graphs = s.graphs := rfl
@[simp] theorem setQ_seqs (q : Nat) (x : Queue) : (setQ s q x).seqs = s.seqs := rfl
@[simp] theorem setQ_ctxs (q : Nat) (x : Queue) : (setQ s q x).ctxs = s.ctxs := rfl
@[simp] theorem setQ_banks (q : Nat) (x : Queue) : (setQ s q x).banks = s.banks := rfl
@[simp] theorem setQ_sched (q : Nat) (x : Queue) : (setQ s q x).sched = s.sched := rfl
@[simp] theorem setQ_ptags (q : Nat) (x : Queue) : (setQ s q x).ptags = s.ptags := rfl
@[simp] theorem setQ_nstat (q : Nat) (x : Queue) : (setQ s q x).nstat = s.nstat := rfl
@[simp] theorem setQ_dmaHalt (q : Nat) (x : Queue) : (setQ s q x).dmaHalt = s.dmaHalt := rfl
@[simp] theorem setQ_dmaLatch (q : Nat) (x : Queue) : (setQ s q x).dmaLatch = s.dmaLatch := rfl
@[simp] theorem setQ_dmaLast (q : Nat) (x : Queue) : (setQ s q x).dmaLast = s.dmaLast := rfl
@[simp] theorem setQ_memBad (q : Nat) (x : Queue) : (setQ s q x).memBad = s.memBad := rfl
@[simp] theorem setQ_hostReads (q : Nat) (x : Queue) : (setQ s q x).hostReads = s.hostReads := rfl
@[simp] theorem setQ_flowWait (q : Nat) (x : Queue) : (setQ s q x).flowWait = s.flowWait := rfl
@[simp] theorem setQ_admits (q : Nat) (x : Queue) : (setQ s q x).admits = s.admits := rfl
@[simp] theorem setQ_resident (q : Nat) (x : Queue) : (setQ s q x).resident = s.resident := rfl
@[simp] theorem setQ_pipes (q : Nat) (x : Queue) : (setQ s q x).pipes = s.pipes := rfl
@[simp] theorem setQ_fsync (q : Nat) (x : Queue) : (setQ s q x).fsync = s.fsync := rfl
@[simp] theorem setQ_ibi (q : Nat) (x : Queue) : (setQ s q x).ibi = s.ibi := rfl
@[simp] theorem setQ_scm (q : Nat) (x : Queue) : (setQ s q x).scm = s.scm := rfl
@[simp] theorem setQ_chk (q : Nat) (x : Queue) : (setQ s q x).chk = s.chk := rfl
@[simp] theorem setQ_cdc (q : Nat) (x : Queue) : (setQ s q x).cdc = s.cdc := rfl
@[simp] theorem setQ_tcs (q : Nat) (x : Queue) : (setQ s q x).tcs = s.tcs := rfl
@[simp] theorem setQ_tables (q : Nat) (x : Queue) : (setQ s q x).tables = s.tables := rfl
@[simp] theorem setQ_gthPairs (q : Nat) (x : Queue) : (setQ s q x).gthPairs = s.gthPairs := rfl
@[simp] theorem setQ_gthBusy (q : Nat) (x : Queue) : (setQ s q x).gthBusy = s.gthBusy := rfl
@[simp] theorem setQ_gthAhead (q : Nat) (x : Queue) : (setQ s q x).gthAhead = s.gthAhead := rfl
@[simp] theorem setQ_uses (q : Nat) (x : Queue) : (setQ s q x).uses = s.uses := rfl
@[simp] theorem setQ_out (q : Nat) (x : Queue) : (setQ s q x).out = s.out := rfl

@[simp] theorem setSeq_pending (n : Nat) (q : Seq) : (setSeq s n q).pending = s.pending := rfl
@[simp] theorem setSeq_time (n : Nat) (q : Seq) : (setSeq s n q).time = s.time := rfl
@[simp] theorem setSeq_regs (n : Nat) (q : Seq) : (setSeq s n q).regs = s.regs := rfl
@[simp] theorem setSeq_mem (n : Nat) (q : Seq) : (setSeq s n q).mem = s.mem := rfl
@[simp] theorem setSeq_tags (n : Nat) (q : Seq) : (setSeq s n q).tags = s.tags := rfl
@[simp] theorem setSeq_somEve (n : Nat) (q : Seq) : (setSeq s n q).somEve = s.somEve := rfl
@[simp] theorem setSeq_queues (n : Nat) (q : Seq) : (setSeq s n q).queues = s.queues := rfl
@[simp] theorem setSeq_pool (n : Nat) (q : Seq) : (setSeq s n q).pool = s.pool := rfl
@[simp] theorem setSeq_gens (n : Nat) (q : Seq) : (setSeq s n q).gens = s.gens := rfl
@[simp] theorem setSeq_genOrder (n : Nat) (q : Seq) : (setSeq s n q).genOrder = s.genOrder := rfl
@[simp] theorem setSeq_flags (n : Nat) (q : Seq) : (setSeq s n q).flags = s.flags := rfl
@[simp] theorem setSeq_held (n : Nat) (q : Seq) : (setSeq s n q).held = s.held := rfl
@[simp] theorem setSeq_fwl (n : Nat) (q : Seq) : (setSeq s n q).fwl = s.fwl := rfl
@[simp] theorem setSeq_units (n : Nat) (q : Seq) : (setSeq s n q).units = s.units := rfl
@[simp] theorem setSeq_diary (n : Nat) (q : Seq) : (setSeq s n q).diary = s.diary := rfl
@[simp] theorem setSeq_firm (n : Nat) (q : Seq) : (setSeq s n q).firm = s.firm := rfl
@[simp] theorem setSeq_health (n : Nat) (q : Seq) : (setSeq s n q).health = s.health := rfl
@[simp] theorem setSeq_boxes (n : Nat) (q : Seq) : (setSeq s n q).boxes = s.boxes := rfl
@[simp] theorem setSeq_power (n : Nat) (q : Seq) : (setSeq s n q).power = s.power := rfl
@[simp] theorem setSeq_vigil (n : Nat) (q : Seq) : (setSeq s n q).vigil = s.vigil := rfl
@[simp] theorem setSeq_clock (n : Nat) (q : Seq) : (setSeq s n q).clock = s.clock := rfl
@[simp] theorem setSeq_cls (n : Nat) (q : Seq) : (setSeq s n q).cls = s.cls := rfl
@[simp] theorem setSeq_pins (n : Nat) (q : Seq) : (setSeq s n q).pins = s.pins := rfl
@[simp] theorem setSeq_fld (n : Nat) (q : Seq) : (setSeq s n q).fld = s.fld := rfl
@[simp] theorem setSeq_hif (n : Nat) (q : Seq) : (setSeq s n q).hif = s.hif := rfl
@[simp] theorem setSeq_graphs (n : Nat) (q : Seq) : (setSeq s n q).graphs = s.graphs := rfl
@[simp] theorem setSeq_ctxs (n : Nat) (q : Seq) : (setSeq s n q).ctxs = s.ctxs := rfl
@[simp] theorem setSeq_banks (n : Nat) (q : Seq) : (setSeq s n q).banks = s.banks := rfl
@[simp] theorem setSeq_sched (n : Nat) (q : Seq) : (setSeq s n q).sched = s.sched := rfl
@[simp] theorem setSeq_ptags (n : Nat) (q : Seq) : (setSeq s n q).ptags = s.ptags := rfl
@[simp] theorem setSeq_nstat (n : Nat) (q : Seq) : (setSeq s n q).nstat = s.nstat := rfl
@[simp] theorem setSeq_dmaHalt (n : Nat) (q : Seq) : (setSeq s n q).dmaHalt = s.dmaHalt := rfl
@[simp] theorem setSeq_dmaLatch (n : Nat) (q : Seq) : (setSeq s n q).dmaLatch = s.dmaLatch := rfl
@[simp] theorem setSeq_dmaLast (n : Nat) (q : Seq) : (setSeq s n q).dmaLast = s.dmaLast := rfl
@[simp] theorem setSeq_memBad (n : Nat) (q : Seq) : (setSeq s n q).memBad = s.memBad := rfl
@[simp] theorem setSeq_hostReads (n : Nat) (q : Seq) : (setSeq s n q).hostReads = s.hostReads := rfl
@[simp] theorem setSeq_flowWait (n : Nat) (q : Seq) : (setSeq s n q).flowWait = s.flowWait := rfl
@[simp] theorem setSeq_admits (n : Nat) (q : Seq) : (setSeq s n q).admits = s.admits := rfl
@[simp] theorem setSeq_resident (n : Nat) (q : Seq) : (setSeq s n q).resident = s.resident := rfl
@[simp] theorem setSeq_pipes (n : Nat) (q : Seq) : (setSeq s n q).pipes = s.pipes := rfl
@[simp] theorem setSeq_fsync (n : Nat) (q : Seq) : (setSeq s n q).fsync = s.fsync := rfl
@[simp] theorem setSeq_ibi (n : Nat) (q : Seq) : (setSeq s n q).ibi = s.ibi := rfl
@[simp] theorem setSeq_scm (n : Nat) (q : Seq) : (setSeq s n q).scm = s.scm := rfl
@[simp] theorem setSeq_chk (n : Nat) (q : Seq) : (setSeq s n q).chk = s.chk := rfl
@[simp] theorem setSeq_cdc (n : Nat) (q : Seq) : (setSeq s n q).cdc = s.cdc := rfl
@[simp] theorem setSeq_tcs (n : Nat) (q : Seq) : (setSeq s n q).tcs = s.tcs := rfl
@[simp] theorem setSeq_tables (n : Nat) (q : Seq) : (setSeq s n q).tables = s.tables := rfl
@[simp] theorem setSeq_gthPairs (n : Nat) (q : Seq) : (setSeq s n q).gthPairs = s.gthPairs := rfl
@[simp] theorem setSeq_gthBusy (n : Nat) (q : Seq) : (setSeq s n q).gthBusy = s.gthBusy := rfl
@[simp] theorem setSeq_gthAhead (n : Nat) (q : Seq) : (setSeq s n q).gthAhead = s.gthAhead := rfl
@[simp] theorem setSeq_uses (n : Nat) (q : Seq) : (setSeq s n q).uses = s.uses := rfl
@[simp] theorem setSeq_out (n : Nat) (q : Seq) : (setSeq s n q).out = s.out := rfl

@[simp] theorem setSlot_pending (n i : Nat) (x : Slot) : (setSlot s n i x).pending = s.pending := rfl
@[simp] theorem setSlot_time (n i : Nat) (x : Slot) : (setSlot s n i x).time = s.time := rfl
@[simp] theorem setSlot_regs (n i : Nat) (x : Slot) : (setSlot s n i x).regs = s.regs := rfl
@[simp] theorem setSlot_mem (n i : Nat) (x : Slot) : (setSlot s n i x).mem = s.mem := rfl
@[simp] theorem setSlot_tags (n i : Nat) (x : Slot) : (setSlot s n i x).tags = s.tags := rfl
@[simp] theorem setSlot_somEve (n i : Nat) (x : Slot) : (setSlot s n i x).somEve = s.somEve := rfl
@[simp] theorem setSlot_queues (n i : Nat) (x : Slot) : (setSlot s n i x).queues = s.queues := rfl
@[simp] theorem setSlot_pool (n i : Nat) (x : Slot) : (setSlot s n i x).pool = s.pool := rfl
@[simp] theorem setSlot_gens (n i : Nat) (x : Slot) : (setSlot s n i x).gens = s.gens := rfl
@[simp] theorem setSlot_genOrder (n i : Nat) (x : Slot) : (setSlot s n i x).genOrder = s.genOrder := rfl
@[simp] theorem setSlot_flags (n i : Nat) (x : Slot) : (setSlot s n i x).flags = s.flags := rfl
@[simp] theorem setSlot_held (n i : Nat) (x : Slot) : (setSlot s n i x).held = s.held := rfl
@[simp] theorem setSlot_fwl (n i : Nat) (x : Slot) : (setSlot s n i x).fwl = s.fwl := rfl
@[simp] theorem setSlot_units (n i : Nat) (x : Slot) : (setSlot s n i x).units = s.units := rfl
@[simp] theorem setSlot_diary (n i : Nat) (x : Slot) : (setSlot s n i x).diary = s.diary := rfl
@[simp] theorem setSlot_firm (n i : Nat) (x : Slot) : (setSlot s n i x).firm = s.firm := rfl
@[simp] theorem setSlot_health (n i : Nat) (x : Slot) : (setSlot s n i x).health = s.health := rfl
@[simp] theorem setSlot_boxes (n i : Nat) (x : Slot) : (setSlot s n i x).boxes = s.boxes := rfl
@[simp] theorem setSlot_power (n i : Nat) (x : Slot) : (setSlot s n i x).power = s.power := rfl
@[simp] theorem setSlot_vigil (n i : Nat) (x : Slot) : (setSlot s n i x).vigil = s.vigil := rfl
@[simp] theorem setSlot_clock (n i : Nat) (x : Slot) : (setSlot s n i x).clock = s.clock := rfl
@[simp] theorem setSlot_cls (n i : Nat) (x : Slot) : (setSlot s n i x).cls = s.cls := rfl
@[simp] theorem setSlot_pins (n i : Nat) (x : Slot) : (setSlot s n i x).pins = s.pins := rfl
@[simp] theorem setSlot_fld (n i : Nat) (x : Slot) : (setSlot s n i x).fld = s.fld := rfl
@[simp] theorem setSlot_hif (n i : Nat) (x : Slot) : (setSlot s n i x).hif = s.hif := rfl
@[simp] theorem setSlot_graphs (n i : Nat) (x : Slot) : (setSlot s n i x).graphs = s.graphs := rfl
@[simp] theorem setSlot_ctxs (n i : Nat) (x : Slot) : (setSlot s n i x).ctxs = s.ctxs := rfl
@[simp] theorem setSlot_banks (n i : Nat) (x : Slot) : (setSlot s n i x).banks = s.banks := rfl
@[simp] theorem setSlot_sched (n i : Nat) (x : Slot) : (setSlot s n i x).sched = s.sched := rfl
@[simp] theorem setSlot_ptags (n i : Nat) (x : Slot) : (setSlot s n i x).ptags = s.ptags := rfl
@[simp] theorem setSlot_nstat (n i : Nat) (x : Slot) : (setSlot s n i x).nstat = s.nstat := rfl
@[simp] theorem setSlot_dmaHalt (n i : Nat) (x : Slot) : (setSlot s n i x).dmaHalt = s.dmaHalt := rfl
@[simp] theorem setSlot_dmaLatch (n i : Nat) (x : Slot) : (setSlot s n i x).dmaLatch = s.dmaLatch := rfl
@[simp] theorem setSlot_dmaLast (n i : Nat) (x : Slot) : (setSlot s n i x).dmaLast = s.dmaLast := rfl
@[simp] theorem setSlot_memBad (n i : Nat) (x : Slot) : (setSlot s n i x).memBad = s.memBad := rfl
@[simp] theorem setSlot_hostReads (n i : Nat) (x : Slot) : (setSlot s n i x).hostReads = s.hostReads := rfl
@[simp] theorem setSlot_flowWait (n i : Nat) (x : Slot) : (setSlot s n i x).flowWait = s.flowWait := rfl
@[simp] theorem setSlot_admits (n i : Nat) (x : Slot) : (setSlot s n i x).admits = s.admits := rfl
@[simp] theorem setSlot_resident (n i : Nat) (x : Slot) : (setSlot s n i x).resident = s.resident := rfl
@[simp] theorem setSlot_pipes (n i : Nat) (x : Slot) : (setSlot s n i x).pipes = s.pipes := rfl
@[simp] theorem setSlot_fsync (n i : Nat) (x : Slot) : (setSlot s n i x).fsync = s.fsync := rfl
@[simp] theorem setSlot_ibi (n i : Nat) (x : Slot) : (setSlot s n i x).ibi = s.ibi := rfl
@[simp] theorem setSlot_scm (n i : Nat) (x : Slot) : (setSlot s n i x).scm = s.scm := rfl
@[simp] theorem setSlot_chk (n i : Nat) (x : Slot) : (setSlot s n i x).chk = s.chk := rfl
@[simp] theorem setSlot_cdc (n i : Nat) (x : Slot) : (setSlot s n i x).cdc = s.cdc := rfl
@[simp] theorem setSlot_tcs (n i : Nat) (x : Slot) : (setSlot s n i x).tcs = s.tcs := rfl
@[simp] theorem setSlot_tables (n i : Nat) (x : Slot) : (setSlot s n i x).tables = s.tables := rfl
@[simp] theorem setSlot_gthPairs (n i : Nat) (x : Slot) : (setSlot s n i x).gthPairs = s.gthPairs := rfl
@[simp] theorem setSlot_gthBusy (n i : Nat) (x : Slot) : (setSlot s n i x).gthBusy = s.gthBusy := rfl
@[simp] theorem setSlot_gthAhead (n i : Nat) (x : Slot) : (setSlot s n i x).gthAhead = s.gthAhead := rfl
@[simp] theorem setSlot_uses (n i : Nat) (x : Slot) : (setSlot s n i x).uses = s.uses := rfl
@[simp] theorem setSlot_out (n i : Nat) (x : Slot) : (setSlot s n i x).out = s.out := rfl

@[simp] theorem setGraph_pending (n c : Nat) (g : Graph) : (setGraph s n c g).pending = s.pending := rfl
@[simp] theorem setGraph_time (n c : Nat) (g : Graph) : (setGraph s n c g).time = s.time := rfl
@[simp] theorem setGraph_regs (n c : Nat) (g : Graph) : (setGraph s n c g).regs = s.regs := rfl
@[simp] theorem setGraph_mem (n c : Nat) (g : Graph) : (setGraph s n c g).mem = s.mem := rfl
@[simp] theorem setGraph_tags (n c : Nat) (g : Graph) : (setGraph s n c g).tags = s.tags := rfl
@[simp] theorem setGraph_somEve (n c : Nat) (g : Graph) : (setGraph s n c g).somEve = s.somEve := rfl
@[simp] theorem setGraph_queues (n c : Nat) (g : Graph) : (setGraph s n c g).queues = s.queues := rfl
@[simp] theorem setGraph_pool (n c : Nat) (g : Graph) : (setGraph s n c g).pool = s.pool := rfl
@[simp] theorem setGraph_gens (n c : Nat) (g : Graph) : (setGraph s n c g).gens = s.gens := rfl
@[simp] theorem setGraph_genOrder (n c : Nat) (g : Graph) : (setGraph s n c g).genOrder = s.genOrder := rfl
@[simp] theorem setGraph_flags (n c : Nat) (g : Graph) : (setGraph s n c g).flags = s.flags := rfl
@[simp] theorem setGraph_held (n c : Nat) (g : Graph) : (setGraph s n c g).held = s.held := rfl
@[simp] theorem setGraph_fwl (n c : Nat) (g : Graph) : (setGraph s n c g).fwl = s.fwl := rfl
@[simp] theorem setGraph_units (n c : Nat) (g : Graph) : (setGraph s n c g).units = s.units := rfl
@[simp] theorem setGraph_diary (n c : Nat) (g : Graph) : (setGraph s n c g).diary = s.diary := rfl
@[simp] theorem setGraph_firm (n c : Nat) (g : Graph) : (setGraph s n c g).firm = s.firm := rfl
@[simp] theorem setGraph_health (n c : Nat) (g : Graph) : (setGraph s n c g).health = s.health := rfl
@[simp] theorem setGraph_boxes (n c : Nat) (g : Graph) : (setGraph s n c g).boxes = s.boxes := rfl
@[simp] theorem setGraph_power (n c : Nat) (g : Graph) : (setGraph s n c g).power = s.power := rfl
@[simp] theorem setGraph_vigil (n c : Nat) (g : Graph) : (setGraph s n c g).vigil = s.vigil := rfl
@[simp] theorem setGraph_clock (n c : Nat) (g : Graph) : (setGraph s n c g).clock = s.clock := rfl
@[simp] theorem setGraph_cls (n c : Nat) (g : Graph) : (setGraph s n c g).cls = s.cls := rfl
@[simp] theorem setGraph_pins (n c : Nat) (g : Graph) : (setGraph s n c g).pins = s.pins := rfl
@[simp] theorem setGraph_fld (n c : Nat) (g : Graph) : (setGraph s n c g).fld = s.fld := rfl
@[simp] theorem setGraph_hif (n c : Nat) (g : Graph) : (setGraph s n c g).hif = s.hif := rfl
@[simp] theorem setGraph_seqs (n c : Nat) (g : Graph) : (setGraph s n c g).seqs = s.seqs := rfl
@[simp] theorem setGraph_ctxs (n c : Nat) (g : Graph) : (setGraph s n c g).ctxs = s.ctxs := rfl
@[simp] theorem setGraph_banks (n c : Nat) (g : Graph) : (setGraph s n c g).banks = s.banks := rfl
@[simp] theorem setGraph_sched (n c : Nat) (g : Graph) : (setGraph s n c g).sched = s.sched := rfl
@[simp] theorem setGraph_ptags (n c : Nat) (g : Graph) : (setGraph s n c g).ptags = s.ptags := rfl
@[simp] theorem setGraph_nstat (n c : Nat) (g : Graph) : (setGraph s n c g).nstat = s.nstat := rfl
@[simp] theorem setGraph_dmaHalt (n c : Nat) (g : Graph) : (setGraph s n c g).dmaHalt = s.dmaHalt := rfl
@[simp] theorem setGraph_dmaLatch (n c : Nat) (g : Graph) : (setGraph s n c g).dmaLatch = s.dmaLatch := rfl
@[simp] theorem setGraph_dmaLast (n c : Nat) (g : Graph) : (setGraph s n c g).dmaLast = s.dmaLast := rfl
@[simp] theorem setGraph_memBad (n c : Nat) (g : Graph) : (setGraph s n c g).memBad = s.memBad := rfl
@[simp] theorem setGraph_hostReads (n c : Nat) (g : Graph) : (setGraph s n c g).hostReads = s.hostReads := rfl
@[simp] theorem setGraph_flowWait (n c : Nat) (g : Graph) : (setGraph s n c g).flowWait = s.flowWait := rfl
@[simp] theorem setGraph_admits (n c : Nat) (g : Graph) : (setGraph s n c g).admits = s.admits := rfl
@[simp] theorem setGraph_resident (n c : Nat) (g : Graph) : (setGraph s n c g).resident = s.resident := rfl
@[simp] theorem setGraph_pipes (n c : Nat) (g : Graph) : (setGraph s n c g).pipes = s.pipes := rfl
@[simp] theorem setGraph_fsync (n c : Nat) (g : Graph) : (setGraph s n c g).fsync = s.fsync := rfl
@[simp] theorem setGraph_ibi (n c : Nat) (g : Graph) : (setGraph s n c g).ibi = s.ibi := rfl
@[simp] theorem setGraph_scm (n c : Nat) (g : Graph) : (setGraph s n c g).scm = s.scm := rfl
@[simp] theorem setGraph_chk (n c : Nat) (g : Graph) : (setGraph s n c g).chk = s.chk := rfl
@[simp] theorem setGraph_cdc (n c : Nat) (g : Graph) : (setGraph s n c g).cdc = s.cdc := rfl
@[simp] theorem setGraph_tcs (n c : Nat) (g : Graph) : (setGraph s n c g).tcs = s.tcs := rfl
@[simp] theorem setGraph_tables (n c : Nat) (g : Graph) : (setGraph s n c g).tables = s.tables := rfl
@[simp] theorem setGraph_gthPairs (n c : Nat) (g : Graph) : (setGraph s n c g).gthPairs = s.gthPairs := rfl
@[simp] theorem setGraph_gthBusy (n c : Nat) (g : Graph) : (setGraph s n c g).gthBusy = s.gthBusy := rfl
@[simp] theorem setGraph_gthAhead (n c : Nat) (g : Graph) : (setGraph s n c g).gthAhead = s.gthAhead := rfl
@[simp] theorem setGraph_uses (n c : Nat) (g : Graph) : (setGraph s n c g).uses = s.uses := rfl
@[simp] theorem setGraph_out (n c : Nat) (g : Graph) : (setGraph s n c g).out = s.out := rfl

@[simp] theorem delGraph_pending (n c : Nat) : (delGraph s n c).pending = s.pending := rfl
@[simp] theorem delGraph_time (n c : Nat) : (delGraph s n c).time = s.time := rfl
@[simp] theorem delGraph_regs (n c : Nat) : (delGraph s n c).regs = s.regs := rfl
@[simp] theorem delGraph_mem (n c : Nat) : (delGraph s n c).mem = s.mem := rfl
@[simp] theorem delGraph_tags (n c : Nat) : (delGraph s n c).tags = s.tags := rfl
@[simp] theorem delGraph_somEve (n c : Nat) : (delGraph s n c).somEve = s.somEve := rfl
@[simp] theorem delGraph_queues (n c : Nat) : (delGraph s n c).queues = s.queues := rfl
@[simp] theorem delGraph_pool (n c : Nat) : (delGraph s n c).pool = s.pool := rfl
@[simp] theorem delGraph_gens (n c : Nat) : (delGraph s n c).gens = s.gens := rfl
@[simp] theorem delGraph_genOrder (n c : Nat) : (delGraph s n c).genOrder = s.genOrder := rfl
@[simp] theorem delGraph_flags (n c : Nat) : (delGraph s n c).flags = s.flags := rfl
@[simp] theorem delGraph_held (n c : Nat) : (delGraph s n c).held = s.held := rfl
@[simp] theorem delGraph_fwl (n c : Nat) : (delGraph s n c).fwl = s.fwl := rfl
@[simp] theorem delGraph_units (n c : Nat) : (delGraph s n c).units = s.units := rfl
@[simp] theorem delGraph_diary (n c : Nat) : (delGraph s n c).diary = s.diary := rfl
@[simp] theorem delGraph_firm (n c : Nat) : (delGraph s n c).firm = s.firm := rfl
@[simp] theorem delGraph_health (n c : Nat) : (delGraph s n c).health = s.health := rfl
@[simp] theorem delGraph_boxes (n c : Nat) : (delGraph s n c).boxes = s.boxes := rfl
@[simp] theorem delGraph_power (n c : Nat) : (delGraph s n c).power = s.power := rfl
@[simp] theorem delGraph_vigil (n c : Nat) : (delGraph s n c).vigil = s.vigil := rfl
@[simp] theorem delGraph_clock (n c : Nat) : (delGraph s n c).clock = s.clock := rfl
@[simp] theorem delGraph_cls (n c : Nat) : (delGraph s n c).cls = s.cls := rfl
@[simp] theorem delGraph_pins (n c : Nat) : (delGraph s n c).pins = s.pins := rfl
@[simp] theorem delGraph_fld (n c : Nat) : (delGraph s n c).fld = s.fld := rfl
@[simp] theorem delGraph_hif (n c : Nat) : (delGraph s n c).hif = s.hif := rfl
@[simp] theorem delGraph_seqs (n c : Nat) : (delGraph s n c).seqs = s.seqs := rfl
@[simp] theorem delGraph_ctxs (n c : Nat) : (delGraph s n c).ctxs = s.ctxs := rfl
@[simp] theorem delGraph_banks (n c : Nat) : (delGraph s n c).banks = s.banks := rfl
@[simp] theorem delGraph_sched (n c : Nat) : (delGraph s n c).sched = s.sched := rfl
@[simp] theorem delGraph_ptags (n c : Nat) : (delGraph s n c).ptags = s.ptags := rfl
@[simp] theorem delGraph_nstat (n c : Nat) : (delGraph s n c).nstat = s.nstat := rfl
@[simp] theorem delGraph_dmaHalt (n c : Nat) : (delGraph s n c).dmaHalt = s.dmaHalt := rfl
@[simp] theorem delGraph_dmaLatch (n c : Nat) : (delGraph s n c).dmaLatch = s.dmaLatch := rfl
@[simp] theorem delGraph_dmaLast (n c : Nat) : (delGraph s n c).dmaLast = s.dmaLast := rfl
@[simp] theorem delGraph_memBad (n c : Nat) : (delGraph s n c).memBad = s.memBad := rfl
@[simp] theorem delGraph_hostReads (n c : Nat) : (delGraph s n c).hostReads = s.hostReads := rfl
@[simp] theorem delGraph_flowWait (n c : Nat) : (delGraph s n c).flowWait = s.flowWait := rfl
@[simp] theorem delGraph_admits (n c : Nat) : (delGraph s n c).admits = s.admits := rfl
@[simp] theorem delGraph_resident (n c : Nat) : (delGraph s n c).resident = s.resident := rfl
@[simp] theorem delGraph_pipes (n c : Nat) : (delGraph s n c).pipes = s.pipes := rfl
@[simp] theorem delGraph_fsync (n c : Nat) : (delGraph s n c).fsync = s.fsync := rfl
@[simp] theorem delGraph_ibi (n c : Nat) : (delGraph s n c).ibi = s.ibi := rfl
@[simp] theorem delGraph_scm (n c : Nat) : (delGraph s n c).scm = s.scm := rfl
@[simp] theorem delGraph_chk (n c : Nat) : (delGraph s n c).chk = s.chk := rfl
@[simp] theorem delGraph_cdc (n c : Nat) : (delGraph s n c).cdc = s.cdc := rfl
@[simp] theorem delGraph_tcs (n c : Nat) : (delGraph s n c).tcs = s.tcs := rfl
@[simp] theorem delGraph_tables (n c : Nat) : (delGraph s n c).tables = s.tables := rfl
@[simp] theorem delGraph_gthPairs (n c : Nat) : (delGraph s n c).gthPairs = s.gthPairs := rfl
@[simp] theorem delGraph_gthBusy (n c : Nat) : (delGraph s n c).gthBusy = s.gthBusy := rfl
@[simp] theorem delGraph_gthAhead (n c : Nat) : (delGraph s n c).gthAhead = s.gthAhead := rfl
@[simp] theorem delGraph_uses (n c : Nat) : (delGraph s n c).uses = s.uses := rfl
@[simp] theorem delGraph_out (n c : Nat) : (delGraph s n c).out = s.out := rfl

@[simp] theorem setCtx_pending (n c : Nat) (x : Ctx) : (setCtx s n c x).pending = s.pending := rfl
@[simp] theorem setCtx_time (n c : Nat) (x : Ctx) : (setCtx s n c x).time = s.time := rfl
@[simp] theorem setCtx_regs (n c : Nat) (x : Ctx) : (setCtx s n c x).regs = s.regs := rfl
@[simp] theorem setCtx_mem (n c : Nat) (x : Ctx) : (setCtx s n c x).mem = s.mem := rfl
@[simp] theorem setCtx_tags (n c : Nat) (x : Ctx) : (setCtx s n c x).tags = s.tags := rfl
@[simp] theorem setCtx_somEve (n c : Nat) (x : Ctx) : (setCtx s n c x).somEve = s.somEve := rfl
@[simp] theorem setCtx_queues (n c : Nat) (x : Ctx) : (setCtx s n c x).queues = s.queues := rfl
@[simp] theorem setCtx_pool (n c : Nat) (x : Ctx) : (setCtx s n c x).pool = s.pool := rfl
@[simp] theorem setCtx_gens (n c : Nat) (x : Ctx) : (setCtx s n c x).gens = s.gens := rfl
@[simp] theorem setCtx_genOrder (n c : Nat) (x : Ctx) : (setCtx s n c x).genOrder = s.genOrder := rfl
@[simp] theorem setCtx_flags (n c : Nat) (x : Ctx) : (setCtx s n c x).flags = s.flags := rfl
@[simp] theorem setCtx_held (n c : Nat) (x : Ctx) : (setCtx s n c x).held = s.held := rfl
@[simp] theorem setCtx_fwl (n c : Nat) (x : Ctx) : (setCtx s n c x).fwl = s.fwl := rfl
@[simp] theorem setCtx_units (n c : Nat) (x : Ctx) : (setCtx s n c x).units = s.units := rfl
@[simp] theorem setCtx_diary (n c : Nat) (x : Ctx) : (setCtx s n c x).diary = s.diary := rfl
@[simp] theorem setCtx_firm (n c : Nat) (x : Ctx) : (setCtx s n c x).firm = s.firm := rfl
@[simp] theorem setCtx_health (n c : Nat) (x : Ctx) : (setCtx s n c x).health = s.health := rfl
@[simp] theorem setCtx_boxes (n c : Nat) (x : Ctx) : (setCtx s n c x).boxes = s.boxes := rfl
@[simp] theorem setCtx_power (n c : Nat) (x : Ctx) : (setCtx s n c x).power = s.power := rfl
@[simp] theorem setCtx_vigil (n c : Nat) (x : Ctx) : (setCtx s n c x).vigil = s.vigil := rfl
@[simp] theorem setCtx_clock (n c : Nat) (x : Ctx) : (setCtx s n c x).clock = s.clock := rfl
@[simp] theorem setCtx_cls (n c : Nat) (x : Ctx) : (setCtx s n c x).cls = s.cls := rfl
@[simp] theorem setCtx_pins (n c : Nat) (x : Ctx) : (setCtx s n c x).pins = s.pins := rfl
@[simp] theorem setCtx_fld (n c : Nat) (x : Ctx) : (setCtx s n c x).fld = s.fld := rfl
@[simp] theorem setCtx_hif (n c : Nat) (x : Ctx) : (setCtx s n c x).hif = s.hif := rfl
@[simp] theorem setCtx_graphs (n c : Nat) (x : Ctx) : (setCtx s n c x).graphs = s.graphs := rfl
@[simp] theorem setCtx_seqs (n c : Nat) (x : Ctx) : (setCtx s n c x).seqs = s.seqs := rfl
@[simp] theorem setCtx_banks (n c : Nat) (x : Ctx) : (setCtx s n c x).banks = s.banks := rfl
@[simp] theorem setCtx_sched (n c : Nat) (x : Ctx) : (setCtx s n c x).sched = s.sched := rfl
@[simp] theorem setCtx_ptags (n c : Nat) (x : Ctx) : (setCtx s n c x).ptags = s.ptags := rfl
@[simp] theorem setCtx_nstat (n c : Nat) (x : Ctx) : (setCtx s n c x).nstat = s.nstat := rfl
@[simp] theorem setCtx_dmaHalt (n c : Nat) (x : Ctx) : (setCtx s n c x).dmaHalt = s.dmaHalt := rfl
@[simp] theorem setCtx_dmaLatch (n c : Nat) (x : Ctx) : (setCtx s n c x).dmaLatch = s.dmaLatch := rfl
@[simp] theorem setCtx_dmaLast (n c : Nat) (x : Ctx) : (setCtx s n c x).dmaLast = s.dmaLast := rfl
@[simp] theorem setCtx_memBad (n c : Nat) (x : Ctx) : (setCtx s n c x).memBad = s.memBad := rfl
@[simp] theorem setCtx_hostReads (n c : Nat) (x : Ctx) : (setCtx s n c x).hostReads = s.hostReads := rfl
@[simp] theorem setCtx_flowWait (n c : Nat) (x : Ctx) : (setCtx s n c x).flowWait = s.flowWait := rfl
@[simp] theorem setCtx_admits (n c : Nat) (x : Ctx) : (setCtx s n c x).admits = s.admits := rfl
@[simp] theorem setCtx_resident (n c : Nat) (x : Ctx) : (setCtx s n c x).resident = s.resident := rfl
@[simp] theorem setCtx_pipes (n c : Nat) (x : Ctx) : (setCtx s n c x).pipes = s.pipes := rfl
@[simp] theorem setCtx_fsync (n c : Nat) (x : Ctx) : (setCtx s n c x).fsync = s.fsync := rfl
@[simp] theorem setCtx_ibi (n c : Nat) (x : Ctx) : (setCtx s n c x).ibi = s.ibi := rfl
@[simp] theorem setCtx_scm (n c : Nat) (x : Ctx) : (setCtx s n c x).scm = s.scm := rfl
@[simp] theorem setCtx_chk (n c : Nat) (x : Ctx) : (setCtx s n c x).chk = s.chk := rfl
@[simp] theorem setCtx_cdc (n c : Nat) (x : Ctx) : (setCtx s n c x).cdc = s.cdc := rfl
@[simp] theorem setCtx_tcs (n c : Nat) (x : Ctx) : (setCtx s n c x).tcs = s.tcs := rfl
@[simp] theorem setCtx_tables (n c : Nat) (x : Ctx) : (setCtx s n c x).tables = s.tables := rfl
@[simp] theorem setCtx_gthPairs (n c : Nat) (x : Ctx) : (setCtx s n c x).gthPairs = s.gthPairs := rfl
@[simp] theorem setCtx_gthBusy (n c : Nat) (x : Ctx) : (setCtx s n c x).gthBusy = s.gthBusy := rfl
@[simp] theorem setCtx_gthAhead (n c : Nat) (x : Ctx) : (setCtx s n c x).gthAhead = s.gthAhead := rfl
@[simp] theorem setCtx_uses (n c : Nat) (x : Ctx) : (setCtx s n c x).uses = s.uses := rfl
@[simp] theorem setCtx_out (n c : Nat) (x : Ctx) : (setCtx s n c x).out = s.out := rfl

@[simp] theorem setFlag_pending (w : Nat) (f : FlagWord) : (setFlag s w f).pending = s.pending := rfl
@[simp] theorem setFlag_time (w : Nat) (f : FlagWord) : (setFlag s w f).time = s.time := rfl
@[simp] theorem setFlag_regs (w : Nat) (f : FlagWord) : (setFlag s w f).regs = s.regs := rfl
@[simp] theorem setFlag_mem (w : Nat) (f : FlagWord) : (setFlag s w f).mem = s.mem := rfl
@[simp] theorem setFlag_tags (w : Nat) (f : FlagWord) : (setFlag s w f).tags = s.tags := rfl
@[simp] theorem setFlag_somEve (w : Nat) (f : FlagWord) : (setFlag s w f).somEve = s.somEve := rfl
@[simp] theorem setFlag_queues (w : Nat) (f : FlagWord) : (setFlag s w f).queues = s.queues := rfl
@[simp] theorem setFlag_pool (w : Nat) (f : FlagWord) : (setFlag s w f).pool = s.pool := rfl
@[simp] theorem setFlag_gens (w : Nat) (f : FlagWord) : (setFlag s w f).gens = s.gens := rfl
@[simp] theorem setFlag_genOrder (w : Nat) (f : FlagWord) : (setFlag s w f).genOrder = s.genOrder := rfl
@[simp] theorem setFlag_held (w : Nat) (f : FlagWord) : (setFlag s w f).held = s.held := rfl
@[simp] theorem setFlag_fwl (w : Nat) (f : FlagWord) : (setFlag s w f).fwl = s.fwl := rfl
@[simp] theorem setFlag_units (w : Nat) (f : FlagWord) : (setFlag s w f).units = s.units := rfl
@[simp] theorem setFlag_diary (w : Nat) (f : FlagWord) : (setFlag s w f).diary = s.diary := rfl
@[simp] theorem setFlag_firm (w : Nat) (f : FlagWord) : (setFlag s w f).firm = s.firm := rfl
@[simp] theorem setFlag_health (w : Nat) (f : FlagWord) : (setFlag s w f).health = s.health := rfl
@[simp] theorem setFlag_boxes (w : Nat) (f : FlagWord) : (setFlag s w f).boxes = s.boxes := rfl
@[simp] theorem setFlag_power (w : Nat) (f : FlagWord) : (setFlag s w f).power = s.power := rfl
@[simp] theorem setFlag_vigil (w : Nat) (f : FlagWord) : (setFlag s w f).vigil = s.vigil := rfl
@[simp] theorem setFlag_clock (w : Nat) (f : FlagWord) : (setFlag s w f).clock = s.clock := rfl
@[simp] theorem setFlag_cls (w : Nat) (f : FlagWord) : (setFlag s w f).cls = s.cls := rfl
@[simp] theorem setFlag_pins (w : Nat) (f : FlagWord) : (setFlag s w f).pins = s.pins := rfl
@[simp] theorem setFlag_fld (w : Nat) (f : FlagWord) : (setFlag s w f).fld = s.fld := rfl
@[simp] theorem setFlag_hif (w : Nat) (f : FlagWord) : (setFlag s w f).hif = s.hif := rfl
@[simp] theorem setFlag_graphs (w : Nat) (f : FlagWord) : (setFlag s w f).graphs = s.graphs := rfl
@[simp] theorem setFlag_seqs (w : Nat) (f : FlagWord) : (setFlag s w f).seqs = s.seqs := rfl
@[simp] theorem setFlag_ctxs (w : Nat) (f : FlagWord) : (setFlag s w f).ctxs = s.ctxs := rfl
@[simp] theorem setFlag_banks (w : Nat) (f : FlagWord) : (setFlag s w f).banks = s.banks := rfl
@[simp] theorem setFlag_sched (w : Nat) (f : FlagWord) : (setFlag s w f).sched = s.sched := rfl
@[simp] theorem setFlag_ptags (w : Nat) (f : FlagWord) : (setFlag s w f).ptags = s.ptags := rfl
@[simp] theorem setFlag_nstat (w : Nat) (f : FlagWord) : (setFlag s w f).nstat = s.nstat := rfl
@[simp] theorem setFlag_dmaHalt (w : Nat) (f : FlagWord) : (setFlag s w f).dmaHalt = s.dmaHalt := rfl
@[simp] theorem setFlag_dmaLatch (w : Nat) (f : FlagWord) : (setFlag s w f).dmaLatch = s.dmaLatch := rfl
@[simp] theorem setFlag_dmaLast (w : Nat) (f : FlagWord) : (setFlag s w f).dmaLast = s.dmaLast := rfl
@[simp] theorem setFlag_memBad (w : Nat) (f : FlagWord) : (setFlag s w f).memBad = s.memBad := rfl
@[simp] theorem setFlag_hostReads (w : Nat) (f : FlagWord) : (setFlag s w f).hostReads = s.hostReads := rfl
@[simp] theorem setFlag_flowWait (w : Nat) (f : FlagWord) : (setFlag s w f).flowWait = s.flowWait := rfl
@[simp] theorem setFlag_admits (w : Nat) (f : FlagWord) : (setFlag s w f).admits = s.admits := rfl
@[simp] theorem setFlag_resident (w : Nat) (f : FlagWord) : (setFlag s w f).resident = s.resident := rfl
@[simp] theorem setFlag_pipes (w : Nat) (f : FlagWord) : (setFlag s w f).pipes = s.pipes := rfl
@[simp] theorem setFlag_fsync (w : Nat) (f : FlagWord) : (setFlag s w f).fsync = s.fsync := rfl
@[simp] theorem setFlag_ibi (w : Nat) (f : FlagWord) : (setFlag s w f).ibi = s.ibi := rfl
@[simp] theorem setFlag_scm (w : Nat) (f : FlagWord) : (setFlag s w f).scm = s.scm := rfl
@[simp] theorem setFlag_chk (w : Nat) (f : FlagWord) : (setFlag s w f).chk = s.chk := rfl
@[simp] theorem setFlag_cdc (w : Nat) (f : FlagWord) : (setFlag s w f).cdc = s.cdc := rfl
@[simp] theorem setFlag_tcs (w : Nat) (f : FlagWord) : (setFlag s w f).tcs = s.tcs := rfl
@[simp] theorem setFlag_tables (w : Nat) (f : FlagWord) : (setFlag s w f).tables = s.tables := rfl
@[simp] theorem setFlag_gthPairs (w : Nat) (f : FlagWord) : (setFlag s w f).gthPairs = s.gthPairs := rfl
@[simp] theorem setFlag_gthBusy (w : Nat) (f : FlagWord) : (setFlag s w f).gthBusy = s.gthBusy := rfl
@[simp] theorem setFlag_gthAhead (w : Nat) (f : FlagWord) : (setFlag s w f).gthAhead = s.gthAhead := rfl
@[simp] theorem setFlag_uses (w : Nat) (f : FlagWord) : (setFlag s w f).uses = s.uses := rfl
@[simp] theorem setFlag_out (w : Nat) (f : FlagWord) : (setFlag s w f).out = s.out := rfl

@[simp] theorem setTask_pending (e : Nat) (t : Task) : (setTask s e t).pending = s.pending := rfl
@[simp] theorem setTask_time (e : Nat) (t : Task) : (setTask s e t).time = s.time := rfl
@[simp] theorem setTask_regs (e : Nat) (t : Task) : (setTask s e t).regs = s.regs := rfl
@[simp] theorem setTask_mem (e : Nat) (t : Task) : (setTask s e t).mem = s.mem := rfl
@[simp] theorem setTask_tags (e : Nat) (t : Task) : (setTask s e t).tags = s.tags := rfl
@[simp] theorem setTask_somEve (e : Nat) (t : Task) : (setTask s e t).somEve = s.somEve := rfl
@[simp] theorem setTask_queues (e : Nat) (t : Task) : (setTask s e t).queues = s.queues := rfl
@[simp] theorem setTask_pool (e : Nat) (t : Task) : (setTask s e t).pool = s.pool := rfl
@[simp] theorem setTask_gens (e : Nat) (t : Task) : (setTask s e t).gens = s.gens := rfl
@[simp] theorem setTask_genOrder (e : Nat) (t : Task) : (setTask s e t).genOrder = s.genOrder := rfl
@[simp] theorem setTask_flags (e : Nat) (t : Task) : (setTask s e t).flags = s.flags := rfl
@[simp] theorem setTask_held (e : Nat) (t : Task) : (setTask s e t).held = s.held := rfl
@[simp] theorem setTask_fwl (e : Nat) (t : Task) : (setTask s e t).fwl = s.fwl := rfl
@[simp] theorem setTask_units (e : Nat) (t : Task) : (setTask s e t).units = s.units := rfl
@[simp] theorem setTask_diary (e : Nat) (t : Task) : (setTask s e t).diary = s.diary := rfl
@[simp] theorem setTask_firm (e : Nat) (t : Task) : (setTask s e t).firm = s.firm := rfl
@[simp] theorem setTask_health (e : Nat) (t : Task) : (setTask s e t).health = s.health := rfl
@[simp] theorem setTask_boxes (e : Nat) (t : Task) : (setTask s e t).boxes = s.boxes := rfl
@[simp] theorem setTask_power (e : Nat) (t : Task) : (setTask s e t).power = s.power := rfl
@[simp] theorem setTask_vigil (e : Nat) (t : Task) : (setTask s e t).vigil = s.vigil := rfl
@[simp] theorem setTask_clock (e : Nat) (t : Task) : (setTask s e t).clock = s.clock := rfl
@[simp] theorem setTask_cls (e : Nat) (t : Task) : (setTask s e t).cls = s.cls := rfl
@[simp] theorem setTask_pins (e : Nat) (t : Task) : (setTask s e t).pins = s.pins := rfl
@[simp] theorem setTask_fld (e : Nat) (t : Task) : (setTask s e t).fld = s.fld := rfl
@[simp] theorem setTask_hif (e : Nat) (t : Task) : (setTask s e t).hif = s.hif := rfl
@[simp] theorem setTask_graphs (e : Nat) (t : Task) : (setTask s e t).graphs = s.graphs := rfl
@[simp] theorem setTask_seqs (e : Nat) (t : Task) : (setTask s e t).seqs = s.seqs := rfl
@[simp] theorem setTask_ctxs (e : Nat) (t : Task) : (setTask s e t).ctxs = s.ctxs := rfl
@[simp] theorem setTask_banks (e : Nat) (t : Task) : (setTask s e t).banks = s.banks := rfl
@[simp] theorem setTask_ptags (e : Nat) (t : Task) : (setTask s e t).ptags = s.ptags := rfl
@[simp] theorem setTask_nstat (e : Nat) (t : Task) : (setTask s e t).nstat = s.nstat := rfl
@[simp] theorem setTask_dmaHalt (e : Nat) (t : Task) : (setTask s e t).dmaHalt = s.dmaHalt := rfl
@[simp] theorem setTask_dmaLatch (e : Nat) (t : Task) : (setTask s e t).dmaLatch = s.dmaLatch := rfl
@[simp] theorem setTask_dmaLast (e : Nat) (t : Task) : (setTask s e t).dmaLast = s.dmaLast := rfl
@[simp] theorem setTask_memBad (e : Nat) (t : Task) : (setTask s e t).memBad = s.memBad := rfl
@[simp] theorem setTask_hostReads (e : Nat) (t : Task) : (setTask s e t).hostReads = s.hostReads := rfl
@[simp] theorem setTask_flowWait (e : Nat) (t : Task) : (setTask s e t).flowWait = s.flowWait := rfl
@[simp] theorem setTask_admits (e : Nat) (t : Task) : (setTask s e t).admits = s.admits := rfl
@[simp] theorem setTask_resident (e : Nat) (t : Task) : (setTask s e t).resident = s.resident := rfl
@[simp] theorem setTask_pipes (e : Nat) (t : Task) : (setTask s e t).pipes = s.pipes := rfl
@[simp] theorem setTask_fsync (e : Nat) (t : Task) : (setTask s e t).fsync = s.fsync := rfl
@[simp] theorem setTask_ibi (e : Nat) (t : Task) : (setTask s e t).ibi = s.ibi := rfl
@[simp] theorem setTask_scm (e : Nat) (t : Task) : (setTask s e t).scm = s.scm := rfl
@[simp] theorem setTask_chk (e : Nat) (t : Task) : (setTask s e t).chk = s.chk := rfl
@[simp] theorem setTask_cdc (e : Nat) (t : Task) : (setTask s e t).cdc = s.cdc := rfl
@[simp] theorem setTask_tcs (e : Nat) (t : Task) : (setTask s e t).tcs = s.tcs := rfl
@[simp] theorem setTask_tables (e : Nat) (t : Task) : (setTask s e t).tables = s.tables := rfl
@[simp] theorem setTask_gthPairs (e : Nat) (t : Task) : (setTask s e t).gthPairs = s.gthPairs := rfl
@[simp] theorem setTask_gthBusy (e : Nat) (t : Task) : (setTask s e t).gthBusy = s.gthBusy := rfl
@[simp] theorem setTask_gthAhead (e : Nat) (t : Task) : (setTask s e t).gthAhead = s.gthAhead := rfl
@[simp] theorem setTask_uses (e : Nat) (t : Task) : (setTask s e t).uses = s.uses := rfl
@[simp] theorem setTask_out (e : Nat) (t : Task) : (setTask s e t).out = s.out := rfl

@[simp] theorem delTask_pending (e : Nat) : (delTask s e).pending = s.pending := rfl
@[simp] theorem delTask_time (e : Nat) : (delTask s e).time = s.time := rfl
@[simp] theorem delTask_regs (e : Nat) : (delTask s e).regs = s.regs := rfl
@[simp] theorem delTask_mem (e : Nat) : (delTask s e).mem = s.mem := rfl
@[simp] theorem delTask_tags (e : Nat) : (delTask s e).tags = s.tags := rfl
@[simp] theorem delTask_somEve (e : Nat) : (delTask s e).somEve = s.somEve := rfl
@[simp] theorem delTask_queues (e : Nat) : (delTask s e).queues = s.queues := rfl
@[simp] theorem delTask_pool (e : Nat) : (delTask s e).pool = s.pool := rfl
@[simp] theorem delTask_gens (e : Nat) : (delTask s e).gens = s.gens := rfl
@[simp] theorem delTask_genOrder (e : Nat) : (delTask s e).genOrder = s.genOrder := rfl
@[simp] theorem delTask_flags (e : Nat) : (delTask s e).flags = s.flags := rfl
@[simp] theorem delTask_held (e : Nat) : (delTask s e).held = s.held := rfl
@[simp] theorem delTask_fwl (e : Nat) : (delTask s e).fwl = s.fwl := rfl
@[simp] theorem delTask_units (e : Nat) : (delTask s e).units = s.units := rfl
@[simp] theorem delTask_diary (e : Nat) : (delTask s e).diary = s.diary := rfl
@[simp] theorem delTask_firm (e : Nat) : (delTask s e).firm = s.firm := rfl
@[simp] theorem delTask_health (e : Nat) : (delTask s e).health = s.health := rfl
@[simp] theorem delTask_boxes (e : Nat) : (delTask s e).boxes = s.boxes := rfl
@[simp] theorem delTask_power (e : Nat) : (delTask s e).power = s.power := rfl
@[simp] theorem delTask_vigil (e : Nat) : (delTask s e).vigil = s.vigil := rfl
@[simp] theorem delTask_clock (e : Nat) : (delTask s e).clock = s.clock := rfl
@[simp] theorem delTask_cls (e : Nat) : (delTask s e).cls = s.cls := rfl
@[simp] theorem delTask_pins (e : Nat) : (delTask s e).pins = s.pins := rfl
@[simp] theorem delTask_fld (e : Nat) : (delTask s e).fld = s.fld := rfl
@[simp] theorem delTask_hif (e : Nat) : (delTask s e).hif = s.hif := rfl
@[simp] theorem delTask_graphs (e : Nat) : (delTask s e).graphs = s.graphs := rfl
@[simp] theorem delTask_seqs (e : Nat) : (delTask s e).seqs = s.seqs := rfl
@[simp] theorem delTask_ctxs (e : Nat) : (delTask s e).ctxs = s.ctxs := rfl
@[simp] theorem delTask_banks (e : Nat) : (delTask s e).banks = s.banks := rfl
@[simp] theorem delTask_ptags (e : Nat) : (delTask s e).ptags = s.ptags := rfl
@[simp] theorem delTask_nstat (e : Nat) : (delTask s e).nstat = s.nstat := rfl
@[simp] theorem delTask_dmaHalt (e : Nat) : (delTask s e).dmaHalt = s.dmaHalt := rfl
@[simp] theorem delTask_dmaLatch (e : Nat) : (delTask s e).dmaLatch = s.dmaLatch := rfl
@[simp] theorem delTask_dmaLast (e : Nat) : (delTask s e).dmaLast = s.dmaLast := rfl
@[simp] theorem delTask_memBad (e : Nat) : (delTask s e).memBad = s.memBad := rfl
@[simp] theorem delTask_hostReads (e : Nat) : (delTask s e).hostReads = s.hostReads := rfl
@[simp] theorem delTask_flowWait (e : Nat) : (delTask s e).flowWait = s.flowWait := rfl
@[simp] theorem delTask_admits (e : Nat) : (delTask s e).admits = s.admits := rfl
@[simp] theorem delTask_resident (e : Nat) : (delTask s e).resident = s.resident := rfl
@[simp] theorem delTask_pipes (e : Nat) : (delTask s e).pipes = s.pipes := rfl
@[simp] theorem delTask_fsync (e : Nat) : (delTask s e).fsync = s.fsync := rfl
@[simp] theorem delTask_ibi (e : Nat) : (delTask s e).ibi = s.ibi := rfl
@[simp] theorem delTask_scm (e : Nat) : (delTask s e).scm = s.scm := rfl
@[simp] theorem delTask_chk (e : Nat) : (delTask s e).chk = s.chk := rfl
@[simp] theorem delTask_cdc (e : Nat) : (delTask s e).cdc = s.cdc := rfl
@[simp] theorem delTask_tcs (e : Nat) : (delTask s e).tcs = s.tcs := rfl
@[simp] theorem delTask_tables (e : Nat) : (delTask s e).tables = s.tables := rfl
@[simp] theorem delTask_gthPairs (e : Nat) : (delTask s e).gthPairs = s.gthPairs := rfl
@[simp] theorem delTask_gthBusy (e : Nat) : (delTask s e).gthBusy = s.gthBusy := rfl
@[simp] theorem delTask_gthAhead (e : Nat) : (delTask s e).gthAhead = s.gthAhead := rfl
@[simp] theorem delTask_uses (e : Nat) : (delTask s e).uses = s.uses := rfl
@[simp] theorem delTask_out (e : Nat) : (delTask s e).out = s.out := rfl

@[simp] theorem setFlow_pending (f : Nat) (x : Flow) : (setFlow s f x).pending = s.pending := rfl
@[simp] theorem setFlow_time (f : Nat) (x : Flow) : (setFlow s f x).time = s.time := rfl
@[simp] theorem setFlow_regs (f : Nat) (x : Flow) : (setFlow s f x).regs = s.regs := rfl
@[simp] theorem setFlow_mem (f : Nat) (x : Flow) : (setFlow s f x).mem = s.mem := rfl
@[simp] theorem setFlow_tags (f : Nat) (x : Flow) : (setFlow s f x).tags = s.tags := rfl
@[simp] theorem setFlow_somEve (f : Nat) (x : Flow) : (setFlow s f x).somEve = s.somEve := rfl
@[simp] theorem setFlow_queues (f : Nat) (x : Flow) : (setFlow s f x).queues = s.queues := rfl
@[simp] theorem setFlow_pool (f : Nat) (x : Flow) : (setFlow s f x).pool = s.pool := rfl
@[simp] theorem setFlow_gens (f : Nat) (x : Flow) : (setFlow s f x).gens = s.gens := rfl
@[simp] theorem setFlow_genOrder (f : Nat) (x : Flow) : (setFlow s f x).genOrder = s.genOrder := rfl
@[simp] theorem setFlow_flags (f : Nat) (x : Flow) : (setFlow s f x).flags = s.flags := rfl
@[simp] theorem setFlow_held (f : Nat) (x : Flow) : (setFlow s f x).held = s.held := rfl
@[simp] theorem setFlow_fwl (f : Nat) (x : Flow) : (setFlow s f x).fwl = s.fwl := rfl
@[simp] theorem setFlow_units (f : Nat) (x : Flow) : (setFlow s f x).units = s.units := rfl
@[simp] theorem setFlow_diary (f : Nat) (x : Flow) : (setFlow s f x).diary = s.diary := rfl
@[simp] theorem setFlow_firm (f : Nat) (x : Flow) : (setFlow s f x).firm = s.firm := rfl
@[simp] theorem setFlow_health (f : Nat) (x : Flow) : (setFlow s f x).health = s.health := rfl
@[simp] theorem setFlow_boxes (f : Nat) (x : Flow) : (setFlow s f x).boxes = s.boxes := rfl
@[simp] theorem setFlow_power (f : Nat) (x : Flow) : (setFlow s f x).power = s.power := rfl
@[simp] theorem setFlow_vigil (f : Nat) (x : Flow) : (setFlow s f x).vigil = s.vigil := rfl
@[simp] theorem setFlow_clock (f : Nat) (x : Flow) : (setFlow s f x).clock = s.clock := rfl
@[simp] theorem setFlow_cls (f : Nat) (x : Flow) : (setFlow s f x).cls = s.cls := rfl
@[simp] theorem setFlow_pins (f : Nat) (x : Flow) : (setFlow s f x).pins = s.pins := rfl
@[simp] theorem setFlow_fld (f : Nat) (x : Flow) : (setFlow s f x).fld = s.fld := rfl
@[simp] theorem setFlow_hif (f : Nat) (x : Flow) : (setFlow s f x).hif = s.hif := rfl
@[simp] theorem setFlow_graphs (f : Nat) (x : Flow) : (setFlow s f x).graphs = s.graphs := rfl
@[simp] theorem setFlow_seqs (f : Nat) (x : Flow) : (setFlow s f x).seqs = s.seqs := rfl
@[simp] theorem setFlow_ctxs (f : Nat) (x : Flow) : (setFlow s f x).ctxs = s.ctxs := rfl
@[simp] theorem setFlow_banks (f : Nat) (x : Flow) : (setFlow s f x).banks = s.banks := rfl
@[simp] theorem setFlow_ptags (f : Nat) (x : Flow) : (setFlow s f x).ptags = s.ptags := rfl
@[simp] theorem setFlow_nstat (f : Nat) (x : Flow) : (setFlow s f x).nstat = s.nstat := rfl
@[simp] theorem setFlow_dmaHalt (f : Nat) (x : Flow) : (setFlow s f x).dmaHalt = s.dmaHalt := rfl
@[simp] theorem setFlow_dmaLatch (f : Nat) (x : Flow) : (setFlow s f x).dmaLatch = s.dmaLatch := rfl
@[simp] theorem setFlow_dmaLast (f : Nat) (x : Flow) : (setFlow s f x).dmaLast = s.dmaLast := rfl
@[simp] theorem setFlow_memBad (f : Nat) (x : Flow) : (setFlow s f x).memBad = s.memBad := rfl
@[simp] theorem setFlow_hostReads (f : Nat) (x : Flow) : (setFlow s f x).hostReads = s.hostReads := rfl
@[simp] theorem setFlow_flowWait (f : Nat) (x : Flow) : (setFlow s f x).flowWait = s.flowWait := rfl
@[simp] theorem setFlow_admits (f : Nat) (x : Flow) : (setFlow s f x).admits = s.admits := rfl
@[simp] theorem setFlow_resident (f : Nat) (x : Flow) : (setFlow s f x).resident = s.resident := rfl
@[simp] theorem setFlow_pipes (f : Nat) (x : Flow) : (setFlow s f x).pipes = s.pipes := rfl
@[simp] theorem setFlow_fsync (f : Nat) (x : Flow) : (setFlow s f x).fsync = s.fsync := rfl
@[simp] theorem setFlow_ibi (f : Nat) (x : Flow) : (setFlow s f x).ibi = s.ibi := rfl
@[simp] theorem setFlow_scm (f : Nat) (x : Flow) : (setFlow s f x).scm = s.scm := rfl
@[simp] theorem setFlow_chk (f : Nat) (x : Flow) : (setFlow s f x).chk = s.chk := rfl
@[simp] theorem setFlow_cdc (f : Nat) (x : Flow) : (setFlow s f x).cdc = s.cdc := rfl
@[simp] theorem setFlow_tcs (f : Nat) (x : Flow) : (setFlow s f x).tcs = s.tcs := rfl
@[simp] theorem setFlow_tables (f : Nat) (x : Flow) : (setFlow s f x).tables = s.tables := rfl
@[simp] theorem setFlow_gthPairs (f : Nat) (x : Flow) : (setFlow s f x).gthPairs = s.gthPairs := rfl
@[simp] theorem setFlow_gthBusy (f : Nat) (x : Flow) : (setFlow s f x).gthBusy = s.gthBusy := rfl
@[simp] theorem setFlow_gthAhead (f : Nat) (x : Flow) : (setFlow s f x).gthAhead = s.gthAhead := rfl
@[simp] theorem setFlow_uses (f : Nat) (x : Flow) : (setFlow s f x).uses = s.uses := rfl
@[simp] theorem setFlow_out (f : Nat) (x : Flow) : (setFlow s f x).out = s.out := rfl

/-! ### Time that passes -/

/-- Counting changes registers alone. -/
theorem incBys_fields (l : List (Nat × Nat)) : l.foldl (fun s p => incBy s p.1 p.2) s
    = { s with regs := (l.foldl (fun s p => incBy s p.1 p.2) s).regs } := by
  induction l generalizing s with
  | nil => rfl
  | cons p t ih => rw [List.foldl_cons, ih]; rfl

/-- Time that passes leaves counted clocks and noted submissions. -/
theorem passing_fields (dt : Nat) :
    passing s dt = { s with regs := (passing s dt).regs, chk := { s.chk with subs := noteSubs s } } := by
  unfold passing countClocks
  split
  · rw [incBys_fields]
  · rfl

/-- Module time moved forward: the time, counted clocks and noted submissions. -/
theorem advance_fields (u : Nat) :
    advance s u = { s with regs := (advance s u).regs, chk := (advance s u).chk, time := (advance s u).time } := by
  unfold advance
  split
  · rw [passing_fields]
  · rfl

@[simp] theorem advance_pending (u : Nat) : (advance s u).pending = s.pending := by rw [advance_fields]
@[simp] theorem advance_mem (u : Nat) : (advance s u).mem = s.mem := by rw [advance_fields]
@[simp] theorem advance_tags (u : Nat) : (advance s u).tags = s.tags := by rw [advance_fields]
@[simp] theorem advance_somEve (u : Nat) : (advance s u).somEve = s.somEve := by rw [advance_fields]
@[simp] theorem advance_queues (u : Nat) : (advance s u).queues = s.queues := by rw [advance_fields]
@[simp] theorem advance_pool (u : Nat) : (advance s u).pool = s.pool := by rw [advance_fields]
@[simp] theorem advance_gens (u : Nat) : (advance s u).gens = s.gens := by rw [advance_fields]
@[simp] theorem advance_genOrder (u : Nat) : (advance s u).genOrder = s.genOrder := by rw [advance_fields]
@[simp] theorem advance_flags (u : Nat) : (advance s u).flags = s.flags := by rw [advance_fields]
@[simp] theorem advance_held (u : Nat) : (advance s u).held = s.held := by rw [advance_fields]
@[simp] theorem advance_fwl (u : Nat) : (advance s u).fwl = s.fwl := by rw [advance_fields]
@[simp] theorem advance_units (u : Nat) : (advance s u).units = s.units := by rw [advance_fields]
@[simp] theorem advance_diary (u : Nat) : (advance s u).diary = s.diary := by rw [advance_fields]
@[simp] theorem advance_firm (u : Nat) : (advance s u).firm = s.firm := by rw [advance_fields]
@[simp] theorem advance_health (u : Nat) : (advance s u).health = s.health := by rw [advance_fields]
@[simp] theorem advance_boxes (u : Nat) : (advance s u).boxes = s.boxes := by rw [advance_fields]
@[simp] theorem advance_power (u : Nat) : (advance s u).power = s.power := by rw [advance_fields]
@[simp] theorem advance_vigil (u : Nat) : (advance s u).vigil = s.vigil := by rw [advance_fields]
@[simp] theorem advance_clock (u : Nat) : (advance s u).clock = s.clock := by rw [advance_fields]
@[simp] theorem advance_cls (u : Nat) : (advance s u).cls = s.cls := by rw [advance_fields]
@[simp] theorem advance_pins (u : Nat) : (advance s u).pins = s.pins := by rw [advance_fields]
@[simp] theorem advance_fld (u : Nat) : (advance s u).fld = s.fld := by rw [advance_fields]
@[simp] theorem advance_hif (u : Nat) : (advance s u).hif = s.hif := by rw [advance_fields]
@[simp] theorem advance_graphs (u : Nat) : (advance s u).graphs = s.graphs := by rw [advance_fields]
@[simp] theorem advance_seqs (u : Nat) : (advance s u).seqs = s.seqs := by rw [advance_fields]
@[simp] theorem advance_ctxs (u : Nat) : (advance s u).ctxs = s.ctxs := by rw [advance_fields]
@[simp] theorem advance_banks (u : Nat) : (advance s u).banks = s.banks := by rw [advance_fields]
@[simp] theorem advance_sched (u : Nat) : (advance s u).sched = s.sched := by rw [advance_fields]
@[simp] theorem advance_ptags (u : Nat) : (advance s u).ptags = s.ptags := by rw [advance_fields]
@[simp] theorem advance_nstat (u : Nat) : (advance s u).nstat = s.nstat := by rw [advance_fields]
@[simp] theorem advance_dmaHalt (u : Nat) : (advance s u).dmaHalt = s.dmaHalt := by rw [advance_fields]
@[simp] theorem advance_dmaLatch (u : Nat) : (advance s u).dmaLatch = s.dmaLatch := by rw [advance_fields]
@[simp] theorem advance_dmaLast (u : Nat) : (advance s u).dmaLast = s.dmaLast := by rw [advance_fields]
@[simp] theorem advance_memBad (u : Nat) : (advance s u).memBad = s.memBad := by rw [advance_fields]
@[simp] theorem advance_hostReads (u : Nat) : (advance s u).hostReads = s.hostReads := by rw [advance_fields]
@[simp] theorem advance_flowWait (u : Nat) : (advance s u).flowWait = s.flowWait := by rw [advance_fields]
@[simp] theorem advance_admits (u : Nat) : (advance s u).admits = s.admits := by rw [advance_fields]
@[simp] theorem advance_resident (u : Nat) : (advance s u).resident = s.resident := by rw [advance_fields]
@[simp] theorem advance_pipes (u : Nat) : (advance s u).pipes = s.pipes := by rw [advance_fields]
@[simp] theorem advance_fsync (u : Nat) : (advance s u).fsync = s.fsync := by rw [advance_fields]
@[simp] theorem advance_ibi (u : Nat) : (advance s u).ibi = s.ibi := by rw [advance_fields]
@[simp] theorem advance_scm (u : Nat) : (advance s u).scm = s.scm := by rw [advance_fields]
@[simp] theorem advance_cdc (u : Nat) : (advance s u).cdc = s.cdc := by rw [advance_fields]
@[simp] theorem advance_tcs (u : Nat) : (advance s u).tcs = s.tcs := by rw [advance_fields]
@[simp] theorem advance_tables (u : Nat) : (advance s u).tables = s.tables := by rw [advance_fields]
@[simp] theorem advance_gthPairs (u : Nat) : (advance s u).gthPairs = s.gthPairs := by rw [advance_fields]
@[simp] theorem advance_gthBusy (u : Nat) : (advance s u).gthBusy = s.gthBusy := by rw [advance_fields]
@[simp] theorem advance_gthAhead (u : Nat) : (advance s u).gthAhead = s.gthAhead := by rw [advance_fields]
@[simp] theorem advance_uses (u : Nat) : (advance s u).uses = s.uses := by rw [advance_fields]
@[simp] theorem advance_out (u : Nat) : (advance s u).out = s.out := by rw [advance_fields]

end Sys2Proof.Machine
end

