-- ==== Sys2Proof/Laws/Ops.lean ====
section
/-!
SUPPORT. What each getter gives after each setter, and what a register operation does to its register.
-/
namespace Sys2Proof.Machine

variable (s : State)

/-! ### Registers -/

theorem getR_setR (a b : Nat) (v : Reg) : getR (setR s a v) b = if a = b then v else getR s b := kvGet_kvPut ..

@[simp] theorem getR_setR_same (a : Nat) (v : Reg) : getR (setR s a v) a = v := by simp [getR_setR]

theorem getR_inc (a b : Nat) : getR (inc s a) b = if a = b then getR s a + 1 else getR s b := by
  simp only [inc, getR_setR]

theorem getR_of_regs {s t : State} (h : t.regs = s.regs) (a : Nat) : getR t a = getR s a := by simp only [getR, h]

/-! ### Keyed tables of the state -/

theorem getSeq_setSeq (n m : Nat) (q : Seq) : getSeq (setSeq s n q) m = if n = m then q else getSeq s m := kvGet_kvPut ..

@[simp] theorem getSeq_setSeq_same (n : Nat) (q : Seq) : getSeq (setSeq s n q) n = q := by simp [getSeq_setSeq]

theorem getSlot_setSlot (n i m j : Nat) (x : Slot) :
    getSlot (setSlot s n i x) m j = if n = m ∧ i = j then x else getSlot s m j := by
  by_cases h : n = m
  · subst h; by_cases hi : i = j <;> simp [getSlot, setSlot, kvGet_kvPut, hi]
  · simp [getSlot, setSlot, getSeq_setSeq, h]

@[simp] theorem getSlot_setSlot_same (n i : Nat) (x : Slot) : getSlot (setSlot s n i x) n i = x := by simp [getSlot_setSlot]

theorem getCtx_setCtx (n c m d : Nat) (x : Ctx) :
    getCtx (setCtx s n c x) m d = if 2 * n + c = 2 * m + d then x else getCtx s m d := kvGet_kvPut ..

@[simp] theorem getCtx_setCtx_same (n c : Nat) (x : Ctx) : getCtx (setCtx s n c x) n c = x := by simp [getCtx_setCtx]

theorem getFlag_setFlag (w v : Nat) (f : FlagWord) : getFlag (setFlag s w f) v = if w = v then f else getFlag s v :=
  kvGet_kvPut ..

theorem getGen_setGen (g h : Nat) (e : Gen) : getGen (setGen s g e) h = if g = h then e else getGen s h := kvGet_kvPut ..

@[simp] theorem getGen_setGen_same (g : Nat) (e : Gen) : getGen (setGen s g e) g = e := by simp [getGen_setGen]

theorem getQ_setQ (q r : Nat) (x : Queue) : getQ (setQ s q x) r = if q = r then x else getQ s r := kvGet_kvPut ..

@[simp] theorem getQ_setQ_same (q : Nat) (x : Queue) : getQ (setQ s q x) q = x := by simp [getQ_setQ]

theorem getUnit_setUnit (u v : Nat) (r : UnitRec) : getUnit (setUnit s u r) v = if u = v then r else getUnit s v :=
  kvGet_kvPut ..

@[simp] theorem getUnit_setUnit_same (u : Nat) (r : UnitRec) : getUnit (setUnit s u r) u = r := by simp [getUnit_setUnit]

theorem getFlow_setFlow (f g : Nat) (x : Flow) : getFlow (setFlow s f x) g = if f = g then x else getFlow s g :=
  kvGet_kvPut ..

/-! ### Tables read by search -/

theorem find_kvPut {α : Type} (l : List (Nat × α)) (k j : Nat) (v : α) :
    ((kvPut l k v).find? fun p => p.1 == j).map Prod.snd
      = if k = j then some v else (l.find? fun p => p.1 == j).map Prod.snd := by
  induction l with
  | nil => by_cases h : k = j <;> simp [kvPut, h]
  | cons p t ih =>
    obtain ⟨a, w⟩ := p
    by_cases h : a = k
    · subst h; by_cases hj : a = j <;> simp [kvPut, hj]
    · by_cases hk : k < a
      · rw [kvPut, if_neg h, if_pos hk, List.find?_cons]
        by_cases hj : k = j
        · simp [hj]
        · have : (k == j) = false := by simpa using hj
          simp [this, hj]
      · by_cases hj : a = j
        · subst hj; simp [kvPut, h, hk, Ne.symm h]
        · have : (a == j) = false := by simpa using hj
          simp only [kvPut, h, hk, if_false, List.find?_cons, this, ih]

theorem getGraph_setGraph (n c m d : Nat) (g : Graph) :
    getGraph (setGraph s n c g) m d = if 2 * n + c = 2 * m + d then some g else getGraph s m d := find_kvPut ..

theorem getTask_setTask (e f : Nat) (t : Task) :
    getTask (setTask s e t) f = if e = f then some t else getTask s f := find_kvPut ..

@[simp] theorem getTask_setTask_same (e : Nat) (t : Task) : getTask (setTask s e t) e = some t := by simp [getTask_setTask]

theorem getTask_delTask_same (e : Nat) : getTask (delTask s e) e = none := by
  simp [getTask, delTask, kvDel]

/-! ### Interrupts: a raise touches its register, the drop counter, a function page's pending bits and the outputs -/

theorem msix_fields (f vec : Nat) : msix s f vec = { s with regs := (msix s f vec).regs, out := (msix s f vec).out } := by
  unfold msix; simp only; split
  · rfl
  · split <;> rfl

theorem msix_regs (f vec b : Nat) (hb : b < 0x1000_0000) : getR (msix s f vec) b = getR s b := by
  unfold msix; simp only; split
  · rfl
  · split
    · rw [getR_setR, if_neg]; unfold fnPage; omega
    · rfl

theorem lineMessage_fields (l : Nat) :
    lineMessage s l = { s with regs := (lineMessage s l).regs, out := (lineMessage s l).out } := by
  unfold lineMessage; simp only; split
  · rfl
  · exact msix_fields ..

theorem lineMessage_regs (l b : Nat) (hb : b < 0x1000_0000) (h : b ≠ hifBase + 0x44) :
    getR (lineMessage s l) b = getR s b := by
  unfold lineMessage; simp only; split
  · rw [getR_inc, if_neg (Ne.symm h)]
  · exact msix_regs _ _ _ _ hb

theorem lineCheck_fields (t : State) (a : Nat) (again : Bool) :
    lineCheck s t a again = { t with regs := (lineCheck s t a again).regs, out := (lineCheck s t a again).out } := by
  unfold lineCheck; split
  · rfl
  · split
    · exact lineMessage_fields ..
    · rfl

theorem lineCheck_regs (t : State) (a b : Nat) (again : Bool) (hb : b < 0x1000_0000) (h : b ≠ hifBase + 0x44) :
    getR (lineCheck s t a again) b = getR t b := by
  unfold lineCheck; split
  · rfl
  · split
    · exact lineMessage_regs _ _ _ hb h
    · rfl

/-- A raise changes registers and outputs alone. -/
theorem raise_fields (a i : Nat) : raise s a i = { s with regs := (raise s a i).regs, out := (raise s a i).out } := by
  unfold raise; rw [lineCheck_fields]; rfl

/-- A raise sets its bit, and leaves every other register of the control window but the drop counter as it was. -/
theorem raise_regs (a i b : Nat) (hb : b < 0x1000_0000) (h : b ≠ hifBase + 0x44) :
    getR (raise s a i) b = if a = b then setBit i (getR s a) else getR s b := by
  unfold raise; rw [lineCheck_regs _ _ _ _ _ hb h, getR_setR]

/-! ### The control window -/

/-- A write that reaches its block acts on the state as it is. -/
theorem hostAccess_reaches (secure w : Bool) (off : Nat) (f : State → State) (h1 : ctlReach s secure = true)
    (h2 : s.power.st = .run) (h3 : blockOn s off = true) (h4 : w = true → secure = true) :
    hostAccess secure w off s f = f s := by
  have hd : dozeWake s = s := by simp [dozeWake, h2]
  have hw : ¬ (w = true ∧ ¬ secure = true) := fun ⟨a, b⟩ => b (h4 a)
  simp only [hostAccess, ctlAccess, h1, hd, h3, hw]
  simp

/-! ### Memory -/

/-- What a read gives after a store to a canonical memory. -/
theorem memGet_poke (a j : Nat) (l : List Byte) (h : Memory.wf s.mem = true) :
    memGet (poke s a l).mem j = if a ≤ j ∧ j < a + l.length then nth 0 l (j - a) else memGet s.mem j :=
  memGet_memPutAll l s.mem a j h

end Sys2Proof.Machine
end

