-- ==== Sys2Proof/Laws/Box.lean ====
section
/-!
SUPPORT. What the command boxes do with a command: accepted, turned away, or discarded while another runs.
-/
namespace Sys2Proof.Machine

variable (s : State)

theorem dozeWake_run (h : s.power.st = .run) : dozeWake s = s := by simp [dozeWake, h]

theorem foldArgs_fields (b : Nat) (l : List (Reg × Nat)) (s : State) :
    l.foldl (fun s p => setR s (boxAt b + 0x10 + 4 * p.2) p.1) s
      = { s with regs := (l.foldl (fun s p => setR s (boxAt b + 0x10 + 4 * p.2) p.1) s).regs } := by
  induction l generalizing s with
  | nil => rfl
  | cons p t ih => rw [List.foldl_cons, ih]; rfl

/-- Placing a command in a box changes registers alone. -/
theorem boxed_fields (b : Nat) (args : List Reg) : boxed s b args = { s with regs := (boxed s b args).regs } := by
  unfold boxed; rw [foldArgs_fields]; rfl

theorem boxGate_boxed (b op : Nat) (args : List Reg) (b' : Nat) : boxGate (boxed s b args) b' op = boxGate s b' op := by
  rw [boxed_fields]; rfl

/-- A command that its box accepts does its work on the boxed state. -/
theorem mailbox_accepts (secure : Bool) (op : Nat) (tag : BitVec 16) (args : List Reg) (f : BoxWork)
    (h : Accepts s secure op) :
    mailbox secure op tag args f s = .next (match f (boxed s (b2n secure) args) (b2n secure) args with
      | (t, .done r rsp) => boxDone t (b2n secure) tag.toNat r rsp
      | (t, .gone) => t
      | (t, .wait) => { t with boxes := kvPut t.boxes (b2n secure) { tag := tag.toNat, op := op, arg := argN args 0, since := now t } }) := by
  obtain ⟨h1, h2, h3, h4⟩ := h
  have hg := boxGate_boxed s (b2n secure) op args (b2n secure)
  rw [h4] at hg
  unfold boxed at hg
  unfold mailbox boxRun
  rw [dozeWake_run s h2]
  simp only [h1, h3, if_true]
  simp only [Bool.false_eq_true, if_false, hg, boxed] <;> rfl

/-- A command that its box turns away answers with the gate's result. -/
theorem mailbox_refuses (secure : Bool) (op : Nat) (tag : BitVec 16) (args : List Reg) (f : BoxWork) (r : Nat)
    (h1 : fnReach s (b2n secure) = true) (h2 : s.power.st = .run)
    (h3 : bit 31 (getN s (boxAt (b2n secure) + 4)) = false) (h4 : boxGate s (b2n secure) op = some r) :
    mailbox secure op tag args f s = .next (boxDone (boxed s (b2n secure) args) (b2n secure) tag.toNat r []) := by
  have hg := boxGate_boxed s (b2n secure) op args (b2n secure)
  rw [h4] at hg
  unfold boxed at hg
  unfold mailbox boxRun
  rw [dozeWake_run s h2]
  simp only [h1, h3, if_true]
  simp only [Bool.false_eq_true, if_false, hg, boxed]

/-- A command that arrives while another runs is discarded with REJ. -/
theorem mailbox_busy (secure : Bool) (op : Nat) (tag : BitVec 16) (args : List Reg) (f : BoxWork)
    (h1 : fnReach s (b2n secure) = true) (h2 : s.power.st = .run)
    (h3 : bit 31 (getN s (boxAt (b2n secure) + 4)) = true) :
    mailbox secure op tag args f s
      = .next (setR s (boxAt (b2n secure) + 4) (setBit 30 (getR s (boxAt (b2n secure) + 4)))) := by
  unfold mailbox boxRun
  rw [dozeWake_run s h2]
  simp only [h1, h3, if_true]

end Sys2Proof.Machine
end

