-- ==== Sys2Proof/Laws/Mem.lean ====
section
/-!
SUPPORT. What an access of a unit does for dated work: a read of memory that it may read gives the bytes and leaves the
state; a store to memory that it may write stores the bytes and mends the damaged cells that it covers.
-/
namespace Sys2Proof.Machine

variable (s : State)

/-- An access that is granted changes nothing. -/
theorem access_ok (u : Nat) (sc w : Bool) (a n : Nat) (h : (access s u sc w a n).2 = .ok) :
    access s u sc w a n = (s, .ok) := by
  revert h
  unfold access
  dsimp only
  generalize inc _ _ = x
  generalize fwDecide s.fwl.som u (unitWorld s u) sc w (a - Config.somBase) _ = y
  generalize fwDecide s.fwl.dram u (unitWorld s u) sc w a _ = z
  cases spaceOf a
  · cases z
    · exact congrArg (Prod.mk s)
    · exact fun h => by cases h
  · cases y
    · exact congrArg (Prod.mk s)
    · exact fun h => by cases h
  · dsimp only
    split
    · exact fun _ => rfl
    · exact fun h => by cases h
  · exact fun h => by cases h

theorem eff_zero : eff s 0 = 0 := by simp [eff]

theorem mergeAll_zero (l : List Nat) (h : ∀ x ∈ l, x = 0) : mergeAll s 0 l = (s, 0) := by
  induction l with
  | nil => rfl
  | cons x t ih =>
    have hx : x = 0 := h x (by simp)
    have : mergeGen s 0 0 = (s, 0) := by simp [mergeGen, eff]
    simp only [mergeAll, List.foldl_cons, hx, this]
    exact ih fun y hy => h y (by simp [hy])

theorem readTags_zero (a n : Nat) (h : ∀ p ∈ pagesOf a n, tagOf s p = 0) : readTags s 0 a n = (s, 0) := by
  refine mergeAll_zero s _ fun x hx => ?_
  obtain ⟨p, hp, hx⟩ := List.mem_filterMap.1 hx
  rw [h p hp] at hx
  simpa using hx.symm

/-- A read by dated work of bytes that the unit may read: those bytes, dated, and the state as it was. -/
theorem unitRead_readable (u : Nat) (sc : Bool) (a n : Nat) (h : Readable s u sc a n) :
    unitRead s u sc 0 a n = (s, .ok (peek s a n, 0)) := by
  obtain ⟨h1, h2, h3, h4, h5⟩ := h
  simp [unitRead, access_ok s u sc false a n h1, h2, h3, h4, readTags_zero s a n h5]

/-- A store by dated work of bytes that the unit may write: the bytes stand in memory, and the damaged cells that they cover
are whole again. -/
theorem unitWrite_writable (u : Nat) (sc : Bool) (a : Nat) (l : List Byte) (h : Writable s u sc a l.length) :
    unitWrite s u sc 0 a l
      = (poke { s with memBad := s.memBad.filter fun c => !(decide (a ≤ 64 * c) && decide (64 * c + 64 ≤ a + l.length)) } a l,
         .ok ()) := by
  obtain ⟨h1, h2⟩ := h
  simp [unitWrite, gated, eff_zero, access_ok s u sc true a l.length h1, h2]

end Sys2Proof.Machine
end

