-- ==== Sys2Proof/Tests/Slice0.lean ====
section
/-!
SUPPORT. Tests: ill-formed commands that the check refuses, the hypotheses of every statement met together by a concrete small
state, and single steps whose results are worked out from the specification by hand.
-/
open Sys2Proof Sys2Proof.Machine
namespace Sys2Proof.Tests
set_option Elab.async false

/-! ### Small states -/

/-- What a command's next state shows through `f`. -/
def after {α : Type} (c : Instr) (s : State) (f : State → α) : Option α :=
  match exec c s with
  | .next t => some (f t)
  | _ => none

/-- The reset state with some registers set. -/
def withRegs (l : List (Nat × Reg)) : State := l.foldl (fun s p => setR s p.1 p.2) State.reset

/-- The reset state with the link at L0 and PF1 present: both worlds reach the control window and their boxes. -/
def up : State :=
  { State.reset with hif := { State.reset.hif with link := .l0 },
                     fwl := { State.reset.fwl with fuses := { State.reset.fwl.fuses with pf1en := true } } }

/-- Such a state with some registers set. -/
def upRegs (l : List (Nat × Reg)) : State := l.foldl (fun s p => setR s p.1 p.2) up

/-- A graph that runs, with a program of one instruction, its flag words at 4,096 and its parameter area at 8,192; and the same
with a `NOP` for its instruction. -/
def wordGraph (w : Word) : Graph := { st := .running, pl := { prog := [w], flagBase := 4096, params := 8192, paramLen := 128 } }
def graph : Graph := wordGraph wordNop

/-- The reset state with such a graph in context `c` of sequencer `n`, the context as given, and slot 0 as given. -/
def seqState (n c : Nat) (x : Ctx) (y : Slot) (w : Word := wordNop) : State :=
  { State.reset with graphs := [(2 * n + c, wordGraph w)], ctxs := [(2 * n + c, x)], seqs := [(n, { slots := [(0, y)] })] }

/-- A context that runs, with its EVE slot 0. -/
def running : Ctx := { rst := .run, cs := some 0 }

/-- An EVE slot of generation 1 of context 1, and the state with that generation live. -/
def eveSlot : Slot := { st := .eve, gen := 1, ctx := 1 }
def eveState (n : Nat) (x : Ctx) (w : Word := wordNop) : State :=
  { seqState n 1 x eveSlot w with gens := [(1, { st := .live, seq := n, ctx := 1 })] }

/-- A context that runs at the one word of its program issues it. -/
theorem issues_of {s : State} {n c : Nat} {x : Ctx} {w : Word} (hg : s.graphs = [(2 * n + c, wordGraph w)])
    (hc : s.ctxs = [(2 * n + c, x)]) (hr : x.rst = .run) (hp : x.pc = 0) (hb : x.pmemBad = []) :
    Issues s n c (wordGraph w) w := by
  simp [Issues, getGraph, getCtx, kvGet, wordGraph, hg, hc, hr, hp, hb]

/-! ### The hypotheses of the statements: queue, clock and sequencers -/

theorem wit_EmptyQueueStepIsOneCycle :
    (∃ s : State, s.pending = [] ∧ s.power.st = .off) ∧ (∃ s : State, s.pending = [] ∧ s.power.bootStep < 2) ∧
    (∃ s : State, s.pending = [] ∧ s.power.st ≠ .off ∧ 2 ≤ s.power.bootStep ∧ s.power.st ≠ .solstice ∧ NoSquashWaits s ∧
      (∀ b ∈ s.boxes, b.2.op ≠ 0x305) ∧ s.fld.held = [] ∧ s.power.dozePend = false) ∧
    (∃ s : State, s.pending = [] ∧ s.power.st ≠ .off ∧ 2 ≤ s.power.bootStep ∧ s.power.st = .solstice) :=
  ⟨⟨{ State.reset with power := { st := .off } }, by decide⟩, ⟨{ State.reset with power := { bootStep := 1 } }, by decide⟩,
   ⟨{ State.reset with power := { bootStep := 2 } }, by unfold NoSquashWaits; decide⟩, ⟨{ State.reset with power := { st := .solstice } }, by decide⟩⟩

theorem wit_MemoryFormInvariant : ∃ s t : State, Sys2Proof.Machine.Inv s ∧ s.mem = [(7, 1)] ∧ step s = .next t :=
  ⟨{ State.reset with mem := [(7, 1)] }, _, by unfold Sys2Proof.Machine.Inv; decide, rfl, rfl⟩

theorem wit_SeqPlainInstructions :
    (∀ w, Issues (seqState 19 1 running {} w) 19 1 (wordGraph w) w) ∧
    (let s := seqState 19 1 running {}
     (getCtx s 19 1).cs.isSome ∧ BrCond.eq ≠ .sq ∧ BrCond.eq ≠ .nsq ∧
      (getG (getCtx s 19 1) 0).1.toNat < graph.pl.prog.length ∧ (getG (getCtx s 19 1) 0).1.toNat < 2048) :=
  ⟨fun _ => issues_of rfl rfl rfl rfl rfl, by decide +kernel⟩

/-- `SlotDue` from facts that evaluation decides. -/
theorem slotDue_of {s : State} {n c : Nat} {g : Graph} {gen : Nat}
    (h : let x := getSlot s n (getSeq s n).nextEve
         g.utility = false ∧ eveCount s n < g.hdr.eveslots ∧ x.st = .open_ ∧ x.ctx = c ∧ x.doom = none ∧ 1 ≤ gen ∧ gen ≤ 254 ∧
           (getGen s gen).st = .free ∧ ∀ j, j < gen → 1 ≤ j → (getGen s j).st ≠ .free) : SlotDue s n c g gen :=
  let ⟨h1, h2, h3, h4, h5, h6, h7, h8, h9⟩ := h
  ⟨h1, h2, h3, h4, h5, h6, h7, h8, fun j a b => h9 j b a⟩

/-- An OPEN slot of context 1, due to an `EPOCH` of it. -/
def openState (n : Nat) (x : Ctx) (w : Word := wordNop) : State := seqState n 1 x { st := .open_, ctx := 1 } w

/-- The same with generations 1 to 253 live. -/
def fullState : State :=
  { openState 19 { rst := .wait, wait := some (.epoch 31 30) } with gens := (List.range 253).map fun k => (k + 1, { st := .live }) }

theorem wit_SeqSlots_takes : SlotDue (openState 0 { rst := .run } (wordEpoch 31 30)) 0 1 (wordGraph (wordEpoch 31 30)) 1 ∧
    Issues (openState 0 { rst := .run } (wordEpoch 31 30)) 0 1 (wordGraph (wordEpoch 31 30)) (wordEpoch 31 30) :=
  ⟨slotDue_of (by decide +kernel), issues_of rfl rfl rfl rfl rfl⟩

theorem wit_SeqSlots_release : SlotDue fullState 19 1 graph 254 ∧ getGraph fullState 19 1 = some graph ∧
    (getCtx fullState 19 1).wait = some (.epoch 31 30) := ⟨slotDue_of (by decide +kernel), by decide +kernel, by decide +kernel⟩

theorem wit_SeqSlots_selection :
    (∀ w, let s := seqState 0 1 running { st := .dated, sq := true, ctx := 1 } w
      Issues s 0 1 (wordGraph w) w ∧ selSlot s 0 1 .cs = .ghost) ∧
    (∀ w, let s := seqState 0 1 running { st := .dated, ctx := 1 } w
      Issues s 0 1 (wordGraph w) w ∧ selSlot s 0 1 .cs = .bad) ∧
    (∀ w, let s := seqState 19 1 { rst := .run } {} w
      Issues s 19 1 (wordGraph w) w ∧ selSlot s 19 1 .cs = .bad) :=
  ⟨fun _ => ⟨issues_of rfl rfl rfl rfl rfl, rfl⟩, fun _ => ⟨issues_of rfl rfl rfl rfl rfl, rfl⟩,
   fun _ => ⟨issues_of rfl rfl rfl rfl rfl, rfl⟩⟩

theorem wit_SeqDatesAndSquashes :
    (∀ w, let s := eveState 19 running w
      Issues s 19 1 (wordGraph w) w ∧ selSlot s 19 1 .cs = .act 0 ∧ (getSlot s 19 0).dating = none) ∧
    (let s := seqState 19 1 {} eveSlot
     getGraph s 19 (getSlot s 19 0).ctx = some graph ∧ graph.hdr.deadline ≠ 0 ∧ (getSlot s 19 0).st = .eve ∧
       (getSlot s 19 0).sq = false ∧ (getSlot s 19 0).notice = none) ∧
    (let s := seqState 0 0 {} { st := .open_ }
     getGraph s 0 (getSlot s 0 0).ctx = some graph ∧ (getSlot s 0 0).st = .open_ ∧ (getSlot s 0 0).doom = none ∧
       (getSlot s 0 0).notice = none) ∧
    (let s := { State.reset with gens := [(1, { st := .dated }), (254, { st := .squashed })] }
     (getGen s 1).st = .dated ∧ (getGen s 254).st = .squashed) :=
  ⟨fun _ => ⟨issues_of rfl rfl rfl rfl rfl, rfl, rfl⟩, by decide +kernel⟩

theorem wit_SeqKicks :
    (∀ w, let s := eveState 19 running w
     Issues s 19 1 (wordGraph w) w ∧ (getCtx s 19 1).win = none) ∧ ((65535 : Fin 65536) ≠ 0 ∧ (65535 : Fin 65536) ≤ 65535) ∧
    (∀ w, let s := eveState 19 { running with win := some (3, 0, 1) } w
     Issues s 19 1 (wordGraph w) w ∧ selSlot s 19 1 .cs = .act 0 ∧ freeEntry s 19 = some (entryBase 19) ∧
       s.power.dozePend = false ∧ graph.safety = false ∧ (getCtx s 19 1).win.isSome ∧ openWindows s 19 = 0) :=
  ⟨fun _ => ⟨issues_of rfl rfl rfl rfl rfl, rfl⟩, by decide,
   fun _ => ⟨issues_of rfl rfl rfl rfl rfl, rfl, rfl, rfl, rfl, rfl, rfl⟩⟩

theorem wit_SeqKicks_pset : ∀ w,
    let s := eveState 0 running w
    Issues s 0 1 (wordGraph w) w ∧ selSlot s 0 1 .cs = .act 0 ∧
      ∀ t ∈ s.sched.tasks.map Prod.snd ++ s.sched.posted, t.src = 0 → t.ctx = 1 → t.slot = 0 → t.first = none →
        t.served = none → t.parent = none → ¬ (t.pblk ≤ 8316 ∧ 8316 < t.pblk + blockLen s t) :=
  fun _ => ⟨issues_of rfl rfl rfl rfl rfl, rfl, fun _ h => absurd h (by simp [eveState, seqState, State.reset])⟩

/-- A flag word 255 of slot 0 of sequencer 0 that generation 1 owns, with VALUE 6. -/
def flagState (w : Word) : State :=
  { eveState 0 running w with flags := [(4096 + 255, { value := 6, gen := 1 })] }

theorem wit_SeqFlags :
    (∀ w, let s := flagState w
     let o := getFlag s (flagAddr (wordGraph w) 0 255)
     Issues s 0 1 (wordGraph w) w ∧ selSlot s 0 1 .cs = .act 0 ∧ o = { value := 6, gen := 1 } ∧ o.slot = 0 ∧
       o.frame = (getSlot s 0 0).frame % 2 ^ 16 ∧ eff s (getSlot s 0 0).gen = (getSlot s 0 0).gen ∧ (getSlot s 0 0).gen = 1 ∧
       flagOwner s 0 o = (getSlot s 0 0).gen) ∧
    (CmpHolds .geu 6 5 ∧ CmpHolds .eq 6 6 ∧ ¬ CmpHolds .geu 6 7 ∧ ¬ CmpHolds .eq 6 5) ∧
    (let s := { flagState wordNop with ctxs := [(1, { running with rst := .wait, wait := some (.flag 0 255 1 6) })] }
     getGraph s 0 1 = some graph ∧ (getCtx s 0 1).wait = some (.flag 0 255 (FlagCmp.code .eq) 6) ∧
       (getFlag s (flagAddr graph 0 255)).value = 6) ∧
    (let s := { flagState wordNop with ctxs := [(1, { running with rst := .wait, wait := some (.barrier 0 1) })] }
     (getCtx s 0 1).wait = some (.barrier 0 1) ∧ stagesOpen s 0 1 (some 0) = false) :=
  ⟨fun _ => ⟨issues_of rfl rfl rfl rfl rfl, rfl, rfl, rfl, rfl, rfl, rfl, rfl⟩, by unfold CmpHolds; decide,
   by decide +kernel, by decide +kernel⟩

/-- A lossless inside-bound queue with room for four words a packet and one receiver, and one that holds a word. -/
def queue : Queue := { cfg := { valid := true, depth := 8, reserve := 8, maxpkt := 4 }, recvs := [{}] }
def fullQueue : Queue := { queue with packets := [{ words := [{ data := 5 }] }], nextNum := 1 }
def outQueue : Queue := { queue with cfg := { queue.cfg with out := true } }

theorem wit_SeqQueues_enq :
    (∀ w, let s := { eveState 19 running w with queues := [(4095, queue)] }
     Issues s 19 1 (wordGraph w) w ∧ selSlot s 19 1 .cs = .act 0 ∧ (getQ s 4095).cfg.out = false) ∧
    (let s := { eveState 19 running with queues := [(4095, queue)] }
     let m := mergeAll (inc s (seqBase 19 + 0x20)) 1 [0, 0]
     (enqWord m.1 4095 195 { data := 0, gen := m.2, world := unitWorld m.1 195 } true).2 ≠ .waits) ∧
    (∀ w, let s := { eveState 19 running w with queues := [(7, outQueue)] }
     Issues s 19 1 (wordGraph w) w ∧ selSlot s 19 1 .cs = .act 0 ∧ (getQ s 7).cfg.out = true) ∧
    (let s := { eveState 19 running with queues := [(7, outQueue)] }
     let m := mergeAll (inc s (seqBase 19 + 0x20)) 1 [0, 0]
     eff m.1 m.2 ≠ 0 ∧ (getSlot m.1 19 0).held.length < 16) :=
  ⟨fun _ => ⟨issues_of rfl rfl rfl rfl rfl, rfl, rfl⟩, by decide +kernel,
   fun _ => ⟨issues_of rfl rfl rfl rfl rfl, rfl, rfl⟩, by decide +kernel⟩

theorem wit_SeqQueues_deq :
    (∀ w q, Issues { eveState 19 running w with queues := [(7, q)] } 19 1 (wordGraph w) w) ∧
    (let s := { eveState 19 running with queues := [(7, fullQueue)] }
     (deqWord (inc s (seqBase 19 + 0x20)) 7 195 (seqRecv (getQ s 7) 19)).2 = .word { data := 5 } true false ∧
       ((30 : Fin 32).val + 1) % 32 ≠ 0) ∧
    (let s := { eveState 19 running with queues := [(7, queue)] }
     (deqWord (inc s (seqBase 19 + 0x20)) 7 195 (seqRecv (getQ s 7) 19)).2 = .holiday) ∧
    (let s := { seqState 19 1 { rst := .wait, wait := some (.deq 31 7 0) } {} with queues := [(7, fullQueue)] }
     (getCtx s 19 1).wait = some (.deq 31 7 0) ∧ (deqWord s 7 195 0).2 = .word { data := 5 } true false) :=
  ⟨fun _ _ => issues_of rfl rfl rfl rfl rfl, by decide +kernel⟩

theorem wit_SeqTimers :
    (∀ w tm, Issues (seqState 19 1 { rst := .run, timers := [(3, tm)] } {} w) 19 1 (wordGraph w) w ∧
      (kvGet (fun _ => {}) (getCtx (seqState 19 1 { rst := .run, timers := [(3, tm)] } {} w) 19 1).timers 3 : Timer) = tm) ∧
    (∀ w, let s := eveState 19 running w
      Issues s 19 1 (wordGraph w) w ∧ selSlot s 19 1 .cs = .act 0 ∧ timeRuns s = true) ∧
    (let s := seqState 19 1 { rst := .wait, wait := some (.timer 3), timers := [(3, { armed := true, per := true, interval := 5 })] } {}
     (kvGet (fun _ => {}) (getCtx s 19 1).timers 3 : Timer).armed = true ∧ (getCtx s 19 1).wait = some (.timer 3) ∧ timeRuns s = true) ∧
    (let s := seqState 19 1 { rst := .run, timers := [(3, { armed := true })] } {}
     (kvGet (fun _ => {}) (getCtx s 19 1).timers 3 : Timer).armed = true ∧ (getCtx s 19 1).wait = none ∧
       (kvGet (fun _ => {}) (getCtx s 19 1).timers 3 : Timer).expired = false) :=
  ⟨fun _ _ => ⟨issues_of rfl rfl rfl rfl rfl, rfl⟩, fun _ => ⟨issues_of rfl rfl rfl rfl rfl, rfl, rfl⟩, by decide +kernel⟩

/-! ### Tasks, flows, the checker -/

/-- The reset state with one task in entry 10,751. -/
def taskState (k : Task) : State := { State.reset with sched := { tasks := [(10751, k)] } }

/-- A parameter block at 2^30 whose header says SERVE with queue 7, receiver 0. -/
def serveBlock : List Host.Cell := [(2 ^ 30 + 3, 1), (2 ^ 30 + 4, 7)]
def serveState : State :=
  { taskState { st := .ready, ttype := 6, pblk := 2 ^ 30 } with queues := [(7, queue)], mem := serveBlock }

theorem wit_TaskAcceptance :
    (let k : Task := { st := .placed, ttype := 4, inst := 7, units := [159], uepoch := 1, src := 0 }
     let s := taskState k
     getTask s 10751 = some k ∧ k.st = .placed ∧ k.ttype ≤ 4 ∧ staleKick s k = false ∧ staleUnit s k = none ∧ k.parent = none ∧
       s.ptags = [] ∧ (getCtx s k.src k.ctx).wait = none ∧ ∀ u ∈ k.units, 132 ≤ u) ∧
    (let s := serveState
     let k : Task := { st := .ready, ttype := 6, pblk := 2 ^ 30 }
     getTask s 10751 = some k ∧ isServeStage s k = true ∧ blkOrdered s k.pblk = false ∧ s.ptags = [] ∧
       (getCtx s k.src k.ctx).wait = none ∧ blkRecv s k.pblk < (getQ s (blkQueue s k.pblk)).recvs.length) ∧
    (let k : Task := { st := .placed, ttype := 0, inst := 3, units := [135], src := 19, uepoch := 1 }
     let s := { taskState k with units := [(unitOfType 0 3, { epoch := 2 })] }
     getTask s 10751 = some k ∧ staleKick s k = true ∧ (getUnit s (unitOfType 0 3)).mstate = .enabled) ∧
    (let k : Task := { st := .placed, ttype := 0, inst := 3, units := [135], src := 19, uepoch := 1 }
     let s := { taskState k with units := [(unitOfType 0 3, { epoch := 2, mstate := .fenced })] }
     staleKick s k = true ∧ (getUnit s (unitOfType 0 3)).mstate ≠ .enabled) ∧
    (let k : Task := { st := .placed, ttype := 6, inst := 0x3F, units := [131] }
     let s := { taskState k with units := [(131, { epoch := 2 })] }
     getTask s 10751 = some k ∧ staleUnit s k = some 131 ∧ noUnitLeft s k = none) := by
  decide +kernel
/-- A parent served task in entry 0 of queue 7 with a child in entry 1 of flow 1,023. -/
def servedTask : Task := { st := .running, ttype := 6, inst := 0x3F, served := some { queue := 7, pcount := 2 }, src := 19 }
def flowTask : Task := { st := .complete, ttype := 6, parent := some 0, flow := some 1023, fseq := 5 }
def flowState : State :=
  { State.reset with sched := { tasks := [(0, servedTask), (1, flowTask)], flows := [(1023, { valid := true, release := 5 })] },
                     queues := [(7, fullQueue)] }

/-- The two states of a placement: a free channel, and eight clusters whose channels are held by work of a lower rank. -/
def dmaTask : Task := { st := .ready, ttype := 7, inst := 63, tier := 0 }
def pinnedTask : Task := { st := .ready, ttype := 7, inst := 7, tier := 0 }
def weakTask : Task := { st := .running, ttype := 7, inst := 7, tier := 2, units := [71], dma := some {} }
def fullDma : State := { State.reset with sched := { tasks := [(0, pinnedTask), (1, weakTask)] } }

theorem wit_TaskPlacement :
    (let s := taskState dmaTask
     firstEligible s .dma = some (10751, dmaTask) ∧ dmaTask.first = none ∧ (placeOn s dmaTask).isSome) ∧
    (let s := fullDma
     firstEligible s .dma = some (0, pinnedTask) ∧ pinnedTask.first = none ∧ placeOn s pinnedTask = none ∧
       preemptPlan s (canStop s) pinnedTask = some ([64 + (7 : Fin 64).val], [(1, weakTask)]) ∧ weakTask.units = [71] ∧
       weakTask.ttype = 7) ∧
    (let s := flowState
     let v : Served := { queue := 7, pcount := 2 }
     getTask s 0 = some servedTask ∧ servedTask.served = some v ∧ servedTask.flow = none ∧
       ((children s 0).filter fun x => x.2.st != .complete).length < 16 ∧ v.created < v.pcount ∧
       (freeEntry s 19).isSome ∧ s.power.dozePend = false) ∧
    (let s := { flowState with sched := { flowState.sched with tasks := [(0, servedTask)] } }
     ((children s 0).filter fun x => !x.2.taken).length < packetsFor (getQ s 7) (nth {} (getQ s 7).recvs 0)) ∧
    (let s := flowState
     (s.sched.tasks.find? fun x => x.2.flow == some 1023 && x.2.st == .complete && x.2.fseq == (getFlow s 1023).release) = some (1, flowTask) ∧
       flowTask.units = [] ∧ flowTask.served = none ∧ 1 ∉ s.flowWait ∧ s.sched.posted = [] ∧
       (∀ c < 2, (getCtx s flowTask.src c).wait = none) ∧ flowTask.parent = some 0 ∧ getTask s 0 = some servedTask ∧
       (0 + 1 : Nat) < 2 ∧ (getFlow s 1023).done = []) := by
  decide +kernel

theorem wit_TaskProgress :
    (let k : Task := { st := .running, worked := true, units := [159] }
     getTask (taskState k) 10751 = some k ∧ k.served = none ∧ k.parent = none ∧ k.win = none ∧ k.lid = none ∧
       (taskState k).sched.posted = [] ∧ ∀ c < 2, (getCtx (taskState k) k.src c).wait = none) ∧
    (let k : Task := { st := .gate, dataGen := 1, gen := 1 }
     let s := { taskState k with gens := [(1, { st := .dated })] }
     getTask s 10751 = some k ∧ eff s k.dataGen = 0 ∧ eff s k.gen = 0) ∧
    (∀ w, let k : Task := { st := .running, worked := w, win := some (255, 0, 65535), first := some 0 }
     let s := taskState k
     getTask s 10751 = some k ∧ k.lid = none ∧ k.served = none ∧ k.parent = none ∧ k.err = none ∧ children s 10751 = [] ∧
       s.chk.fences = [] ∧ k.remainder = false ∧ k.cancelled = false ∧ k.ttype ≠ 8 ∧ timeRuns s = true) ∧
    (let k : Task := { st := .running, flow := some 3, fseq := 1, parent := some 0 }
     let s := { taskState k with flowWait := [10751], sched := { tasks := [(10751, k)], flows := [(3, { release := 1 })] } }
     getTask s 10751 = some k ∧ 10751 ∈ s.flowWait ∧ flowHeld s k = false) ∧
    (let k : Task := { st := .ready, tier := 2 }
     let s := setR (taskState k) (htsBase + 0x18) 1
     getTask s 10751 = some k ∧ k.starved = false ∧ getN s (htsBase + 0x18) ≠ 0) ∧
    Reaches up true (flag up (fwlBase + 0xA0) 1) (htsBase + 0x8040) ∧
    Reaches up false (flag up (fwlBase + 0xA0) 1) (htsBase + 0x8040) := by
  unfold Reaches; decide +kernel

/-- A slot of sequencer 0 whose dating has passed the checker, and its state. -/
def datedSlot (d : Dating) : Slot := { st := .eve, gen := 1, dating := some d }
def dating : Dating := { framed := true, nrec := some 0 }
def datingState (d : Dating) : State :=
  { seqState 0 0 { rst := .run, cs := some 0 } (datedSlot d) with gens := [(1, { st := .live })] }

theorem wit_DateCommit :
    let s := datingState dating
    submitted s 0 = some (0, datedSlot dating, dating, graph) ∧ dating.framed = true ∧ dating.nrec.getD 0 ≤ dating.verdicts.length ∧
      (getGen s 1).deps = [] ∧ s.chk.st = 1 ∧
      (placePacket s 0 (datedSlot dating) graph (datePacket s 0 0 (datedSlot dating) dating graph)).2 ≠ .waits := by
  decide +kernel

/-- A rule table of no rules at 2^30 in a secure region, with CHK_ARG at it. -/
def tableBytes : List Byte :=
  let h := [0x50] ++ zeros 55 ++ leBytes 4 (crc32c [])
  h ++ leBytes 4 (crc32c h)
def secureRegion (a : Nat) : Nat × Region := (255, { first := a / 4096, last := a / 4096 + 255, flags := 0xA0000000 })
def tableState : State :=
  let s := upRegs [(chkBase + 0x28, 2 ^ 30)]
  { s with mem := memPutAll [] (2 ^ 30) tableBytes, fwl := { s.fwl with dram := [secureRegion (2 ^ 30)] } }

theorem wit_CheckerCommands :
    (Reaches tableState true true (chkBase + 0x20) ∧ flag tableState (chkBase + 8) 0 = false ∧
      loadTable tableState (chkArg tableState) = .inr tableBytes) ∧
    (Reaches (upRegs [(chkBase + 8, 1)]) true true (chkBase + 0x20) ∧ flag (upRegs [(chkBase + 8, 1)]) (chkBase + 8) 0 = true) ∧
    Reaches up true true (chkBase + 0x1000 + 64 * 127 + 4 * 15) := by
  unfold Reaches; decide +kernel

def slotState (x : Slot) : State := { datingState {} with seqs := [(0, { slots := [(0, x)] })] }

theorem wit_CheckerUnits :
    (let d : Dating := { src := 2 }
     let s := datingState d
     s.chk.st = 1 ∧ s.chk.mismatch = 0 ∧ submitted s 0 = some (0, datedSlot d, d, graph) ∧ submissionNext s 0 = true ∧
       d.framed = false ∧ graph.hdr.maxrec < recordCount s graph 0 d ∧ (List.range 20).any (slotWork s) = true ∧
       s.chk.rerun = false) ∧
    (let s := datingState {}
     submitted s 0 = some (0, datedSlot {}, {}, graph) ∧ submissionNext s 0 = true ∧ recordCount s graph 0 {} = 0 ∧
       s.chk.histBad = false ∧ (s.chk.rules.find? fun p => p.1 == (0 : Nat)) = none ∧ e2eConds s 0 (datedSlot {}) = [] ∧
       (datedSlot {}).frozen = false ∧ (datedSlot {}).mark = none) := by
  decide +kernel

theorem wit_CheckerUnits_frame :
    (∀ x ∈ [{ datedSlot {} with frozen := true }, { datedSlot {} with mark := some (7, 3) }, { datedSlot {} with tstamp := 1 }],
      submitted (slotState x) 0 = some (0, x, {}, graph)) ∧
    e2eConds (datingState {}) 0 { datedSlot {} with frozen := true } = [] ∧
    e2eConds (datingState {}) 0 { datedSlot {} with mark := some (7, 3) } = [] ∧
    e2eConds (datingState {}) 0 { datedSlot {} with tstamp := 1 } = [(3, 2)] := by
  decide +kernel

/-- A graph with a record area, and a slot with one record to judge. -/
def recordGraph : Graph := { graph with pl := { graph.pl with surfaces := [{ sid := 0, size := 128, addr := 2 ^ 30 }] } }
def recordDating : Dating := { framed := true, nrec := some 1 }
def recordState : State :=
  { datingState recordDating with graphs := [(0, recordGraph)], fwl := { dram := [(0, { first := 2 ^ 18, last := 2 ^ 18, flags := 0x80000000 })] } }

theorem wit_CheckerUnits_record :
    let s := recordState
    submitted s 0 = some (0, datedSlot recordDating, recordDating, recordGraph) ∧ submissionNext s 0 = true ∧
      recordDating.table = none ∧ recordDating.frame = none ∧ recordDating.verdicts.length < recordDating.nrec.getD 0 ∧
      recordArea recordGraph = some { sid := 0, size := 128, addr := 2 ^ 30 } ∧ Readable s 200 recordGraph.safety (2 ^ 30) 128 ∧
      (List.range 20).any (slotWork s) = true := by
  unfold Readable; decide +kernel
/-- The descriptor of lantern set 127: engine 1 of the vision engines' first kind, four chunks, its block and its output at
2^30 in a secure region; and the state with the set enabled. -/
def lanternBytes : List Byte :=
  let d := [0, 1, 4, 1] ++ leBytes 4 64 ++ zeros 8 ++ leBytes 8 (2 ^ 30) ++ leBytes 8 (2 ^ 30) ++ zeros 28
  d ++ leBytes 4 (crc32c d)
def lanternRegs : List (Nat × Reg) :=
  (chkBase + 0x80 + 12, 0x80000000) :: (List.range 16).map fun i => (chkBase + 0x1000 + 64 * 127 + 4 * i, reg (leAt lanternBytes (4 * i) 4))
def lanternState : State :=
  let s := lanternRegs.foldl (fun s p => setR s p.1 p.2) (eveState 17 running (wordLantern 1 255 127))
  { s with fwl := { s.fwl with dram := [secureRegion (2 ^ 30)] } }

theorem wit_CheckerBackground :
    (let s := { withRegs [(chkBase + 0x1000 + 64 * 127 + 4, 32769)] with chk := { jobs := [.sig 127 1] } }
     s.chk.st = 1 ∧ s.chk.mismatch = 0 ∧ (List.range 20).any (slotWork s) = false ∧ s.chk.jobs = .sig 127 1 :: [] ∧
       32768 < lsetWord s 127 1 - s.chk.sigPos) ∧
    (let s := { withRegs [(chkBase + 0x1000 + 64 * 127 + 32, 0)] with chk := { jobs := [.sig 127 1] } }
     (List.range 20).any (slotWork s) = false ∧ lsetWord s 127 1 - s.chk.sigPos ≤ 32768 ∧ (getLSet s 127).judged = false ∧
       (([] : List Byte).foldl (fun c b => crcShift 8 (c.xor b.toNat)) s.chk.sigCrc).xor 0xFFFFFFFF = lsetWord s 127 8 ∧
       (getLSet s 127).done < 256) ∧
    (let v : AuditVal := { unit := 197, epoch := 1, busy := false }
     let s := { State.reset with chk := { jobs := [.audit [v]] } }
     (List.range 20).any (slotWork s) = false ∧ s.chk.jobs = .audit [v] :: [] ∧ v.awake = false ∧ v.busy = false ∧ v.mute = false ∧
       (getUnit s v.unit).epoch = v.epoch) ∧
    (let v : AuditVal := { unit := 0, epoch := 2, busy := false }
     let s := { State.reset with chk := { jobs := [.audit [v]] } }
     (List.range 20).any (slotWork s) = false ∧ v.awake = false ∧ v.busy = false ∧ v.mute = false ∧
       (getUnit s v.unit).epoch ≠ v.epoch) := by
  decide +kernel

theorem wit_LanternCycles :
    (let s := { seqState 17 0 {} {} with chk := { nextCycle := some 5 } }
     runningGraph s 17 = some (0, graph) ∧ s.chk.nextCycle = some 5 ∧ s.chk.cycle = false ∧ (getSeq s 17).acts.length < 4) ∧
    (let s := { seqState 18 1 {} {} with seqs := [(18, { newCtx := 1 })] }
     runningGraph s 18 = some (1, graph) ∧ (getSeq s 18).acts.length < 4) ∧
    (let s := lanternState
     Issues s 17 1 (wordGraph (wordLantern 1 255 127)) (wordLantern 1 255 127) ∧ selSlot s 17 1 .cs = .act 0 ∧ lsetOk s 127 1 = true ∧
       (getLSet s 127).judged = false ∧ (getLSet s 127).next < lsetWord s 127 0 / 2 ^ 16 % 256 ∧ (freeEntry s 17).isSome ∧
       s.power.dozePend = false ∧ graph.safety = false ∧ (getCtx s 17 1).win = none ∧ openWindows s 17 < 12) ∧
    (let s := { lanternState with chk := { cycle := true, nextCycle := some 9, sets := [(127, { judged := true })] } }
     timeRuns s = true ∧ s.chk.cycle = true ∧ s.chk.jobs = [] ∧ ((enabledSets s).all fun l => (getLSet s l).judged) = true) ∧
    (let k : Task := { st := .running, ttype := 4, inst := 7, units := [159], lid := some 127, first := some 0 }
     getTask (taskState k) 10751 = some k ∧ k.lid = some 127 ∧ k.first = some 0 ∧ k.ttype ≤ 4) ∧
    (let s := State.reset
     (getLSet s 127).judged = false ∧ s.chk.st ≠ 2 ∧ (getLSet s 127).done < 256) := by
  unfold Issues; decide +kernel

theorem wit_QueueWords_delivers :
    let s := { State.reset with queues := [(4095, queue)] }
    let q1 := { queue with openPkt := some { producer := 195, seqNo := some queue.seq }, seq := (queue.seq + 1) % 2 ^ 32 }
    getQ s 4095 = queue ∧ queue.cfg.valid = true ∧ queue.cfg.out = false ∧ queue.cfg.world = false ∧ queue.cfg.mode = .lossless ∧
      0 < queue.cfg.maxpkt ∧ queue.ptrBad = false ∧ queue.discard = [] ∧ queue.openPkt = none ∧ queue.packets = [] ∧
      queue.recvs = [{}] ∧ ({} : Receiver).markers = [] ∧ ({} : Receiver).off = 0 ∧ ({} : Receiver).next ≤ queue.nextNum ∧
      ({} : Receiver).skipTo ≤ queue.nextNum ∧ queue.flushing = false ∧ CellsSound s ∧
      grants (setQ s 4095 q1) 4095 195 = true := by
  unfold CellsSound; decide +kernel

theorem wit_QueueWords_events :
    (let s := { State.reset with queues := [(4095, { queue with dropPend := some (65535, 3) })] }
     (getQ s 4095).dropPend = some (65535, 3) ∧ (getQ s 4095).openPkt = none ∧ canGrant s (getQ s 4095) 1 = true ∧
       CellsSound s) ∧
    (let w : QWaiter := { producer := 195, last := true }
     let s := { State.reset with queues := [(4095, { queue with waits := [w] })] }
     (getQ s 4095).waits = [w] ∧ (enqWord s 4095 w.producer w.word w.last).2 ≠ .waits) ∧
    (let p : Packet := { words := [{ data := 5 }], cells := [false] }
     let q := { queue with
       cfg := { queue.cfg with depth := 1 }, packets := [p], nextNum := 1, waits := [{ producer := 195, since := 3 }] }
     let s := { State.reset with queues := [(7, q)] }
     waitingQueues s = [(7, 3, { queue.cfg with depth := 1 })] ∧ (getQ s 7).openPkt = none ∧ timeRuns s = true ∧
       (getQ s 7).packets.getLast? = some p ∧
       ∀ w ∈ (getQ s 7).waits,
         grants (advance s (max (3 + 5000000) ((s.pool.lastBreak.map (· + 1000000)).getD 0))) 7 w.producer = false) := by
  unfold CellsSound; decide +kernel

theorem wit_QueueManager_commands :
    (let s := { up with queues := [(4095, queue)] }
     Reaches s true false (qmBase + 0x30) ∧ Reaches s false false (qmBase + 0x30) ∧ flag s (qmBase + 0x34) 31 = false ∧
       qValid s 4095 = true ∧ (getQ s 4095).cfg.world = false ∧ (getQ s 4095).cfg.sys = false ∧ (getQ s 4095).flushing = false ∧
       s.pool.st = .run ∧ (getQ s 4095).ptrBad = false ∧ NoSquashWaits s) ∧
    (let s := { up with queues := [(4095, { queue with flushing := true })] }
     (getQ s 4095).flushing = true ∧ (getQ s 4095).flushTail = none ∧ ∀ r ∈ (getQ s 4095).recvs, r.off = 0) := by
  unfold Reaches NoSquashWaits; decide +kernel

theorem wit_QueueManager_pool :
    (∃ s : State, s.pool.st = .test ∧ s.pool.badQueues = [] ∧ s.pool.ptrMemBad = false) ∧ (∃ s : State, s.pool.st = .build ∧ s.pool.weak = 64) ∧
    (∃ s : State, s.pool.st = .run ∧ freeAdmitted s + heldBy s false ≠ admittedCells s) ∧
    (∃ s : State, s.pool.st = .rebuild ∧ ∀ p ∈ s.queues, tagsDiffer p.2 = false) :=
  ⟨⟨{ State.reset with pool := { st := .test } }, by decide⟩, ⟨{ State.reset with pool := { st := .build, weak := 64 } }, by decide⟩,
   ⟨{ State.reset with pool := { st := .run, lost := 1 } }, by decide +kernel⟩, ⟨{ State.reset with pool := { st := .rebuild } }, by decide +kernel⟩⟩

/-! ### The control window and the firewall -/

theorem wit_ControlWindow :
    (ctlReach up true = true ∧ ctlReach up false = true ∧ up.power.st = .run) ∧ (blockOf 0xFFFFFFC = none) ∧
    (let s := { up with health := { up.health with tripped := true } }
     ctlReach s true = true ∧ s.power.st = .run ∧ (blockOf (seqBase 19)).isSome ∧ blockOn s (seqBase 19) = false) ∧
    (let s := upRegs [(fwlBase + 0x80 + 20, 0xFFFFFFFF), (fwlBase + 0x80 + 24, 0xF)]
     ctlReach s false = true ∧ ∃ b, blockOf (seqBase 19) = some b ∧ blockOn s (seqBase 19) = true ∧ worldOf s b (seqBase 19) = true) ∧
    (let s := { up with power := { st := .doze } }
     s.power.st = .doze ∧ ctlReach s false = true ∧ ctlReach (dozeWake s) false = true ∧ ctlReach s true = true ∧
       ctlReach (dozeWake s) true = true) := by
  refine ⟨by decide +kernel, by decide +kernel, by decide +kernel, ⟨by decide +kernel, ?_⟩, by decide +kernel⟩
  exact ⟨(blockOf (seqBase 19)).get (by decide +kernel), (Option.some_get _).symm, by decide +kernel, by decide +kernel⟩
theorem wit_RegisterWriteByType :
    ∃ b r, blockOf (strBase 3 + 4) = some b ∧ rowOf (strBase 3 + 4) = some r ∧ ctlReach up false = true ∧ up.power.st = .run ∧
      (strBase 3 + 4) % 4 = 0 ∧ blockOn up (strBase 3 + 4) = true ∧ worldOf up b (strBase 3 + 4) = false ∧ b.base = strBase 0 ∧
      r.outOfRange 0xFFFF = 0 ∧ r.outOfRange 1 = 0 ∧ r.outOfRange 0 ≠ 0 ∧ strBase 3 + 4 ≠ htsBase + 0x8040 :=
  ⟨(blockOf (strBase 3 + 4)).get (by decide +kernel), (rowOf (strBase 3 + 4)).get (by decide +kernel), (Option.some_get _).symm,
   (Option.some_get _).symm, by decide +kernel, by decide +kernel, by decide +kernel, by decide +kernel, by decide +kernel,
   by decide +kernel, by decide +kernel, by decide +kernel, by decide +kernel, by decide⟩

/-- A state whose DRAM table has entry 3 over page 2^18, with the flags given. -/
def fwState (flags : Reg) : State :=
  { State.reset with fwl := { dram := [(3, { first := 2 ^ 18, last := 2 ^ 18, flags := flags })] } }

theorem wit_FirewallDecision :
    (0 < 4096 ∧ 0 + 4096 ≤ 4096 ∧ regionOf (fwState 0).fwl.dram (2 ^ 18) = none ∧
      (regionOf (fwState 0x80000000).fwl.dram (2 ^ 18)).isSome ∧ regionOf (fwState 0x80000000).fwl.dram (2 ^ 18 + 1) = none) ∧
    (let s := fwState 0xA0000000
     spaceOf (2 ^ 30) = .dram ∧ s.fwl.vlog = [] ∧
       fwDecide s.fwl.dram 202 (unitWorld s 202) false true (2 ^ 30 + 4095) (min 1 (Config.dramBytes - (2 ^ 30 + 4095))) = some (1, 3) ∧
       fwDecide s.fwl.dram 202 (unitWorld s 202) false true (2 ^ 30 + 4096) (min 1 (Config.dramBytes - (2 ^ 30 + 4096))) = some (2, 255)) := by
  decide +kernel

theorem wit_FirewallRegisters :
    (Reaches up true true (fwlBase + 0x80 + 4 * 5) ∧ flag up (fwlBase + 8) 0 = false ∧
      ∀ b, b < 32 → (getR up (fwlBase + 0x80 + 4 * 5)).getLsbD b ≠ (0xFFFFFFFF : Reg).getLsbD b →
        holdsWork up (32 * 5 + b) = false ∧ pinnedUnit up (32 * 5 + b) = false) ∧
    Reaches up true true (fwlBase + 0x1000 + 16 * 255 + 4 * 3) ∧ Reaches up true true (fwlBase + 0x2000 + 16 * 63 + 4 * 3) ∧
    Reaches up true true (fwlBase + 0x34) := by
  unfold Reaches; decide +kernel

theorem wit_FirewallRegisters_entry :
    let x : Region := { first := 1, last := 2, flags := 0 }
    (regionOk true x (regionWord true x 2 0xA0000000) = true ∧ regionOk false x (regionWord false x 2 0x80000000) = true) ∧
    ({ x with flags := 0xC0000000 } : Region).flags.getLsbD 30 = true ∧
    (({ x with flags := 0x80000000 } : Region).flags.getLsbD 31 = true ∧
      (regionWord false { x with flags := 0x80000000 } 0 0).flags.getLsbD 31 = true) ∧
    ((regionWord true x 1 0).last < (regionWord true x 1 0).first) ∧
    (Config.somBytes / 4096 ≤ (regionWord true x 1 0x7FFF).last) ∧
    ((regionWord false x 2 0xA0000000).flags.getLsbD 29 = true ∧ (regionWord false x 2 0xA0000000).flags.getLsbD 25 = false) ∧
    ((regionWord true x 2 0x82000000).flags.getLsbD 25 = true) := by
  decide +kernel

/-! ### The mailbox and its commands -/

/-- A state in which both boxes accept commands: the handshakes are over; and with registers of its own. -/
def boxState : State :=
  { up with hif := { up.hif with pf0 := { up.hif.pf0 with done := true }, pf1 := { up.hif.pf1 with done := true } } }
def boxRegs (l : List (Nat × Reg)) : State := l.foldl (fun s p => setR s p.1 p.2) boxState

theorem wit_Mailbox :
    (boxCommand (.version (.box true) 7 1 2) = some (true, 7, 0x0701, [1, 2]) ∧ fnReach boxState 1 = true ∧ boxState.power.st = .run ∧
      bit 31 (getN (boxRegs [(boxAt 1 + 4, 0x80000000)]) (boxAt 1 + 4)) = true ∧ bit 31 (getN boxState (boxAt 1 + 4)) = false ∧
      ctlReach boxState true = true ∧ knownOp ((0xFFFFFFFF : BitVec 64).toNat % 2 ^ 16) = false) ∧
    (let s := { up with firm := { up.firm with fw := 2 } }
     fnReach s 0 = true ∧ s.firm.fw = 2 ∧ recoveryOp 0x0101 = false ∧ bit 31 (getN s (boxAt 0 + 4)) = false) ∧
    (up.firm.fw ≠ 2 ∧ (getFn up 1).done = false ∧ (0x0101 : Nat) ∉ [0x0701, 0x0301, 0x0306, 0x0401, 0x0403] ∧ fnReach up 1 = true) ∧
    (let s := { boxState with fwl := { boxState.fwl with fuses := { boxState.fwl.fuses with prov := true } } }
     s.firm.fw ≠ 2 ∧ (getFn s 0).done = true ∧ secureOp 0x0204 = true ∧ s.fwl.fuses.prov = true ∧ fnReach s 0 = true) := by
  decide +kernel
/-! ### A container -/

theorem leNat_leBytes (n v : Nat) : leNat (leBytes n v) = v % 256 ^ n := by
  induction n generalizing v with
  | zero => simp [leBytes, leNat, Nat.mod_one]
  | succ n ih =>
    have e : 256 ^ (n + 1) = 256 * 256 ^ n := Nat.pow_succ'
    rw [leBytes, leNat, ih, BitVec.toNat_ofNat, e, Nat.mod_mul]

theorem crcShift_lt (n c : Nat) (h : c < 2 ^ 32) : crcShift n c < 2 ^ 32 := by
  induction n generalizing c with
  | zero => exact h
  | succ n ih =>
    unfold crcShift
    apply ih
    split
    · exact Nat.xor_lt_two_pow (by omega) (by decide)
    · omega

theorem crc32c_lt (l : List Byte) : crc32c l < 2 ^ 32 := by
  unfold crc32c
  apply Nat.xor_lt_two_pow _ (by decide)
  have : ∀ (l : List Byte) (c : Nat), c < 2 ^ 32 → l.foldl (fun c b => crcShift 8 (c.xor b.toNat)) c < 2 ^ 32 := by
    intro l
    induction l with
    | nil => exact fun c h => h
    | cons b t ih =>
      intro c h
      apply ih
      apply crcShift_lt
      exact Nat.xor_lt_two_pow h (by have := b.isLt; omega)
  exact this l _ (by decide)

/-- The sections of a small graph for a utility sequencer: the section table at 128, a `HALT` at 192, a flag word at 256 and
the cost table of one stage at 320 (R65, R66, R97, R135, R136). -/
def sectionBytes : List Byte :=
  let sect (type off len : Nat) := leBytes 2 type ++ leBytes 2 0 ++ leBytes 4 off ++ leBytes 4 len ++ leBytes 4 0
  sect 1 192 8 ++ sect 6 256 4 ++ sect 7 320 64 ++ zeros 16 ++ leBytes 8 (2 ^ 56) ++ zeros 56 ++ leBytes 4 0 ++ zeros 60 ++
    (leBytes 2 1 ++ leBytes 2 1 ++ [4, 1] ++ zeros 10) ++
    ([0, 0, 0, 1, 0] ++ zeros 3 ++ leBytes 4 0xFFFFFFFF ++ leBytes 4 0xFFFFFFFF ++ leBytes 4 1 ++ zeros 28)

/-- Its header up to HCRC (R63): the digest is whatever SHA-384 gives. -/
def headBytes : List Byte :=
  leBytes 4 0x1A425A58 ++ leBytes 2 1 ++ leBytes 2 0 ++ leBytes 2 1 ++ leBytes 2 0x100 ++ leBytes 2 0x100 ++ leBytes 2 8 ++
    leBytes 4 384 ++ leBytes 4 3 ++ leBytes 4 128 ++ leBytes 4 1 ++ leBytes 4 1 ++ [4, 0, 1, 1] ++ leBytes 4 1 ++ leBytes 4 0 ++
    leBytes 2 1 ++ leBytes 2 1 ++ leBytes 2 1 ++ zeros 10 ++ (leBytes 48 (Config.sha384 sectionBytes).toNat).reverse ++ zeros 12

/-- The container. -/
def container : List Byte := headBytes ++ (leBytes 4 (crc32c headBytes) ++ sectionBytes)

theorem headBytes_length : headBytes.length = 124 := by decide +kernel

theorem container_crc : (leAt container 124 4 == crc32c (container.take 124)) = true := by
  have h1 : container.take 124 = headBytes := List.take_left' headBytes_length
  have h2 : container.drop 124 = leBytes 4 (crc32c headBytes) ++ sectionBytes := List.drop_left' headBytes_length
  have h3 : (leBytes 4 (crc32c headBytes) ++ sectionBytes).take 4 = leBytes 4 (crc32c headBytes) := List.take_left' rfl
  have h4 : leAt container 124 4 = crc32c headBytes := by
    unfold leAt slice
    simp only [h2, h3]
    have : zeros (4 - (leBytes 4 (crc32c headBytes)).length) = [] := rfl
    rw [this, List.append_nil, leNat_leBytes]
    exact Nat.mod_eq_of_lt (crc32c_lt _)
  rw [h1, h4]; simp

theorem container_header : headerStatus container = 0 := by
  unfold headerStatus
  rw [container_crc]
  decide +kernel

theorem container_data : slice container 0 (leAt container 16 4) = container := by
  have : leAt container 16 4 = 384 := by decide +kernel
  have h : container.length = 384 := by decide +kernel
  rw [this]
  unfold slice
  simp only [List.drop_zero, List.take_of_length_le (Nat.le_of_eq h), h]
  simp [zeros]

theorem container_sections : sectionStatus container (sectsOf container) = 0 := by decide +kernel

theorem container_digest : digestOk container (sectsOf container) = true := by
  unfold digestOk
  have h : (sectsOf container).filter (fun x => x.type == 10) = [] := by rfl
  rw [h]
  simp only [List.foldl_nil]
  have h1 : container.drop 128 = sectionBytes := by rfl
  have h2 : slice container 64 48 = (leBytes 48 (Config.sha384 sectionBytes).toNat).reverse := by rfl
  rw [h1, h2]
  unfold beNat
  rw [List.reverse_reverse, leNat_leBytes, Nat.mod_eq_of_lt (by have := (Config.sha384 sectionBytes).isLt; omega)]
  simp

/-- A state whose box 0 reads the container at 2^30, with graphs of its own. -/
def loadState (graphs : List (Nat × Graph)) : State :=
  { boxState with mem := memPutAll [] (2 ^ 30) container, graphs := graphs,
                  fwl := { boxState.fwl with dram := boxState.fwl.dram ++ [(255, { first := 2 ^ 18, last := 2 ^ 18, flags := 0x80000000 })] } }

/-- The state in which GRAPH_LOAD of it for sequencer 19 does its work. -/
def loadBoxed (graphs : List (Nat × Graph)) : State := boxed (loadState graphs) 0 (addrArgs (2 ^ 30) ++ [384, 19])

theorem loadBoxed_peek (g : List (Nat × Graph)) : container = peek (loadBoxed g) (2 ^ 30) 384 := by
  have h : container.length = 384 := by decide +kernel
  have hm : (loadBoxed g).mem = memPutAll [] (2 ^ 30) container := by
    unfold loadBoxed; rw [boxed_fields]; dsimp only [loadState]
  unfold peek
  apply List.ext_getElem
  · simp [h]
  · intro i h1 h2
    rw [h] at h1
    simp only [List.getElem_map, List.getElem_range, hm]
    rw [memGet_memPutAll _ _ _ _ rfl]
    have : 2 ^ 30 ≤ 2 ^ 30 + i ∧ 2 ^ 30 + i < 2 ^ 30 + container.length := by omega
    rw [if_pos this]
    simp [nth, h, h1]

theorem container_loads (s : State) (b : Nat) (h1 : worldsOk s b 19 false = true) (h2 : declStatus s 19 (xzbOf container) = 0) :
    loadStatus s b 19 container = 0 := by
  have e1 : bit 1 (xzbOf container).hdr.gflags = false := by decide +kernel
  have e2 : (bit 3 (xzbOf container).hdr.gflags == decide (16 ≤ 19)) = true := by decide +kernel
  have e3 : signatureOk s container (sectsOf container) = true := by
    have : (sectsOf container).find? (fun x => x.type == 10) = none := rfl
    have h : leAt container 14 2 % 4 = 0 := by decide +kernel
    unfold signatureOk; rw [this]; simp [h]
  unfold loadStatus
  simp only [container_header, container_data, container_sections, container_digest, e1, e2, e3, h1, h2, orStatus, if_true]
  rfl

/-- A graph that sheds keeps every other one out (R152). -/
def shedGraph : Graph := { graph with hdr := { graph.hdr with gflags := 8 }, shed := true }

theorem wit_GraphCommands_load :
    let s := loadState []
    let s1 := loadBoxed []
    (Accepts s false 0x0101 ∧ boxSpan s1 0 false (2 ^ 30) 384 = true ∧ container = peek s1 (2 ^ 30) 384 ∧
      getGraph s 19 0 = none ∧ getGraph s 19 1 = none ∧ loadStatus s1 0 19 container = 0) := by
  refine ⟨by unfold Accepts; decide +kernel, by decide +kernel, loadBoxed_peek [], by decide +kernel, by decide +kernel, ?_⟩
  exact container_loads _ _ (by decide +kernel) (by decide +kernel)

theorem wit_GraphCommands_verdicts :
    (let s1 := loadBoxed []
     (admitted (shedding s1) (loadedSet s1 ++ [(19, graphOf (xzbOf container))]) 19 (loadState []).cls).code = 0 ∧
       (placeGraph s1 19 0 (xzbOf container) (graphOf (xzbOf container))).2 = none) ∧
    (let s1 := loadBoxed [(0, shedGraph)]
     (admitted (shedding s1) (loadedSet s1 ++ [(19, graphOf (xzbOf container))]) 19 (loadState []).cls).code ≠ 0) ∧
    (let s1 := loadBoxed [(36, { hdr := { gflags := 8, deadline := 0, nflag := 15359 }, pl := { flagBase := 4098 } })]
     (admitted (shedding s1) (loadedSet s1 ++ [(19, graphOf (xzbOf container))]) 19 (loadState []).cls).code = 0 ∧
       (placeGraph s1 19 0 (xzbOf container) (graphOf (xzbOf container))).2 = some 2) := by
  decide +kernel

/-- The state with a graph that runs in context 1 of sequencer 19, or waits there, or in context 0, for the other commands. -/
def cmdState (g : Graph) (c : Nat) : State := { boxState with graphs := [(38 + c, g)] }
def readyGraph : Graph := { graph with st := .ready, hdr := { graph.hdr with gflags := 8, deadline := 0 } }
def utilityGraph : Graph := { readyGraph with st := .running }

theorem wit_GraphCommands_others :
    (let s := cmdState readyGraph 0
     let s1 := boxed s 1 (19 :: addrArgs 0xFFFFFFFFFFFFFFFF)
     Accepts s true 0x0102 ∧ Accepts s true 0x0105 ∧ boxMay 1 (unitWorld s1 195) = true ∧ cmdPending s1 19 = false ∧
       getGraph s 19 0 = some readyGraph ∧ readyGraph.st = .ready) ∧
    (let s := cmdState utilityGraph 1
     let s1 := boxed s 0 (19 :: addrArgs 0)
     Accepts s false 0x0103 ∧ boxMay 0 (unitWorld s1 195) = true ∧ cmdPending s1 19 = false ∧
       runningGraph s1 19 = some (1, utilityGraph)) ∧
    Accepts (loadState []) false 0x0106 ∧
    Accepts (loadState [(39, utilityGraph)]) false 0x0104 ∧ Accepts (loadState []) false 0x0101 := by
  unfold Accepts; decide +kernel

/-- The arguments of GRAPH_REPLACE placed, and the new graph loaded beside the running one. -/
def replaceBoxed : State := boxed (loadState [(39, utilityGraph)]) 0 (addrArgs (2 ^ 30) ++ [384, 19] ++ addrArgs 0)

theorem wit_GraphCommands_replace :
    cmdPending replaceBoxed 19 = false ∧ runningGraph replaceBoxed 19 = some (1, utilityGraph) ∧
      getGraph replaceBoxed 19 (1 - 1) = none ∧ boxSpan replaceBoxed 0 false (2 ^ 30) 384 = true ∧
      loadGraph replaceBoxed 0 19 (1 - 1) (some 1) container
        = ((placeGraph replaceBoxed 19 0 (xzbOf container) (graphOf (xzbOf container))).1, .done 0 []) ∧
      (getGraph (placeGraph replaceBoxed 19 0 (xzbOf container) (graphOf (xzbOf container))).1 19 (1 - 1)).isSome = true := by
  refine ⟨by decide +kernel, by decide +kernel, by decide +kernel, by decide +kernel, ?_, by decide +kernel⟩
  have h := container_loads replaceBoxed 0 (by decide +kernel) (by decide +kernel)
  have h2 : (admitted (shedding replaceBoxed) (setWithout replaceBoxed 19 [1] ++ [(19, graphOf (xzbOf container))]) 19 replaceBoxed.cls).code = 0 := by
    decide +kernel
  have h3 : (bothFit (loadedSet replaceBoxed ++ [(19, graphOf (xzbOf container))]) 19 replaceBoxed.cls).code = 0 := by decide +kernel
  have h4 : (placeGraph replaceBoxed 19 0 (xzbOf container) (graphOf (xzbOf container))).2 = none := by decide +kernel
  unfold loadGraph
  simp only [h, Option.toList]
  generalize hp : placeGraph replaceBoxed 19 0 (xzbOf container) (graphOf (xzbOf container)) = p at h4
  obtain ⟨p1, p2⟩ := p
  simp only at h4
  subst h4
  simp [h2, h3]

theorem wit_GraphCommands_failed : headerStatus [] = 1 ∧ loadStatus State.reset 0 19 [] = 1 := by decide +kernel
theorem wit_GraphLife :
    (let g := { readyGraph with startAt := some 5 }
     let s := cmdState g 1
     getGraph s 19 1 = some g ∧ s.power.st = .run ∧ 2 ≤ s.power.bootStep ∧ s.power.dozePend = false ∧
       g.startAt = some 5 ∧ g.st = .ready) ∧
    (let g := { utilityGraph with stopAt := some 5 }
     getGraph (cmdState g 1) 19 1 = some g ∧ g.stopAt = some 5) ∧
    (let g := { readyGraph with takeAt := some 5 }
     let s := { cmdState g 1 with graphs := [(38, utilityGraph), (39, g)] }
     getGraph s 19 1 = some g ∧ g.takeAt = some 5 ∧ getGraph s 19 (1 - 1) = some utilityGraph ∧ utilityGraph.st = .running) ∧
    (let g := { utilityGraph with st := .draining }
     let s := { cmdState g 1 with ctxs := [(39, { rst := .run })] }
     getGraph s 19 1 = some g ∧ slotsFree s 19 1 = true ∧ replaced s 19 1 = false ∧ (getCtx s 19 1).rst = .run) ∧
    (let g := { utilityGraph with st := .draining }
     let s := { cmdState g 1 with graphs := [(38, utilityGraph), (39, g)] }
     getGraph s 19 1 = some g ∧ slotsFree s 19 1 = true ∧ g.st = .draining ∧ replaced s 19 1 = true ∧ 1 = 1 - (getSeq s 19).newCtx) := by
  decide +kernel

/-- A region over the sixteen pages from 2^30 on, which both worlds read and write. -/
def bufferState : State :=
  { boxState with fwl := { boxState.fwl with dram := [(0, { first := 2 ^ 18, last := 2 ^ 18 + 15, flags := 0x80000000 })] } }

/-- A buffer of up to 65,536 bytes at 2^30 lies in that region, whatever its length. -/
theorem buffer_fits (s : State) (b : Nat) (write : Bool) (n : Nat) (hn : n ≤ 65536)
    (h : s.fwl.dram = [(0, { first := 2 ^ 18, last := 2 ^ 18 + 15, flags := 0x80000000 })]) :
    boxSpan s b write (2 ^ 30) n = true := by
  have hs : spaceOf (2 ^ 30) = .dram := by decide +kernel
  have hp : ∀ p ∈ pagesOf (2 ^ 30) n, 2 ^ 18 ≤ p ∧ p ≤ 2 ^ 18 + 15 := by
    intro p hp
    simp only [pagesOf, List.mem_map, List.mem_range] at hp
    obtain ⟨i, hi, rfl⟩ := hp
    omega
  have hc : ∀ (k u : Nat) (w sc write : Bool) (p : Nat), 2 ^ 18 ≤ p ∧ p ≤ 2 ^ 18 + 15 → fwCond s.fwl.dram k u w sc write p = none := by
    intro k u w sc write p hp
    have hr : regionOf s.fwl.dram p = some (0, { first := 2 ^ 18, last := 2 ^ 18 + 15, flags := 0x80000000 }) := by
      rw [h]; unfold regionOf
      have : bit 31 2147483648 = true := by decide
      simp [this]
      omega
    unfold fwCond
    rw [hr]
    have e1 : bit 26 2147483648 = false := by decide
    have e2 : bit 29 2147483648 = false := by decide
    have e3 : bit 28 2147483648 = false := by decide
    have e4 : bit 27 2147483648 = false := by decide
    simp [e1, e2, e3, e4]
  have hf : ∀ u w sc, fwDecide s.fwl.dram u w sc write (2 ^ 30) n = none := by
    intro u w sc
    unfold fwDecide
    rw [List.findSome?_eq_none_iff]
    intro c _
    rw [List.findSome?_eq_none_iff]
    intro p hpp
    exact hc _ _ _ _ _ _ (hp p hpp)
  have hd : 2 ^ 30 + n ≤ Config.dramBytes := by
    have : 2 ^ 30 + 65536 ≤ Config.dramBytes := by decide
    omega
  unfold boxSpan
  simp only [hs, hf, Option.isNone_none, Bool.and_true, decide_eq_true_eq]
  exact hd

theorem wit_ClassAndTable_almanac (a : List Nat) (c : List (Nat × List Nat × List (Nat × Nat))) :
    Accepts bufferState true 0x0107 ∧
      boxSpan (boxed bufferState 1 (2 :: addrArgs (2 ^ 30))) 1 true (2 ^ 30) (Config.almanacImage a c).length = true :=
  ⟨by unfold Accepts; decide +kernel, buffer_fits _ _ _ _
    (by have := (Config.almanacSize a c).isLt; simp only [Config.almanacImage, List.length_map, List.length_range]; omega)
    (by rw [boxed_fields]; rfl)⟩

theorem wit_ClassAndTable_cooling :
    (let s := { boxState with graphs := [(0, { hdr := { cclass := 3 } })] }
     Accepts s true 0x0108 ∧ boxMay 1 (flag (boxed s 1 [2]) (fwlBase + 0xA0) 2) = true ∧ s.power.entering = none ∧
       (s.graphs.find? (fun p => !bit 2 p.2.hdr.cclass)).isSome) ∧
    (let s := { boxState with graphs := [(38, { shedGraph with st := .ready })] }
     (s.graphs.find? (fun p => !bit 1 p.2.hdr.cclass)) = none ∧
       (admitted (shedding (boxed s 1 [1])) (loadedSet (boxed s 1 [1])) 0xFF 1).code ≠ 0) ∧
    ((boxState.graphs.find? (fun p => !bit 0 p.2.hdr.cclass)) = none ∧
       (admitted (shedding (boxed boxState 1 [0])) (loadedSet (boxed boxState 1 [0])) 0xFF 0).code = 0 ∧
       ∀ n, n < 16 → runningGraph boxState n = none) ∧
    (let s := { boxState with graphs := [(0, { utilityGraph with hdr := { utilityGraph.hdr with gflags := 0, deadline := 33333 } })] }
     (s.graphs.find? (fun p => !bit 0 p.2.hdr.cclass)) = none ∧
       (admitted (shedding (boxed s 1 [0])) (loadedSet (boxed s 1 [0])) 0xFF 0).code = 0 ∧ (runningGraph s 0).isSome) := by
  unfold Accepts; decide +kernel

/-- A graph with a surface of 4,096 bytes, and the arguments that register it as a table of kind 0. -/
def tableGraph : Graph := { readyGraph with pl := { graph.pl with surfaces := [{ sid := 9, size := 4096, addr := 2 ^ 30 }] } }

theorem wit_ClassAndTable_table :
    let s := { boxState with graphs := [(38, tableGraph)] }
    let args : List Reg := [63, 19, 9, 0, 0, 1, 16, 16, 16, 0, 0, 0, 0]
    Accepts s false 0x0109 ∧ getGraph s (argN args 1) 0 = some tableGraph ∧
      (surfaceOf tableGraph (argN args 2)).map (fun f => tableFits (argN args 3) (argN args 4) (argN args 6) (argN args 7)
        (arg64 args 8) (arg64 args 10) (argN args 12) f.addr f.size) = some true ∧
      boxMay 0 tableGraph.secure = true ∧ argN args 0 < 64 ∧ argN args 3 < 2 ∧ argN args 5 = 1 + 2 * b2n tableGraph.secure := by
  unfold Accepts; decide +kernel

theorem wit_ServiceCommands : Accepts boxState true 0x0301 ∧ Accepts boxState false 0x0306 ∧ Accepts boxState true 0x0307 ∧
    secureStaging boxState Config.stagingS Config.tokenLen = true := by
  refine ⟨by unfold Accepts; decide +kernel, by unfold Accepts; decide +kernel, by unfold Accepts; decide +kernel, ?_⟩
  have h : Config.tokenLen ≤ 65536 := by have := Config.tokenSize.isLt; unfold Config.tokenLen; omega
  unfold secureStaging inStaging
  simp
  exact .inl (by omega)

theorem wit_UnitCommands :
    (∀ op ∈ [0x0302, 0x0303, 0x0304, 0x0305], Accepts boxState true op) ∧ managed 197 = true ∧ managed 0 = true ∧
    (getUnit boxState 197).mstate = .enabled ∧
    (let s := { boxState with units := [(197, { mstate := .fenced }), (0, { mstate := .poweredDown }), (1, { mstate := .retired })] }
     (getUnit s 197).mstate = .fenced ∧ (getUnit s 0).mstate = .poweredDown ∧ (getUnit s 1).mstate = .retired) ∧
    (pinnedUnit boxState 197 = false ∧ busy boxState 197 = false) ∧
    (let s := { boxState with graphs := [(0, { lines := [{ type := 7, inst := 62 }] })] }
     (getUnit s 126).mstate = .enabled ∧ pinnedUnit s 126 = true) ∧
    (let s := { boxState with graphs := [(0, {})] }
     (getUnit s 160).mstate = .enabled ∧ pinnedUnit s 160 = false ∧ busy s 160 = true) := by
  unfold Accepts; decide +kernel

/-- A diary with one entry in flash and one that waits. -/
def diaryItem : DiaryItem := { seq := 3, kind := 0x12, sev := 0, secure := false, time := 0, data := zeros 32 }

theorem wit_DiaryCommands :
    (let s := { bufferState with diary := { flash := [{ item := diaryItem, chain := 0 }], nextSeq := 4 } }
     Accepts s true 0x0401 ∧ entriesFrom s 3 65536 = [{ item := diaryItem, chain := 0 }] ∧
       boxSpan (boxed s 1 ([3, 65536] ++ addrArgs (2 ^ 30))) 1 true (2 ^ 30) (64 * (0 + 1)) = true) ∧
    (Accepts boxState true 0x0402 ∧ Accepts boxState false 0x0403 ∧ Accepts boxState false 0x0404 ∧
      boxState.diary.buffer.length ≤ 1020) ∧
    (let s := { boxState with diary := { buffer := List.replicate 1021 diaryItem } }
     1020 < s.diary.buffer.length ∧ s.diary.buffer.length < 1024 ∧ Accepts s true 0x0402) ∧
    (let s := { State.reset with diary := { buffer := [diaryItem], nextSeq := 4 } }
     s.diary.buffer = diaryItem :: [] ∧ s.power.st ≠ .off ∧ s.diary.lost = 0 ∧ s.diary.sealWait = false ∧
       (s.diary.nextSeq + 2 ^ 32 - s.diary.sealFrom) % 2 ^ 32 < 65536 ∧ s.firm.flashBad = false ∧
       s.health.railsDown.contains 7 = false ∧ s.diary.flash.length < 4194304) := by
  unfold Accepts; decide +kernel

theorem wit_DiaryCommands_key :
    boxSpan (boxed bufferState 0 (addrArgs (2 ^ 30))) 0 true (2 ^ 30) Config.attestKey.length = true :=
  buffer_fits _ _ _ _
    (by have := Config.attestSize.isLt; simp only [Config.attestKey, List.length_map, List.length_range]; omega)
    (by rw [boxed_fields]; rfl)
/-! ### Update, provisioning, power -/

/-- Boxes that accept, with an image slot at hand: open, and filled as given. -/
def slotB (x : ImageSlot) : State := { boxState with firm := { boxState.firm with slotB := x } }
def badImage : ImageSlot := { open_ := true, size := 512, bytes := [(0, 0), (1, 0), (2, 0), (3, 0)] }
def goodImage : ImageSlot := { open_ := true, size := 512, factory := true }

theorem wit_UpdateCommands :
    (∀ op ∈ [0x0501, 0x0502, 0x0503, 0x0504, 0x0505], Accepts boxState true op ∧ Accepts (slotB goodImage) true op) ∧
    (boxState.firm.flashBad = false ∧ boxState.health.railsDown.contains 7 = false ∧ boxState.firm.trial = false ∧
      (512 : Reg).toNat ≤ 28 * 2 ^ 20 ∧ (29360128 : Reg).toNat = 28 * 2 ^ 20) ∧
    (let s := { boxState with firm := { boxState.firm with trial := true } }
     Accepts s true 0x0501 ∧ Accepts s true 0x0504 ∧ s.firm.trial = true ∧ s.firm.fw = 1 ∧ s.chk.st = 1 ∧ s.firm.svcSinceTrial = false) ∧
    (let s := slotB goodImage
     (getSlotImage s (1 - (selector s).active)).open_ = true ∧ 512 - 4 + 4 ≤ (getSlotImage s (1 - (selector s).active)).size ∧
       secureStaging s Config.stagingS 4 = true ∧ imageSigned s goodImage = true ∧ s.fwl.fuses.fwsvn ≤ slotSvn goodImage) ∧
    (imageSigned (slotB badImage) badImage = false) := by
  unfold Accepts; decide +kernel

theorem wit_UpdateCommands_svn :
    let s := { slotB goodImage with fwl := { boxState.fwl with fuses := { boxState.fwl.fuses with fwsvn := 33 } } }
    Accepts s true 0x0503 ∧ imageSigned s goodImage = true ∧ slotSvn goodImage < s.fwl.fuses.fwsvn :=
  ⟨by unfold Accepts; decide +kernel, by decide +kernel, Config.firmwareSvn.isLt⟩

theorem wit_Provisioning :
    (Accepts boxState false 0x0601 ∧ Accepts boxState true 0x0602 ∧ Accepts up false 0x0701 ∧ boxState.fwl.fuses.prov = false ∧
      boxSpan (boxed bufferState 0 (addrArgs (2 ^ 30))) 0 false (2 ^ 30) 48 = true ∧
      boxSpan (boxed bufferState 1 (addrArgs (2 ^ 30))) 1 false (2 ^ 30) 521 = true ∧ boxState.firm.flashBad = false ∧
      boxState.health.railsDown.contains 7 = false ∧ boxState.fwl.fuses.psvn ≤ leAt (peek boxState (2 ^ 30) 521) 0 1) ∧
    (let s := { boxState with fwl := { boxState.fwl with fuses := { boxState.fwl.fuses with prov := true, psvn := 1 } } }
     Accepts s true 0x0601 ∧ s.fwl.fuses.prov = true ∧ leAt (peek s (2 ^ 30) 521) 0 1 < s.fwl.fuses.psvn) ∧
    ((0x0100 : Reg).toNat / 256 % 256 = 1 ∧ (1 : Reg).toNat % 2 ^ 16 ≠ 0 ∧ (0x0200 : Reg).toNat / 256 % 256 ≠ 1) ∧
    ((0x58 : Fin 128).val = up.pins.smbAddr ∧ (0x59 : Fin 128).val ≠ up.pins.smbAddr ∧ up.power.st = .run ∧ up.power.bootStep = 7 ∧
      up.health.railsDown.contains 8 = false) := by
  unfold Accepts; decide +kernel

theorem wit_PowerCommands :
    (let s := upRegs [(pwrBase + 0x3C, 0xFFFFFFFF)]
     Reaches s true (pwrWorld s) (pwrBase + 0x20) ∧ Reaches s false (pwrWorld s) (pwrBase + 0x20) ∧
       flag s (pwrBase + 0x24) 31 = false ∧ powerBusy s = false ∧ s.power.bootStep = 7 ∧ s.health.tripped = false ∧
       quiet s = true ∧ safetyRuns s = false ∧ getN s (pwrBase + 0x3C) = 0xFFFFFFFF ∧ s.resident = [] ∧
       clusterOn s 12 = true ∧ clusterOn s 0 = true ∧ managed 197 = true ∧ unitOn s 197 = true) ∧
    (let s := { up with graphs := [(39, { utilityGraph with hdr := { utilityGraph.hdr with gflags := 9 } })] }
     Reaches s false (pwrWorld s) (pwrBase + 0x20) ∧ safetyRuns s = decide (quiet s = false) ∧ quiet s = false) ∧
    (let s := { up with power := { st := .run, supply := true }, health := { up.health with railsDown := [1] } }
     Reaches s true (pwrWorld s) (pwrBase + 0x20) ∧ dieOn s = false ∧ clusterOn s 11 = false ∧ unitOn s 0 = false ∧
       s.health.tripped = false) := by
  unfold Reaches; decide +kernel

theorem wit_PowerCommands_safety :
    let s := { up with graphs := [(0, { graph with hdr := { graph.hdr with gflags := 1 } })] }
    Reaches s false (pwrWorld s) (pwrBase + 0x20) ∧ safetyRuns s = true := by
  unfold Reaches; decide +kernel

theorem wit_PowerCommands_mailbox :
    let s := boxRegs [(pwrBase + 0x3C, 0xFFFFFFFF)]
    (∀ op ∈ [0x0201, 0x0202, 0x0203, 0x0204, 0x0205, 0x0206, 0x0207], Accepts s true op) ∧ powerBusy s = false ∧
      s.power.bootStep = 7 ∧ s.health.tripped = false ∧ boxMay 1 (pwrWorld (boxed s 1 [0])) = true ∧ quiet s = true ∧
      safetyRuns s = false ∧ clusterOn s 12 = true ∧ unitOn s 197 = true := by
  unfold Accepts; decide +kernel
theorem wit_PowerEntrySteps :
    (let s := withRegs [(pwrBase + 0x44, 1)]
     getN s (pwrBase + 0x44) ≠ 0 ∧ s.power.st = .run ∧ dieOn s = true ∧ s.power.entering = none ∧ s.power.dozePend = false ∧
       quiet s = true ∧ s.boxes = [] ∧ flag s (pwrBase + 0x24) 31 = false) ∧
    (let s := { State.reset with power := { entering := some (.vigil, 2) } }
     s.power.entering = some (.vigil, 2) ∧ ∀ n, n < 20 → slotsDrained s n = true) ∧
    (let s := { State.reset with power := { entering := some (.solstice, 4) } }
     s.power.entering = some (.solstice, 4) ∧ (∀ n, n < 16 → (getRing s n).spool = []) ∧ s.cdc.write = none ∧ s.hif.nv.up = false) ∧
    (let s := { State.reset with power := { entering := some (.solstice, 6) } }
     s.power.entering = some (.solstice, 6) ∧ s.power.heldWake = false ∧ s.boxes = []) ∧
    (∀ k ∈ [3, 5, 6], ({ State.reset with power := { entering := some (.vigil, k) } } : State).power.entering = some (.vigil, k)) ∧
    (let g : Graph := { pl := { somEnts := [8] } }
     let s := { State.reset with power := { entering := some (.vigil, 5) }, graphs := [(6, g)],
                                 fwl := { State.reset.fwl with som := [(8, { first := 0x400, last := 0x400 })] } }
     let b := Config.somBase + 0x40_0000
     inKeepingBank (b - 1) = true ∧ inKeepingBank b = false ∧ inParked s b = true ∧ inParked s (b + 4095) = true ∧
       inParked s (b + 4096) = false ∧ spaceOf (b + 4096) = .som ∧ spaceOf 0 ≠ .som) := by
  decide +kernel

/-- The host queue of a graph with a packet left, for step 3 of an entry. -/
def hostGraph : Graph := { graph with pl := { graph.pl with hostQ := some 7 } }

theorem wit_WakeAndExit :
    (∀ tgt ∈ [PState.vigil, .solstice], ∀ k ∈ [2, 5, 6],
      let s := { withRegs [(pwrBase + 0x30, 0x1FF)] with power := { entering := some (tgt, k) } }
      s.power.exiting = false ∧ s.power.bootStep = 7 ∧ s.health.tripped = false ∧ s.power.entering = some (tgt, k) ∧
        bit 0 (wakeMask tgt) = true ∧ bit 8 (wakeMask tgt) = true ∧ flag s (pwrBase + 0x30) 8 = true ∧ s.power.restart = [] ∧
        s.boxes = []) ∧
    (∀ st ∈ [PState.doze, .vigil, .solstice],
      let s := { withRegs [(pwrBase + 0x30, 0x1FF), (pwrBase + 0x3C, 1)] with power := { st := st } }
      s.power.exiting = false ∧ s.power.entering = none ∧ bit 8 (wakeMask s.power.st) = true ∧ flag s (pwrBase + 0x30) 8 = true ∧
        wakeTime s = some (2 ^ 32) ∧ s.pool.st = .run ∧ s.boxes = []) := by
  decide +kernel

theorem wit_PinsAndSupply :
    (∃ s : State, s.power.st = .off ∧ s.power.supply = true ∧ s.power.offByCmd = false ∧ s.power.brownout = false) ∧
    (∃ s : State, s.power.st = .off ∧ s.power.offByCmd = true) ∧ (∃ s : State, s.power.st ≠ .off ∧ s.power.supply = true) ∧
    (∃ s : State, s.power.supply = false ∧ s.pins.modEn = true) ∧
    (∃ s : State, s.power.bootStep = 1 ∧ s.resident = [] ∧ s.pins.modEn = true ∧ s.power.st ≠ .off) ∧
    (∃ s : State, s.pins.modEn = true ∧ s.power.st ≠ .off ∧ s.power.bootStep ≠ 1) :=
  ⟨⟨{ State.reset with power := { st := .off } }, by decide⟩, ⟨{ State.reset with power := { st := .off, offByCmd := true } }, by decide⟩,
   ⟨State.reset, by decide⟩, ⟨{ State.reset with power := { supply := false } }, by decide⟩,
   ⟨{ State.reset with power := { bootStep := 1 } }, by decide⟩, ⟨State.reset, by decide⟩⟩

theorem wit_SensorsAndRails :
    (let s := State.reset
     sensorOn s .volt 10 = true ∧ sensorOn s .curr 0 = true ∧ (sensorRange .volt 10).2 = (4000 : BitVec 32).toInt ∧
       (sensorRange .curr 0).1 = (0 : BitVec 32).toInt ∧ sensorOn s .temp 11 = true ∧ (-320#32).toInt = -320 ∧
       (1200 : BitVec 32).toInt = 1200 ∧ railOn s 9 = true ∧ railOut 9 0 5 = true ∧ railOn s 8 = true ∧ railOut 8 65535 8 = true ∧
       dieOn s = true ∧ s.firm.fw = 1 ∧ s.chk.st ≠ 2 ∧ s.power.st ≠ .off ∧ s.power.bootStep = 7) ∧
    (let s := withRegs [(mgcBase + 0x168, 899)]
     flag s (mgcBase + 0x168) 30 = false ∧ field s (mgcBase + 0x168) 15 0 < 900) ∧
    (let s := { State.reset with firm := { State.reset.firm with trial := true, trialEnd := some 0 } }
     s.firm.trialEnd = some 0) := by
  decide +kernel

/-- A state with a temperature reading of `t` °C in sensor 0 and 40 °C in every other one. -/
def heatState (t : Nat) : State :=
  withRegs ((List.range 16).map fun i => (mgcBase + 0x100 + 4 * i, reg (8 * (if i = 0 then t else 40))))

theorem wit_HeatAndClock :
    (dieOn (heatState 95) = true ∧ (heatState 95).clock.waiting = none ∧ reaches (tmax (heatState 95)) (warnT (heatState 95)) = true) ∧
    (300 < goalClock (heatState 110) ∧ reaches (tmax (heatState 110)) 110 = true ∧ dieOn (heatState 110) = true) ∧
    (reaches (tmax (heatState 109)) 110 = false ∧ reaches (tmax (heatState 100)) 110 = false ∧
      reaches (tmax (heatState 100)) 100 = true ∧ (heatState 100).health.lastDown = none ∧ 300 < goalClock (heatState 100)) ∧
    (let s := { heatState 40 with clock := { cur := 300 }, health := { coolSince := some 5 } }
     s.health.coolSince = some 5 ∧ goalClock s < classClock s.cls) ∧
    (let s := { heatState 40 with clock := { cur := 300, target := some 1000 } }
     s.clock.target = some 1000 ∧ classClock s.cls ≤ 1000) ∧
    (reaches (tmax (heatState 120)) 120 = true ∧ (heatState 120).health.tripped = false) ∧
    (allCool (heatState 85) = true ∧ allCool (heatState 86) = false) := by
  decide +kernel

theorem wit_HeatAndClock_restore :
    let s := { heatState 40 with graphs := [(38, shedGraph)], health := { freed := true } }
    dieOn s = true ∧ shedCount s ≠ 0 ∧ s.health.freed = true ∧ s.health.lastRestore = none ∧ shedCount (restoreOne s) < shedCount s := by
  decide +kernel
/-! ### DMA, cameras, vision -/

/-- A state with one task on a unit and DRAM from 2^30 on open to both worlds. -/
def workState (k : Task) : State :=
  { taskState k with fwl := { dram := [(0, { first := 2 ^ 18, last := 2 ^ 18 + 15, flags := 0x80000000 })] } }

/-- A descriptor between linear buffers: NEXT, source, destination, length, one line, CTL. -/
def descriptor (next len ctl : Nat) : List Byte :=
  leBytes 8 next ++ leBytes 8 (2 ^ 30) ++ leBytes 8 (2 ^ 30 + 8192) ++ leBytes 4 len ++ leBytes 4 1 ++ zeros 8 ++ leBytes 4 ctl ++ zeros 20
def dmaRun : DmaRun := { first := 2 ^ 30 + 4096, dlimit := 1, st := .run, cur := 2 ^ 30 + 4096, dbegin := 2 ^ 30 + 4096 }
def chanTask (d : DmaRun) : Task := { st := .running, ttype := 7, inst := 62, units := [127], dma := some d }
def moveRun : DmaRun := { dmaRun with phase := .move, desc := descriptor 0 64 0, dcount := 1 }

theorem wit_DmaTransfers_burst :
    let s := workState (chanTask moveRun)
    chTask s 63 = some (10751, chanTask moveRun, moveRun) ∧ getTask s 10751 = some (chanTask moveRun) ∧
      (∀ c', c' < 8 → c' ≠ 7 → chTask s (8 * 7 + c') = none) ∧ dSmode moveRun.desc = 0 ∧ dDmode moveRun.desc = 0 ∧
      dSwap moveRun.desc = 0 ∧ 0 < dLen moveRun.desc - moveRun.off ∧ dLen moveRun.desc - moveRun.off ≤ dBurst moveRun.desc ∧
      dSrc moveRun.desc % 4096 + 64 ≤ 4096 ∧ dDst moveRun.desc % 4096 + 64 ≤ 4096 ∧ Readable s 127 false (dSrc moveRun.desc) 64 ∧
      Writable s 127 false (dDst moveRun.desc) 64 := by
  unfold Readable Writable; decide +kernel

/-- The state of a channel at its descriptor's fetch or NEXT, with the descriptor in memory. -/
def fetchState (d : DmaRun) (l : List Byte) : State := { workState (chanTask d) with mem := memPutAll [] (2 ^ 30 + 4096) l }

theorem wit_DmaTransfers_descriptors :
    (let s := fetchState dmaRun (descriptor 0 64 0)
     chTask s 63 = some (10751, chanTask dmaRun, dmaRun) ∧ dmaRun.phase = .fetch ∧ dmaRun.dcount < dmaRun.dlimit ∧
       Readable s 127 false dmaRun.cur 64 ∧ descCheck (peek s dmaRun.cur 64) = 0 ∧ queueCheck s 127 10751 (peek s dmaRun.cur 64) = 0) ∧
    (let s := fetchState dmaRun (descriptor 0 65 0)
     Readable s 127 false dmaRun.cur 64 ∧ descCheck (peek s dmaRun.cur 64) ≠ 0) ∧
    (let d := { moveRun with phase := .complete, desc := descriptor 0 64 0x180 }
     let s := workState (chanTask d)
     chTask s 63 = some (10751, chanTask d, d) ∧ bit 8 (dCtl d.desc) = true ∧ bit 7 (dCtl d.desc) = true ∧
       Writable s 127 false (d.cur + 60) 4) ∧
    (let d := { moveRun with phase := .next }
     let s := fetchState d (descriptor (2 ^ 30) 64 0)
     chTask s 63 = some (10751, chanTask d, d) ∧ Readable s 127 false d.cur 8 ∧ leNat (peek s d.cur 8) ≠ 0 ∧
       leNat (peek s d.cur 8) % 8 = 0 ∧ leNat (peek s d.cur 8) ≠ d.dbegin ∧ leNat (peek (fetchState d (descriptor 0 64 0)) d.cur 8) = 0 ∧
       dPark d.desc = false) := by
  unfold Readable Writable; decide +kernel

theorem wit_DmaTransfers_commands :
    (let s := { up with dmaHalt := [63] }
     Reaches s false (unitWorld s 127) (chBase 63 + 8) ∧ Reaches s false (unitWorld s 127) (chBase 63 + 4) ∧
       s.dmaHalt.contains 63 = true ∧ occupant s 127 = none) ∧
    (let s := { up with sched := { tasks := [(10751, chanTask moveRun)] } }
     Reaches s true (unitWorld s 127) (chBase 63 + 8) ∧ s.dmaHalt.contains 63 = false ∧
       occupant s 127 = some (10751, chanTask moveRun) ∧ moveRun.st ≠ .park) ∧
    (let d := { moveRun with st := .park }
     let s := { up with sched := { tasks := [(10751, chanTask d)] } }
     Reaches s false (unitWorld s 127) (chBase 63 + 4) ∧ chTask s 63 = some (10751, chanTask d, d)) ∧
    (let k := { chanTask moveRun with err := some { code := 1 } }
     occupant (taskState k) 127 = some (10751, k)) ∧
    (let s := workState (chanTask moveRun)
     chTask s 63 = some (10751, chanTask moveRun, moveRun) ∧ accessOut s 63 moveRun = true) := by
  unfold Reaches; decide +kernel

/-- A state in which pipeline 15 takes the enabled port 3 and virtual channel 15 with data type 0x2A, 64 by 2 pixels of RAW8, and a graph
runs on stream 15. -/
def pipeState (p : Pipe) : State :=
  let s := withRegs [(ispBase 3 + 0x30000, 0x80000000), (ispBase 15 + 0x10, 0x830F2A00), (ispBase 15 + 0x14, 0x00020040),
    (ispBase 15 + 0x18, 0)]
  { s with graphs := [(30, graph)], pipes := [(15, p)] }

theorem wit_CameraFrames_start :
    let s := pipeState {}
    TakesPort s 3 15 15 ∧ pipeStream s 15 = 15 ∧ runningGraph s 15 = some (0, graph) ∧ (getPipe s 15).cur = none ∧
      (getPipe s 15).batches = [] ∧ (getPipe s 15).setErr = false ∧ takesThumb s 15 (now s) = false ∧ partnerOf s 15 = none ∧
      s.clock.fromF = none ∧ (getSeq s 15).decim = 0 ∧ (getSlot s 15 (getSeq s 15).nextOpen).st = .free := by
  unfold TakesPort PortOn; decide +kernel

theorem wit_CameraFrames_quiet : NothingDue (pipeState {}) := by
  intro n k x h
  have e : (pipeState {}).graphs = [(30, graph)] := rfl
  simp only [getGraph, e, List.find?_cons, List.find?_nil] at h
  split at h
  · cases h; decide
  · cases h

theorem wit_CameraFrames_lines :
    let mine (s : State) := (List.range 16).filter fun n => selects s n 3 15 && imageType s n 0x2A
    (let s := pipeState { cur := some {} }
     PortOn s 3 ∧ mine s = [15] ∧ (zeros 64).length = lineBytes (0x2A - 0x2A) (geomW s 15) ∧ (0 : Nat) < geomH s 15) ∧
    (let f : IspFrame := { lines := [[], []] }
     let s := pipeState { cur := some f }
     mine s = [15] ∧ f.tcause = 0 ∧ geomH s 15 ≤ f.lines.length ∧ (zeros 63).length ≠ lineBytes (0x2A - 0x2A) (geomW s 15)) ∧
    (mine (pipeState {}) = [15] ∧ (getPipe (pipeState {}) 15).cur = none) ∧
    (let s := withRegs [(ispBase 3 + 0x30000, 0x80000000)]
     PortOn s 3 ∧ mine s = []) ∧
    (let s := { pipeState { cur := some { embedded := 1 } } with
                regs := (pipeState {}).regs.map fun p => if p.1 = ispBase 15 + 0x10 then (p.1, 0x830F2A12) else p }
     (owners s 3 15).filter (fun n => embeddedType s n 0x12) = [15] ∧ (1 : Nat) ≠ bits 31 30 (cfg s 15 0x44)) := by
  unfold PortOn; decide +kernel

theorem wit_CameraFrames_end :
    (let f : IspFrame := { acc := true, lines := [[], []] }
     let s := pipeState { cur := some f }
     TakesPort s 3 15 15 ∧ f.tcause = 0 ∧ f.thumb = false ∧ f.xlines = 0 ∧ ¬ f.lines.length < geomH s 15) ∧
    (let f : IspFrame := { acc := true }
     let s := pipeState { cur := some f }
     TakesPort s 3 15 15 ∧ f.acc = true ∧ f.lines.length < geomH s 15 ∧ timeRuns s = true) ∧
    (let f : IspFrame := { acc := true, tstamp := 5 }
     let s := pipeState { ended := [f] }
     (getPipe s 15).ended.find? (fun f => !f.written) = some f ∧ (getPipe s 15).hold.map Prod.snd ≠ some f.tstamp ∧ f.slot = none) ∧
    (let q : Pipe := { cap := some [(0x1C, 0xC0000000)] }
     let s := { State.reset with pipes := [(15, q)], seqs := [(0, { nextOpen := 1, slots := [(0, { st := .open_ })] })] }
     partnerOf s 0 = some 15 ∧ unpairedSlots s 0 = [0] ∧ timeRuns s = true) := by
  unfold TakesPort PortOn; decide +kernel

theorem wit_CameraFrames_drop : runningGraph (pipeState {}) 15 = some (0, graph) ∧
    (let s := { pipeState {} with seqs := [(15, { slots := [(0, { st := .eve, ctx := 0 })] })] }
     TakesPort s 3 15 15 ∧ runningGraph s 15 = some (0, graph) ∧ (getSlot s 15 (getSeq s 15).nextOpen).st ≠ .free) := by
  unfold TakesPort PortOn; decide +kernel

/-- Staged settings of pipeline 15 with one sensor write, its world non-secure. -/
def setState (l : List Batch) : State :=
  let s := upRegs [(ispBase 15 + 0x2100, 0x00010000), (ispBase 15 + 0x2000, 0x00010202), (ispBase 15 + 0x2004, 0x1234)]
  { s with graphs := [(30, graph)], pipes := [(15, { batches := l })], seqs := [(15, { setEpoch := 0xFFFF })] }

theorem wit_CameraControl_batches :
    (let s := setState [{}, {}, {}]
     Reaches s false (unitWorld s 175) (ispBase 15 + 0x2104) ∧ field s (ispBase 15 + 0x2100) 21 16 = 1 ∧
       (runningGraph s (pipeStream s 15)).isSome = true ∧ (getPipe s 15).batches.length < 4) ∧
    (let s := setState [{}, {}, {}, {}]
     Reaches s false (unitWorld s 175) (ispBase 15 + 0x2104) ∧ (runningGraph s (pipeStream s 15)).isSome = true ∧
       4 ≤ (getPipe s 15).batches.length) ∧
    (Reaches up false (unitWorld up 160) (ispBase 0 + 0x2104) ∧ field up (ispBase 0 + 0x2100) 21 16 = 0 ∧
       (runningGraph up (pipeStream up 0)).isSome = false) ∧
    (let b : Batch := { phase := .issued 7, writes := [(0x202, 2, 0x1234)] }
     let s := setState [b]
     (getPipe s 15).direct = [] ∧ (getPipe s 15).batches = [b] ∧ b.phase = .issued 7 ∧ hasTurn s 15 7 = true ∧
       b.writes.length ≤ 1 ∧ (getPipe s 15).cur = none ∧ getScm s (masterOf s 15) = []) := by
  unfold Reaches; decide +kernel

theorem wit_CameraControl_sensor :
    (let s := upRegs [(ispBase 3 + 0x31000, 0x80000000)]
     Reaches s false (unitWorld s 163) (ispBase 3 + 0x31004) ∧ flag s (ispBase 3 + 0x31000) 31 = true ∧ sensorBusy s 3 0x7F = false ∧
       getScm s 3 = [] ∧ scmFree s 3 (now s) = true) ∧
    (let s := { upRegs [(ispBase 0 + 0x31000, 0x80000000)] with graphs := [(0, graph)] }
     Reaches s true (unitWorld s 160) (ispBase 0 + 0x31004) ∧ flag s (ispBase 0 + 0x31000) 31 = true ∧ sensorBusy s 0 0 = true ∧
       getScm s 0 = [] ∧ scmFree s 0 (now s) = true) := by
  unfold Reaches; decide +kernel

theorem wit_CameraControl_quiet : NothingDue (upRegs [(ispBase 3 + 0x31000, 0x80000000)]) ∧
    NothingDue { upRegs [(ispBase 0 + 0x31000, 0x80000000)] with graphs := [(0, graph)] } := by
  constructor
  · intro n k x h
    cases (show none = some x from h)
  · intro n k x h
    simp only [getGraph, List.find?_cons, List.find?_nil] at h
    split at h
    · cases h; decide
    · cases h

theorem wit_FrameSyncAndVigil_pulse :
    (let s := { State.reset with fsync := [(3, { next_ := some 100 })] }
     pxcOn s = true ∧ timeRuns s = true ∧ (getFs s 3).next_ = some 100 ∧ (getFs s 3).later = none) ∧
    (let s := { State.reset with fsync := [(0, { next_ := some 100, later := some 100000 })] }
     pxcOn s = true ∧ timeRuns s = true ∧ (getFs s 0).next_ = some 100 ∧ (getFs s 0).later = some 100000 ∧ 1000 * field s (ispBase 0 + 0x32000) 15 0 < 100000) ∧
    (Reaches up false (unitWorld up 163) (ispBase 3 + 0x3200C) ∧ flag up (ispBase 3 + 0x32000) 31 = false) ∧
    (Reaches up true (unitWorld up 160) (ispBase 0 + 0x32004) ∧ (99999 : Reg).toNat < 100000 ∧ 100000 ≤ (100000 : Reg).toNat ∧
       flag up (ispBase 0 + 0x32000) 31 = false) ∧
    (let s := { upRegs [(ispBase 0 + 0x32000, 0x80000000)] with fsync := [(0, { next_ := some 100 })] }
     Reaches s true (unitWorld s 160) (ispBase 0 + 0x32004) ∧ flag s (ispBase 0 + 0x32000) 31 = true ∧ (getFs s 0).next_.isSome = true) := by
  unfold Reaches; decide +kernel

theorem wit_FrameSyncAndVigil_judge :
    (let s := { State.reset with pipes := [(15, { judge := some (0, 64, 5) })] }
     pxcOn s = true ∧ (getPipe s 15).judge = some (0, 64, 5) ∧ flag s (pwrBase + 0x68) 15 = false) ∧
    (let s := { withRegs [(pwrBase + 0x68, 0x8000)] with pipes := [(15, { judge := some (1, 64, 5) })] }
     pxcOn s = true ∧ (getPipe s 15).judge = some (1, 64, 5) ∧ flag s (pwrBase + 0x68) 15 = true ∧ (getVigil s 15).ready = false) ∧
    (let s := { withRegs [(pwrBase + 0x68, 1)] with pipes := [(0, { judge := some (1, 64, 5) })], vigil := [(0, { ready := true })] }
     pxcOn s = true ∧ (getPipe s 0).judge = some (1, 64, 5) ∧ flag s (pwrBase + 0x68) 0 = true ∧ (getVigil s 0).ready = true) := by
  decide +kernel

/-- `n` bytes with fields laid out in them: the offset, the size and the value of each. -/
def layOut (n : Nat) (fs : List (Nat × Nat × Nat)) : List Byte :=
  (List.range n).map fun i => match fs.find? fun f => decide (f.1 ≤ i ∧ i < f.1 + f.2.1) with
    | some f => BitVec.ofNat 8 (f.2.2 / 256 ^ (i - f.1))
    | none => 0

/-- The parameter block of an EXPAND of a 16 by 16 level of bytes, and a stage of pyramid unit 159 with it. -/
def expandBlock : List Byte :=
  [6, 0, 3, 2, 2, 0, 0, 0] ++ leBytes 2 16 ++ leBytes 2 16 ++ zeros 4 ++ leBytes 8 (2 ^ 30) ++ leBytes 4 0 ++ leBytes 4 64 ++ zeros 32 ++
    leBytes 8 (2 ^ 30 + 4096) ++ leBytes 4 0 ++ leBytes 4 64 ++ zeros 48
def stage (u : Nat) (l : List Byte) : Task := { st := .running, units := [u], block := l, src := 0, ctx := 0 }

/-- What ends the work of a stage: 0 with all its outputs out, 1 at the gate, 2 with an error of its own, 3 otherwise. -/
def workEnds (u : Nat) (t : Task) (r : State × Except EngErr (List EngOut × Nat)) : Nat × Bool :=
  match r with
  | (s1, .ok (l, g)) =>
    let p := putOuts u t.sc (fun s _ => s) l s1 g
    (match p.2.2.2 with
     | none => if p.2.1.isEmpty then 0 else 3
     | some (.inl (.gate _)) => 1
     | _ => 3, (getTask p.1 10751).isSome)
  | (s1, .error (.inr _)) => (2, ((getTask s1 10751).map fun x => x.err.isNone).getD false)
  | _ => (3, false)

theorem wit_VisionStages_work :
    let w (t : Task) (s : State) := workEnds 159 t (pyrWork 159 pyrExpandStage s 10751 t)
    (let t := stage 159 expandBlock
     engTask (workState t) 159 = some (10751, t) ∧ ((pyrBlk expandBlock).op == 3) = true ∧ t.outs = none ∧
       w t (workState t) = (0, true)) ∧
    (let t := { stage 159 (layOut 128 [(0, 2, 6), (2, 1, 3), (3, 1, 2), (4, 1, 2), (8, 2, 16), (10, 2, 16), (16, 8, 2 ^ 30), (28, 4, 64),
       (32, 8, 2 ^ 30 + 4096), (64, 8, 2 ^ 63), (76, 4, 64)]) with dataGen := 1 }
     let s := { workState t with gens := [(1, { st := .live })] }
     engTask s 159 = some (10751, t) ∧ ((pyrBlk t.block).op == 3) = true ∧ w t s = (1, true)) ∧
    (let t := { stage 159 expandBlock with outs := some [] }
     engTask (workState t) 159 = some (10751, t) ∧ (putOuts 159 t.sc (fun s _ => s) [] (workState t) 0).2.1 = []) ∧
    (let t := stage 159 ([7] ++ expandBlock.drop 1)
     engTask (workState t) 159 = some (10751, t) ∧ ((pyrBlk t.block).op == 3) = true ∧ w t (workState t) = (2, true)) := by
  decide +kernel

/-- A state with a stage on a unit in which its command completes (the hypotheses of the statement together). -/
def Completes (s : State) (u : Nat) (t : Task) (c : Instr) : Prop :=
  (∃ sel w, visionWork c = some (u, sel, w) ∧ sel t.block = true) ∧ engTask s u = some (10751, t) ∧ getTask s 10751 = some t ∧
    t.dataGen = 0 ∧ t.outs = none ∧ VisionReady s t c ∧ (∀ r ∈ (visionSpans s t c).1, Readable s u t.sc r.1 r.2) ∧
    (∀ r ∈ (visionSpans s t c).2, Writable s u t.sc r.1 r.2) ∧ Memory.wf s.mem = true

/-- A frame info that a block does not name is one. -/
theorem infoOk_none {s : State} {l : List Byte} {o so slot : Nat} {f : Option Nat} (h : leAt l o 8 = 0) : InfoOk s l o so slot f :=
  fun h' => absurd h h'

/-- Blocks of stages on the smallest images, with their planes a page apart from 2^30 on. -/
def stereoBlock : List Byte := layOut 192 [(0, 2, 1), (2, 1, 1), (4, 1, 2), (5, 1, 1), (6, 1, 1), (8, 2, 32), (10, 2, 16), (14, 2, 5),
  (16, 1, 2), (24, 2, 2), (32, 8, 2 ^ 30), (40, 8, 2 ^ 30 + 4096), (80, 4, 64), (96, 8, 2 ^ 30 + 8192), (108, 4, 64),
  (128, 8, 2 ^ 30 + 12288), (140, 4, 8192)]
def flowBlock : List Byte := layOut 192 [(0, 2, 2), (2, 1, 1), (4, 1, 2), (8, 2, 32), (10, 2, 16), (15, 1, 1), (16, 2, 2), (24, 8, 2 ^ 30),
  (32, 8, 2 ^ 30 + 4096), (72, 4, 64), (96, 8, 2 ^ 30 + 8192), (108, 4, 128), (128, 8, 2 ^ 30 + 12288)]
def detectBlock : List Byte := layOut 128 [(0, 2, 3), (2, 1, 9), (3, 1, 2), (4, 2, 1), (8, 2, 64), (10, 2, 64), (12, 1, 4), (13, 1, 1),
  (14, 2, 1), (16, 4, 1), (22, 2, 2), (24, 8, 2 ^ 30), (36, 4, 64), (40, 8, 2 ^ 30 + 4096)]
def matchBlock : List Byte := layOut 128 [(0, 2, 4), (2, 1, 1), (8, 2, 1), (12, 2, 1), (16, 8, 2 ^ 30), (32, 8, 2 ^ 30 + 4096),
  (48, 8, 2 ^ 30 + 8192), (56, 8, 2 ^ 30 + 12288), (72, 8, 2 ^ 30 + 16384)]
def warpBlock : List Byte := layOut 128 [(0, 2, 5), (3, 1, 2), (4, 1, 1), (8, 2, 16), (10, 2, 16), (12, 2, 16), (14, 2, 16), (16, 2, 2),
  (24, 8, 2 ^ 30), (32, 8, 2 ^ 30 + 4096), (44, 4, 64), (56, 8, 2 ^ 30 + 8192), (68, 4, 64)]
def inverseBlock : List Byte := layOut 128 [(0, 2, 5), (2, 1, 1), (24, 8, 2 ^ 30)]
def pyramidBlock (op lfmt lap : Nat) : List Byte := layOut 128 [(0, 2, 6), (2, 1, op), (3, 1, 2), (4, 1, 2), (5, 1, lfmt), (8, 2, 16),
  (10, 2, 16), (32, 8, 2 ^ 30), (48, 8, lap)]

/-- Bytes with their CRC behind them; the summary of an empty feature list; the descriptor of a homography of 16 by 16 pixels. -/
def sealed (l : List Byte) : List Byte := l ++ leBytes 4 (crc32c l)
def emptySummary : List Byte := sealed (layOut 60 [(0, 2, 0x22)])
def homography : List Byte := sealed (layOut 124 [(0, 2, 0x30), (2, 1, 1), (4, 2, 16), (6, 2, 16), (8, 2, 16), (10, 2, 16)])
def summaries : List Host.Cell := memPutAll (memPutAll [] (2 ^ 30 + 8192) emptySummary) (2 ^ 30 + 12288) emptySummary
def withMem (s : State) (m : List Host.Cell) : State := { s with mem := m }

theorem wit_VisionStages_stereo : Completes (workState (stage 135 stereoBlock)) 135 (stage 135 stereoBlock) (.stereoStage 3) := by
  refine ⟨⟨_, _, rfl, by decide +kernel⟩, by decide +kernel, by decide +kernel, rfl, rfl,
    ⟨by decide +kernel, infoOk_none (by decide +kernel)⟩, by unfold Readable; decide +kernel, by unfold Writable; decide +kernel,
    by decide +kernel⟩

theorem wit_VisionStages_flow : Completes (workState (stage 139 flowBlock)) 139 (stage 139 flowBlock) (.flowStage 3) := by
  refine ⟨⟨_, _, rfl, by decide +kernel⟩, by decide +kernel, by decide +kernel, rfl, rfl,
    ⟨by decide +kernel, infoOk_none (by decide +kernel), infoOk_none (by decide +kernel)⟩, by unfold Readable; decide +kernel,
    by unfold Writable; decide +kernel, by decide +kernel⟩

theorem wit_VisionStages_detect : Completes (workState (stage 143 detectBlock)) 143 (stage 143 detectBlock) (.featureDetectStage 3) := by
  refine ⟨⟨_, _, rfl, by decide +kernel⟩, by decide +kernel, by decide +kernel, rfl, rfl,
    ⟨by decide +kernel, by decide +kernel, fun h => absurd h (by decide +kernel), infoOk_none (by decide +kernel)⟩,
    by unfold Readable; decide +kernel, by unfold Writable; decide +kernel, by decide +kernel⟩

theorem wit_VisionStages_match :
    Completes (withMem (workState (stage 143 matchBlock)) summaries) 143 (stage 143 matchBlock) (.featureMatchStage 3) := by
  refine ⟨⟨_, _, rfl, by decide +kernel⟩, by decide +kernel, by decide +kernel, rfl, rfl,
    ⟨by decide +kernel, by decide +kernel, by decide +kernel, by decide +kernel⟩, by unfold Readable; decide +kernel,
    by unfold Writable; decide +kernel, by decide +kernel⟩

/-- The state of a warp stage, with its descriptor. -/
def warpState (l : List Byte) : State := withMem (workState (stage 151 l)) (memPutAll [] (2 ^ 30) homography)

theorem mapOk_warp (l : List Byte) (h : wrpDescOk (peek (warpState l) (leAt l 24 8) 128) l = true)
    (hm : (wrpDesc (peek (warpState l) (leAt l 24 8) 128)).mesh = false) : MapOk (warpState l) l false := by
  rintro _ _ n rfl rfl rfl
  exact ⟨h, fun h' => by rw [hm] at h'; cases h'⟩

theorem wit_VisionStages_warp : Completes (warpState warpBlock) 151 (stage 151 warpBlock) (.warpStage 7) := by
  refine ⟨⟨_, _, rfl, by decide +kernel⟩, by decide +kernel, by decide +kernel, rfl, rfl,
    ⟨by decide +kernel, mapOk_warp warpBlock (by decide +kernel) (by decide +kernel), infoOk_none (by decide +kernel)⟩,
    by unfold Readable; decide +kernel, by unfold Writable; decide +kernel, by decide +kernel⟩

theorem wit_VisionStages_inverse : Completes (warpState inverseBlock) 151 (stage 151 inverseBlock) (.inverseGeneration 7) := by
  refine ⟨⟨_, _, rfl, by decide +kernel⟩, by decide +kernel, by decide +kernel, rfl, rfl, 
    ⟨by decide +kernel, mapOk_warp inverseBlock (by decide +kernel) (by decide +kernel)⟩,
    by unfold Readable; decide +kernel, by unfold Writable; decide +kernel, by decide +kernel⟩

theorem wit_VisionStages_pyramids :
    Completes (workState (stage 159 (pyramidBlock 0 0 0))) 159 (stage 159 (pyramidBlock 0 0 0)) (.reduce 7) ∧
    Completes (workState (stage 159 (pyramidBlock 1 3 (2 ^ 30 + 8192)))) 159 (stage 159 (pyramidBlock 1 3 (2 ^ 30 + 8192))) (.laplace 7) ∧
    Completes (workState (stage 159 (pyramidBlock 2 3 (2 ^ 30 + 8192)))) 159 (stage 159 (pyramidBlock 2 3 (2 ^ 30 + 8192))) (.collapse 7) ∧
    Completes (workState (stage 159 expandBlock)) 159 (stage 159 expandBlock) (.expand 7) := by
  refine ⟨?_, ?_, ?_, ?_⟩ <;>
  refine ⟨⟨_, _, rfl, by decide +kernel⟩, by decide +kernel, by decide +kernel, rfl, rfl, by unfold VisionReady; decide +kernel,
    by unfold Readable; decide +kernel, by unfold Writable; decide +kernel, by decide +kernel⟩

theorem wit_EngineErrorsAndPattern_errors :
    (let t := { stage 159 [] with err := some { code := 3, addr := 5 } }
     let s := workState t
     reporting 159 = true ∧ (s.sched.tasks.find? fun p => p.2.onUnits && p.2.units.contains 159 && p.2.err.isSome) = some (10751, t) ∧
       t.err = some { code := 3, addr := 5 }) ∧
    (∀ u ∈ [0, 63, 128, 131, 132, 159, 196, 197], ((workState (stage u [])).sched.tasks.find? fun p =>
      p.2.st == .running && p.2.units.contains u && !p.2.worked) = some (10751, stage u [])) := by
  decide +kernel

theorem wit_EngineErrorsAndPattern_pattern :
    (let s := { up with sched := { tasks := [(10751, stage 143 [])] } }
     Reaches s false (unitWorld s 143) (ftrBase 3 + 0x1000 + 4 * 255) ∧ (occupant s 143).isSome = true) ∧
    (let s := upRegs [(ftrBase 3 + 8, 1)]
     Reaches s false (unitWorld s 143) (ftrBase 3 + 0x1000 + 4 * 255) ∧ occupant s 143 = none ∧ flag s (ftrBase 3 + 8) 0 = true) ∧
    (Reaches up true (unitWorld up 140) (ftrBase 0 + 0x1000) ∧ occupant up 140 = none ∧ flag up (ftrBase 0 + 8) 0 = false) := by
  unfold Reaches; decide +kernel

/-! ### Tensor cores -/

/-- A word of a tensor program: its opcode and its other bits. -/
def tcWord (op low : Nat) : BitVec 128 := BitVec.ofNat 128 (op * 2 ^ 120 + low)

/-- A task on core 63 of a graph on sequencer 0, with what the task has on the core. -/
def coreTask : Task := { st := .running, ttype := 0, src := 0, ctx := 0, units := [63] }
def coreState (k : TCore) : State := { taskState coreTask with tcs := [(63, { core := k })], graphs := [(0, graph)] }

/-- The same at the first instruction `w` of its program. -/
def atWord (w : BitVec 128) : State := coreState { prog := [w] }

theorem wit_TcInstructions :
    (let w := tcWord 0x28 0
     TcComes (atWord w) 63 true 0x28 10751 coreTask w ∧ encOk w = true ∧ tcToken (getTc (atWord w) 63).core true w = some { prog := [w] }) ∧
    (let w := tcWord 0x28 (2 ^ 119)
     TcComes (atWord w) 63 true 0x28 10751 coreTask w ∧ encOk w = false) ∧
    (let w := tcWord 0x28 (2 ^ 117)
     TcComes (atWord w) 63 true 0x28 10751 coreTask w ∧ encOk w = true ∧ tcToken (getTc (atWord w) 63).core true w = none) := by
  unfold TcComes; decide +kernel

/-- How the work of an instruction ends: it completes, waits, meets a fault, or stops at the gate. -/
def tcEnds (r : TcRes TCore) : Nat :=
  match r.2 with
  | .ok _ => 0
  | .error (.wait _) => 1
  | .error (.fault _ _) => 2
  | .error .gate => 3
  | .error .squashed => 4

theorem wit_TcInstructions_ends :
    tcEnds (barWork 63 (atWord (tcWord 0x28 0)) 10751 coreTask { prog := [tcWord 0x28 0] } (tcWord 0x28 0)) = 0 ∧
    (let w := tcWord 0x26 (2 ^ 80 + 1)
     TcIssues (atWord w) 63 true 0x26 10751 coreTask { prog := [w] } w ∧ tcEnds (tcFlagWait (atWord w) 10751 coreTask { prog := [w] } w) = 1) ∧
    (let w := tcWord 0x24 (2 ^ 48)
     TcIssues (atWord w) 63 true 0x24 10751 coreTask { prog := [w] } w ∧ tcEnds (tcFlagUpdate false (atWord w) 10751 coreTask { prog := [w] } w) = 2) := by
  unfold TcIssues TcComes; decide +kernel

/-- An instruction without a token, at which core 63 stands, issues. -/
theorem atWord_issues {w : BitVec 128} {x : Bool} (h : encOk w = true) (ht : needsToken w x = false) :
    TcIssues (atWord w) 63 x (wOp w) 10751 coreTask { prog := [w] } w := by
  have hc : (getTc (atWord w) 63).core = { prog := [w] } := rfl
  refine ⟨?_, h, ?_⟩
  · unfold TcComes
    rw [hc]
    exact ⟨rfl, by cases x <;> rfl, rfl, rfl, by cases x <;> rfl, fun _ => by cases x <;> rfl⟩
  · rw [hc]
    simp [tcToken, ht]

/-- Words of the control instructions whose outcome does not depend on the core's registers. -/
def controlWords : List (BitVec 128) :=
  [tcWord 0 0, tcWord 2 (5 * 2 ^ 112 + 2 ^ 80), tcWord 2 (5 * 2 ^ 112 + 2 ^ 64), tcWord 2 (2 ^ 112), tcWord 3 (12 * 2 ^ 112), tcWord 4 (2 * 2 ^ 112),
   tcWord 5 (2 ^ 64 - 1), tcWord 6 (2 ^ 80), tcWord 7 (2 ^ 21 - 1), tcWord 7 (2 ^ 21), tcWord 8 (2 ^ 80 + 65535)]

theorem wit_TcControlInstructions (w : BitVec 128) (h : w ∈ controlWords) (x : Bool) :
    TcIssues (atWord w) 63 x (wOp w) 10751 coreTask { prog := [w] } w := by
  have hk : (controlWords.all fun w => encOk w && !needsToken w false && !needsToken w true) = true := by decide +kernel
  have hw := List.all_eq_true.mp hk w h
  simp only [Bool.and_eq_true, Bool.not_eq_true'] at hw
  exact atWord_issues hw.1.1 (by cases x; exact hw.1.2; exact hw.2)

theorem wit_TcControlInstructions_load :
    let k : TCore := { prog := [tcWord 8 (2 ^ 80 + 8)], param := zeros 16 }
    TcIssues (coreState k) 63 false 8 10751 coreTask k (tcWord 8 (2 ^ 80 + 8)) ∧ (8 : Nat) % 8 = 0 ∧ 8 + 8 ≤ k.param.length := by
  unfold TcIssues TcComes; decide +kernel

theorem wit_TcControlInstructions_branch : tcCondSpec 5 (0 : Reg) 0 ∧ ¬ tcCondSpec 1 (0 : Reg) 0 ∧ Machine.wf (tcWord 2 (5 * 2 ^ 112 + 2 ^ 80)) 79 64 < 1 ∧
    1 ≤ Machine.wf (tcWord 2 (5 * 2 ^ 112 + 2 ^ 64)) 79 64 ∧ Machine.wf (tcWord 2 (2 ^ 112)) 115 112 = 1 := by
  unfold tcCondSpec; decide +kernel

theorem wit_TcWaits_joined :
    (let w := tcWord 1 0
     let s := atWord w
     tcTask s 63 = some (10751, coreTask) ∧ tcJoined { prog := [w] } 0x01 = some w ∧ encOk w = true ∧
       ∀ u ∈ coreTask.units, (getTc (withCore s 63 { prog := [w], ended := true }) u).core.ended = true) ∧
    (let w := tcWord 1 0
     let t := { coreTask with units := [62, 63] }
     let s := { atWord w with sched := { tasks := [(10751, t)] } }
     tcTask s 63 = some (10751, t) ∧ ∃ u ∈ t.units, (getTc (withCore s 63 { prog := [w], ended := true }) u).core.ended = false) ∧
    (let w := tcWord 9 4
     let k : TCore := { prog := [w], exec := { td := [(0, 0x01000000000100000004000100000010)] } }
     let s := coreState k
     tcTask s 63 = some (10751, coreTask) ∧ tcJoined k 0x09 = some w ∧ encOk w = true ∧ tdCheck (k.exec.gtd (Machine.wf w 115 112)) = 0 ∧
       (20 : Int) = ((tdOf (k.exec.gtd (Machine.wf w 115 112))).base : Int) + (k.exec.gs (Machine.wf w 90 86)).toInt + s32 (Machine.wf w 31 0) ∧
       (getTc s 63).badWords = [] ∧ (getTc s 63).softWords = []) := by
  decide +kernel

theorem wit_TcWaits_flags (w : BitVec 128) (h : w ∈ [tcWord 0x24 0, tcWord 0x25 0, tcWord 0x26 0, tcWord 0x28 0]) :
    TcIssues (atWord w) 63 true (wOp w) 10751 coreTask { prog := [w] } w := by
  have hk : ([tcWord 0x24 0, tcWord 0x25 0, tcWord 0x26 0, tcWord 0x28 0].all fun w => encOk w && !needsToken w true) = true := by
    decide +kernel
  have hw := List.all_eq_true.mp hk w h
  simp only [Bool.and_eq_true, Bool.not_eq_true'] at hw
  exact atWord_issues hw.1 hw.2

theorem wit_TcWaits_wait :
    let w := tcWord 0x26 (2 ^ 80)
    let k : TCore := { prog := [w], exec := { waiting := true } }
    TcIssues (coreState k) 63 true 0x26 10751 coreTask k w ∧ k.exec.waiting = true := by
  unfold TcIssues TcComes; decide +kernel

theorem wit_TcWaits_flag :
    let w := tcWord 0x26 (2 ^ 80)
    tcFlag (atWord w) coreTask w = some 4096 ∧ flagCmp (Machine.wf w 82 81) (getFlag (atWord w) 4096).value (reg (Machine.wf w 31 0)) = true := by
  decide +kernel

theorem wit_TcWaits_tokens :
    (let k : TCore := { prog := [tcWord 0x28 (2 ^ 117)], exec := { waiting := true }, fq := 1 }
     waitsToken k true = true ∧ (popToken k true).isSome = true) ∧
    (let k : TCore := { prog := [tcWord 0x28 (2 ^ 117), tcWord 0x10 (2 ^ 116)], exec := { waiting := true }, fetch := { pc := 1, waiting := true } }
     tcTask (coreState k) 63 = some (10751, coreTask) ∧ waitsToken k true = true ∧ waitsToken k false = true ∧ k.fq = 0 ∧ k.xq = 0 ∧
       k.asked = false ∧ k.sent = false) := by
  decide +kernel

/-- The descriptor of a tile: its format, rows, columns, stride and base. -/
def tile (fmt rows cols stride base : Nat) : BitVec 128 :=
  BitVec.ofNat 128 (base + rows * 2 ^ 32 + cols * 2 ^ 48 + stride * 2 ^ 64 + fmt * 2 ^ 84)

/-- Core 63 with DRAM from 2^30 on, at the first instruction of the program of `k`. -/
def dramState (k : TCore) (t : Task := coreTask) : State :=
  { coreState k with sched := { tasks := [(10751, t)] },
                     fwl := { dram := [(0, { first := 2 ^ 18, last := 2 ^ 18 + 15, flags := 0x80000000 })] } }

/-- A core at the word `w` whose fetch unit holds two tiles and the address 2^30. -/
def fetchCore (w : BitVec 128) (td0 td1 : BitVec 128) : TCore := { prog := [w], fetch := { td := [(0, td0), (1, td1)], a := [(0, 2 ^ 30)] } }

/-- What `LD` and `ST` of two rows of 32 bytes at a stride of 64 need, at the word `w`. -/
def Moves (w : BitVec 128) : Prop :=
  let k := fetchCore w (tile 1 2 32 32 16) 0
  let s := dramState k
  let td := tdOf (k.fetch.gtd (Machine.wf w 115 112))
  let a := (k.fetch.ga (Machine.wf w 99 96)).toNat
  TcIssues s 63 false (wOp w) 10751 coreTask k w ∧ k.d = 0 ∧ TmSound s 63 ∧ SegRoom k ∧
    tdCheck (k.fetch.gtd (Machine.wf w 115 112)) = 0 ∧ Machine.wf w 80 80 = 1 ∧ a % 16 = 0 ∧ Machine.wf w 31 0 % 16 = 0 ∧
    (∀ r < td.rows, Readable s 63 false (homeAt a 64 r) td.rowBytes) ∧ (∀ r < td.rows, Writable s 63 false (homeAt a 64 r) td.rowBytes)

theorem wit_TcTransfers_ld : Moves (tcWord 0x10 (2 ^ 80 + 64)) := by
  unfold Moves TcIssues TcComes TmSound SegRoom Readable Writable; decide +kernel
theorem wit_TcTransfers_aux : Moves (tcWord 0x10 (2 ^ 81 + 2 ^ 80 + 64)) := by
  unfold Moves TcIssues TcComes TmSound SegRoom Readable Writable; decide +kernel
theorem wit_TcTransfers_st : Moves (tcWord 0x11 (2 ^ 80 + 64)) := by
  unfold Moves TcIssues TcComes TmSound SegRoom Readable Writable; decide +kernel

theorem wit_TcTransfers_ldq :
    let w := tcWord 0x12 (7 * 2 ^ 32)
    let k := { fetchCore w (tile 1 32 32 32 0) 0 with param := layOut 8 [(4, 2, 7)] }
    let td := tdOf (k.fetch.gtd (Machine.wf w 115 112))
    let t := { coreTask with parent := some 5, packet := some ([{ data := 5 }], false) }
    (let s := { dramState k t with queues := [(7, queue)] }
     TcIssues s 63 false 0x12 10751 t k w ∧ TmSound s 63 ∧ SegRoom k ∧ tdCheck (k.fetch.gtd (Machine.wf w 115 112)) = 0 ∧
       (t.parent.isSome && 7 == leAt k.param 4 2 && 0 == leAt k.param 6 1) = true ∧ tcSource s 63 10751 7 0 true = true ∧
       0 < (getQ s 7).recvs.length ∧ 64 * (1 + (getQ s 7).cfg.maxpkt) ≤ td.rows * td.stride ∧ k.got = false) ∧
    (let s := { dramState k with queues := [(7, queue)] }
     TcIssues s 63 false 0x12 10751 coreTask k w ∧ TmSound s 63 ∧ tcSource s 63 10751 7 0 false = true ∧
       (coreTask.parent.isSome && 7 == leAt k.param 4 2 && 0 == leAt k.param 6 1) = false ∧
       packetsFor (getQ s 7) (nth {} (getQ s 7).recvs 0) = 0 ∧ Machine.wf w 80 80 = 0) ∧
    (let s := { dramState k with queues := [(7, fullQueue)] }
     TcIssues s 63 false 0x12 10751 coreTask k w ∧ TmSound s 63 ∧ tcSource s 63 10751 7 0 false = true ∧
       packetsFor (getQ s 7) (nth {} (getQ s 7).recvs 0) ≠ 0 ∧ (∀ x ∈ (deqPacket s 7 63 0
         (((headFor (getQ s 7) (nth {} (getQ s 7).recvs 0)).map fun p => p.words.length).getD 0 + 1)).2.1, x.gen = 0)) := by
  unfold TcIssues TcComes TmSound SegRoom; decide +kernel

/-- An image of a packet of one word in tile memory. -/
def imageCore (w : BitVec 128) : TCore :=
  { fetchCore w (tile 1 4 32 32 0) 0 with tm := (List.range 128).map fun i => (i, { b := if i = 0 then 1 else 0 }) }

theorem wit_TcTransfers_stq :
    let w := tcWord 0x13 (7 * 2 ^ 32)
    let k := imageCore w
    (let s := { dramState k with queues := [(7, queue)] }
     TcIssues s 63 false 0x13 10751 coreTask k w ∧ TmSound s 63 ∧ SegRoom k ∧ tdCheck (k.fetch.gtd (Machine.wf w 115 112)) = 0 ∧
       tcDest s 63 10751 7 = true ∧ (0 : Nat) + 64 ≤ 0x200000 ∧
       imageWords ((List.range 64).map fun i => tmByte k (0 + i)) (getQ s 7).cfg.maxpkt = some 1 ∧ 0 + 64 * (1 + cdiv 1 8) ≤ 0x200000 ∧
       flowHeld s coreTask = false ∧ s.flowWait.contains 10751 = false ∧
       (enqUnit s 7 63 0 (bytesToWords ((List.range (8 * 1)).map fun i => tmByte k (0 + 64 + i)))).2 ≠ .waits) ∧
    (let k := { k with d := 1 }
     let s := { dramState k with queues := [(7, outQueue)], gens := [(1, { st := .live })] }
     TcIssues s 63 false 0x13 10751 coreTask k w ∧ tcEnds (stqWork 63 s 10751 coreTask k w) = 3) := by
  unfold TcIssues TcComes TmSound SegRoom; decide +kernel

theorem wit_TcTransfers_giss :
    let w := tcWord 0x14 (2 ^ 108 + 7 * 2 ^ 32)
    let k := { fetchCore w (tile 5 1 8 32 0) (tile 1 2 32 32 1024) with asked := true, reply := some true }
    let s := dramState k
    let to_ := tdOf (k.fetch.gtd (Machine.wf w 111 108))
    TcIssues s 63 false 0x14 10751 coreTask k w ∧ TmSound s 63 ∧ SegRoom k ∧ tdCheck (k.fetch.gtd (Machine.wf w 115 112)) = 0 ∧
      tdCheck (k.fetch.gtd (Machine.wf w 111 108)) = 0 ∧ fmtWidth (tdOf (k.fetch.gtd (Machine.wf w 115 112))).fmt = 32 ∧
      ∀ r < to_.rows, Readable s 63 false (homeAt (k.fetch.ga (Machine.wf w 99 96)).toNat to_.rowBytes r) to_.rowBytes := by
  unfold TcIssues TcComes TmSound SegRoom Readable; decide +kernel

theorem wit_TcTransfers_own :
    let w := tcWord 0x15 (2 ^ 80 + 64)
    let k := fetchCore w (tile 1 2 32 32 0) 0
    let s := dramState k
    let td := tdOf (k.fetch.gtd (Machine.wf w 115 112))
    TcIssues s 63 false 0x15 10751 coreTask k w ∧ TmSound s 63 ∧ SegRoom k ∧ tdCheck (k.fetch.gtd (Machine.wf w 115 112)) = 0 ∧
      Machine.wf w 31 0 % 64 = 0 ∧ Machine.wf w 80 80 = 1 ∧
      ∀ r < td.rows, Readable s 63 false (homeAt (homeAt (2 ^ 30) 64 k.pos) td.rowBytes r) td.rowBytes := by
  unfold TcIssues TcComes TmSound SegRoom Readable; decide +kernel

theorem wit_TcTransfers_alone :
    let w := tcWord 0x15 (2 ^ 108)
    let k := fetchCore w (tile 1 2 32 32 0) (tile 1 2 32 32 1024)
    TcIssues (dramState k) 63 false 0x15 10751 coreTask k w ∧ Machine.wf w 80 80 = 0 ∧
      tdCheck (k.fetch.gtd (Machine.wf w 111 108)) = 0 ∧ k.n = 1 := by
  unfold TcIssues TcComes; decide +kernel

theorem wit_TcTransfers_link :
    let w := tcWord 0x15 (2 ^ 108)
    let k := { fetchCore w (tile 1 2 32 32 0) (tile 1 2 32 32 1024) with n := 2, link := [⟨zeros 64, 0⟩] }
    let t := { coreTask with units := [63, 62] }
    let s := dramState k t
    TcIssues s 63 false 0x15 10751 t k w ∧ k.n ≠ 1 ∧ (zeros 64).length = 2 * 32 ∧ nextCore t k = 62 ∧ (getTc s 63).linkBad = 0 ∧
      k.sent = false := by
  unfold TcIssues TcComes; decide +kernel

/-- A core at the word `w` whose execute unit holds the tiles given. -/
def execCore (w : BitVec 128) (l : List (BitVec 128)) : TCore := { prog := [w], exec := { td := l.zipIdx.map fun p => (p.2, p.1) } }

/-- What `WOUT` of two rows of 32 INT8 columns needs, at the word `w`; its scaling descriptor is the second one. -/
def WritesOut (w : BitVec 128) : Prop :=
  let k := execCore w [tile 1 2 32 32 0, tile 5 1 128 512 4096]
  let s := coreState k
  let d := tdOf (k.exec.gtd (Machine.wf w 115 112))
  let q := tdOf (k.exec.gtd 1)
  TcIssues s 63 true 0x21 10751 coreTask k w ∧ TmSound s 63 ∧ k.srcs = [] ∧ tdCheck (k.exec.gtd (Machine.wf w 115 112)) = 0 ∧
    dirtyBytes k + d.bytes ≤ 16384 ∧ woutFault (k.exec.gtd (Machine.wf w 115 112)) (Machine.wf w 107 104) (Machine.wf w 84 83) = 0 ∧
    residueBad (k.acc 0) = false ∧ tdCheck (k.exec.gtd 1) = 0 ∧ q.fmt = 5 ∧ q.rows = 1 ∧ q.cols = 4 * d.cols

theorem wit_TcVector_wout : WritesOut (tcWord 0x21 (2 ^ 104)) := by
  unfold WritesOut TcIssues TcComes TmSound; decide +kernel
theorem wit_TcVector_scaled : WritesOut (tcWord 0x21 (2 ^ 108 + 2 ^ 104 + 2 ^ 82 + 2 ^ 81)) := by
  unfold WritesOut TcIssues TcComes TmSound; decide +kernel

/-- What a vector operation FN on two rows of 32 columns needs, at the word `w` with the destination `d`. -/
def Operates (w d : BitVec 128) (fn : Nat) : Prop :=
  let k := execCore w [d, tile 8 2 32 64 1024, tile 8 2 32 64 2048, tile 2 2 32 32 4096]
  let s := coreState k
  let td (hi lo : Nat) := tdOf (k.exec.gtd (Machine.wf w hi lo))
  TcIssues s 63 true 0x22 10751 coreTask k w ∧ TmSound s 63 ∧ k.srcs = [] ∧ Machine.wf w 85 80 = fn ∧
    (vopSources fn).isSome ∧ (RMode.ofCode (Machine.wf w 87 86)).isSome = true ∧
    vopFault fn (Machine.wf w 88 88 == 1) (td 115 112) (td 111 108) (td 107 104) (td 103 100) = 0 ∧
    tdCheck (k.exec.gtd (Machine.wf w 115 112)) = 0 ∧ tdCheck (k.exec.gtd (Machine.wf w 111 108)) = 0 ∧
    tdCheck (k.exec.gtd (Machine.wf w 107 104)) = 0 ∧ tdCheck (k.exec.gtd (Machine.wf w 103 100)) = 0 ∧
    dirtyBytes k + (td 115 112).bytes + (td 103 100).bytes ≤ 16384

theorem wit_TcVector_add : Operates (tcWord 0x22 (2 ^ 108 + 2 * 2 ^ 104)) (tile 8 2 32 64 0) 0 := by
  unfold Operates TcIssues TcComes TmSound; decide +kernel
theorem wit_TcVector_cvt : Operates (tcWord 0x22 (2 ^ 108 + 3 * 2 ^ 100 + 2 ^ 88 + 0x10 * 2 ^ 80)) (tile 9 2 32 64 0) 0x10 := by
  unfold Operates TcIssues TcComes TmSound; decide +kernel

theorem wit_TcVector_sfu :
    let w := tcWord 0x23 (2 ^ 108)
    let k := execCore w [tile 8 2 32 64 0, tile 8 2 32 64 1024]
    let s := coreState k
    let d := tdOf (k.exec.gtd (Machine.wf w 115 112))
    let a := tdOf (k.exec.gtd (Machine.wf w 111 108))
    TcIssues s 63 true 0x23 10751 coreTask k w ∧ TmSound s 63 ∧ k.srcs = [] ∧ tdCheck (k.exec.gtd (Machine.wf w 115 112)) = 0 ∧
      tdCheck (k.exec.gtd (Machine.wf w 111 108)) = 0 ∧ dirtyBytes k + d.bytes ≤ 16384 ∧ d.sparse = false ∧ a.sparse = false ∧
      d.fmt = 8 ∧ a.fmt = d.fmt ∧ a.rows = d.rows ∧ a.cols = d.cols := by
  unfold TcIssues TcComes TmSound; decide +kernel

theorem wit_TcSync_barrier :
    let w := tcWord 0x28 (2 ^ 80)
    let k : TCore := { prog := [w] }
    let t := { coreTask with units := [62, 63] }
    let s := { dramState k t with tcs := [(62, { core := { bars := 1 } }), (63, { core := k })] }
    TcIssues s 63 true 0x28 10751 t k w ∧ k.exec.passed ≤ k.fetch.passed ∧ Machine.wf w 81 80 = 1 ∧
      ∀ u ∈ t.units, u ≠ 63 → k.bars + 1 ≤ (getTc s u).core.bars := by
  unfold TcIssues TcComes; decide +kernel

/-- Two descriptors of INT4 tiles of 32 columns, of 32 and 64 rows, and a `MAC` of them. -/
def tileCore : TCore :=
  let td (rows base : Nat) : BitVec 128 := tile 0 rows 32 32 base
  { prog := [tcWord 0x20 (2 ^ 108 + 2 ^ 81 + 32 * 2 ^ 48)], exec := { td := [(0, td 32 0), (1, td 64 1024)] } }

theorem wit_MacIntegerTile :
    let k := tileCore
    let w := tcWord 0x20 (2 ^ 108 + 2 ^ 81 + 32 * 2 ^ 48)
    let s := coreState k
    let ta := tdOf (k.exec.gtd (Machine.wf w 115 112))
    let tb := tdOf (k.exec.gtd (Machine.wf w 111 108))
    TcIssues s 63 true 0x20 10751 coreTask k w ∧ tdCheck (k.exec.gtd (Machine.wf w 115 112)) = 0 ∧ tdCheck (k.exec.gtd (Machine.wf w 111 108)) = 0 ∧
      macFault ta tb (Machine.wf w 107 104) (Machine.wf w 103 100) (Machine.wf w 79 64) (Machine.wf w 63 48) = 0 ∧ fmtClass ta.fmt = .int ∧ ta.sparse = false ∧ tb.sparse = false ∧
      (getTc s 63).badWords = [] ∧ (getTc s 63).softWords = [] ∧ (getTc s 63).tileBad = 0 ∧ ({} : Acc).cls ≠ .float := by
  unfold TcIssues TcComes; decide +kernel

/-! ### Gather engine -/

/-- DRAM from 2^30 on that both worlds and eve generations may use, with a request of 40 bytes and its index words at 2^30. -/
def gatherState (k : Task) (m : List Byte) : State :=
  { taskState k with fwl := { dram := [(0, { first := 2 ^ 18, last := 2 ^ 18 + 15, flags := 0x81000000 })] }, mem := memPutAll [] (2 ^ 30) m,
                     tables := [(63, leBytes 4 0x010000 ++ leBytes 2 16 ++ leBytes 2 16 ++ leBytes 8 (2 ^ 30 + 8192) ++ leBytes 8 2 ++ zeros 12)] }

/-- A LOOKUP block of table 63, raw rows, with its request at 2^30; the request of one index. -/
def lookupBlock : List Byte := [8, 0, 1, 0, 0, 0, 0, 0, 0, 0, 1, 0, 1, 63, 0, 0] ++ leBytes 8 (2 ^ 30) ++ zeros 40
def lookupRequest (i : Nat) : List Byte := leBytes 8 1 ++ leBytes 8 (2 ^ 30 + 4096) ++ leBytes 8 16 ++ zeros 16 ++ leBytes 8 i
def gatherTask (l : List Byte) : Task := { st := .running, ttype := 6, units := [131], block := l, src := 0, ctx := 0 }

theorem wit_GatherTasks_block :
    let t := gatherTask lookupBlock
    getTask (gatherState t []) 10751 = some t ∧ nth 128 t.units 0 = 131 ∧ t.err = none ∧ t.reply = none ∧ t.outs = none ∧ t.worked = false ∧
      t.served = none ∧ t.dataGen = 0 ∧ t.ttype = 6 ∧ leAt t.block 7 1 = 0 ∧ gthBlockOk t.block = true ∧ gthThreadsOk (gatherState t []) t = true ∧ gthBlockOk (zeros 64) = false ∧
      leAt (zeros 64) 7 1 = 0 := by
  decide +kernel

theorem wit_GatherTasks_request (i : Nat) (h : i = 1 ∨ i = 2) :
    let s := gatherState (gatherTask lookupBlock) (lookupRequest i)
    RequestAtHand s 131 (gatherTask lookupBlock) (bytesToWords (peek s (2 ^ 30) 40 ++ peek s (2 ^ 30 + 40) 8)) := by
  rcases h with rfl | rfl
  all_goals exact Or.inl ⟨rfl, by unfold Readable; decide +kernel, 1, by decide +kernel, fun _ => by unfold Readable; decide +kernel, by decide +kernel⟩

/-- What a BAG of one index and one bag and a PROBE of one list need: tables of kinds 0 and 1, blocks and requests. -/
def bagBlock : List Byte := layOut 64 [(0, 2, 8), (2, 1, 1), (7, 1, 1), (10, 2, 1), (12, 1, 1), (13, 1, 62), (14, 1, 8), (16, 8, 2 ^ 30)]
def probeBlock : List Byte := layOut 64 [(0, 2, 8), (2, 1, 1), (7, 1, 2), (10, 2, 1), (12, 1, 1), (13, 1, 61), (15, 1, 4), (16, 8, 2 ^ 30)]
def bagRequest : List Byte := layOut 56 [(0, 8, 2 ^ 16 + 1), (8, 8, 2 ^ 30 + 4096), (16, 8, 32), (40, 4, 1), (48, 2, 1)]
def probeRequest : List Byte := layOut 48 [(0, 8, 1), (8, 8, 2 ^ 30 + 4096), (24, 8, Config.somBase)]
def moreTables (s : State) : State :=
  { s with
    fwl := { s.fwl with som := [(0, { first := 0, last := 15, flags := 0x80000000 })] },
    somEve := [(pageOf Config.somBase, pageOf Config.somBase + 15)],
    tables := [(61, layOut 36 [(0, 4, 0x010001), (4, 2, 1), (6, 2, 1), (8, 8, 2 ^ 30 + 8192), (24, 8, 2 ^ 30 + 12288), (32, 4, 1)]),
               (62, layOut 36 [(0, 4, 0x010100), (4, 2, 16), (6, 2, 32), (8, 8, 2 ^ 30 + 8192), (16, 8, 2)])] }

/-- What a command of a gather task needs, its request at 2^30 with `n` words behind its first five. -/
def Serves (s : State) (t : Task) (n : Nat) : Prop :=
  let ws := bytesToWords (peek s (2 ^ 30) 40 ++ peek s (2 ^ 30 + 40) (8 * n))
  getTask s 10751 = some t ∧ gthBlockOk t.block = true ∧ gthThreadsOk s t = true ∧ RequestAtHand s 131 t ws ∧
    gthCheck s 131 10751 t (gthRequest ws) = 0 ∧ (∀ p ∈ (gatherSpans s t.block (gthRequest ws)).1, Readable s 131 t.sc p.1 p.2) ∧
    (∀ p ∈ (gatherSpans s t.block (gthRequest ws)).2, Writable s 131 t.sc p.1 p.2)

theorem wit_GatherTasks_bag : leAt bagBlock 7 1 = 1 ∧ Serves (moreTables (gatherState (gatherTask bagBlock) bagRequest)) (gatherTask bagBlock) 2 := by
  refine ⟨by decide +kernel, by decide +kernel, by decide +kernel, by decide +kernel, Or.inl ⟨rfl, ?_, 2, by decide +kernel, fun _ => ?_, rfl⟩,
    by decide +kernel, ?_, ?_⟩
  · unfold Readable; decide +kernel
  · unfold Readable; decide +kernel
  · unfold Readable; decide +kernel
  · unfold Writable; decide +kernel

theorem wit_GatherTasks_probe :
    leAt probeBlock 7 1 = 2 ∧ Serves (moreTables (gatherState (gatherTask probeBlock) probeRequest)) (gatherTask probeBlock) 1 := by
  refine ⟨by decide +kernel, by decide +kernel, by decide +kernel, by decide +kernel, Or.inl ⟨rfl, ?_, 1, by decide +kernel, fun _ => ?_, rfl⟩,
    by decide +kernel, ?_, ?_⟩
  · unfold Readable; decide +kernel
  · unfold Readable; decide +kernel
  · unfold Readable; decide +kernel
  · unfold Writable; decide +kernel

theorem wit_GatherTasks_served :
    let qs : List QWord := [{ data := 1 }, {}, {}, {}, {}]
    RequestAtHand State.reset 131 { gatherTask lookupBlock with parent := some 0, packet := some (qs, false) } (qs.map QWord.data) :=
  Or.inr ⟨rfl, _, _, rfl, by decide +kernel, rfl⟩

theorem wit_GatherTasks_checks :
    let t := gatherTask lookupBlock
    let s (i : Nat) := gatherState t (lookupRequest i)
    let r (i : Nat) := gthRequest (bytesToWords (peek (s i) (2 ^ 30) 40 ++ peek (s i) (2 ^ 30 + 40) 8))
    gthCheck (s 1) 131 10751 t (r 1) = 0 ∧ gthCheck (s 2) 131 10751 t (r 2) ≠ 0 ∧
      (∀ p ∈ (gatherSpans (s 1) t.block (r 1)).1, Readable (s 1) 131 t.sc p.1 p.2) ∧
      (∀ p ∈ (gatherSpans (s 1) t.block (r 1)).2, Writable (s 1) 131 t.sc p.1 p.2) := by
  unfold Readable Writable; decide +kernel

/-- A gather task whose reply is ready, its request with the given word 0 and its queue QID 7. -/
def replyTask (w0 gen : Nat) : Task :=
  { gatherTask lookupBlock with reply := some [3], outs := some [], dataGen := gen,
                                packet := some ([{ data := BitVec.ofNat 64 w0 }, {}, { data := 7 * 2 ^ 32 }, {}, {}], false) }
def replyState (k : Task) (q : Queue) : State :=
  { taskState k with queues := [(7, q)], gens := [(1, { st := .live })], graphs := [(0, graph)],
                     tcs := [(63, { core := { prog := [0], asked := true } })] }

theorem wit_GatherTasks_reply :
    (let t := replyTask (2 ^ 34 + 2 ^ 35 + 63 * 2 ^ 28) 0
     let s := replyState t queue
     getTask s 10751 = some t ∧ nth 128 t.units 0 = 131 ∧ t.worked = false ∧ t.outs = some [] ∧
       t.told = false ∧ (gthReq s t).oq = false ∧ (gthReq s t).giss = true ∧ (gthReq s t).core = 63 ∧
       gissAt (getTc s 63).core = some (gthReq s t).dest ∧ (gthReq s t).flagen = true ∧ getGraph s t.src t.ctx = some graph ∧ (gthReq s (replyTask 0 0)).flagen = false) ∧
    (let t := { replyTask (2 ^ 36) 0 with parent := some 5, flow := some 3, fseq := 1 }
     let s := replyState t queue
     (gthReq s t).oq = true ∧ flowHeld s t = true ∧ s.flowWait.contains 10751 = false) ∧
    (let t := replyTask (2 ^ 36) 1
     let s := replyState t outQueue
     (gthReq s t).oq = true ∧ flowHeld s t = false ∧ (getQ s (gthReq s t).oqid).cfg.out = true ∧ eff s t.dataGen ≠ 0) ∧
    (let t := replyTask (2 ^ 36) 0
     let s := replyState t { queue with openPkt := some { producer := 5 } }
     (gthReq s t).oq = true ∧ flowHeld s t = false ∧ (enqUnit s (gthReq s t).oqid 131 (eff s t.dataGen) [3]).2 = .waits ∧
       (enqUnit (replyState t queue) (gthReq s t).oqid 131 (eff s t.dataGen) [3]).2 ≠ .waits) := by
  decide +kernel

/-! ### Recording and replay -/

/-- A mounted volume whose rings are given, on a state with the link up. -/
def volState (l : List (Nat × Ring)) : State := { up with cdc := { vol := 1, rings := l }, hif := { up.hif with nv := { up := true } } }

/-- A ring with a segment in slot 7. -/
def ring7 : Ring := { st := 1, wp := 6, index := [(7, { seq := 9 })] }

theorem wit_RecordCommands :
    (Reaches up false (unitWorld up 196) (cdcBase + 0x40) ∧ flag (upRegs [(cdcBase + 0x44, 0x80000000)]) (cdcBase + 0x44) 31 = true ∧
       Reaches up true (unitWorld up 196) (cdcBase + 0x40) ∧ true ≠ unitWorld up 196 ∧ flag up (cdcBase + 0x44) 31 = false) ∧
    CdcTakes up false ∧ up.cdc.replay.active = false ∧ up.hif.nv.up = false ∧ up.cdc.vol ≠ 1 ∧
    (let s := volState [(15, ring7)]
     CdcTakes s false ∧ s.hif.nv.up = true ∧ s.cdc.vol = 1 ∧ (getRing s 14).st = 0 ∧ (getRing s 15).st ≠ 0 ∧
       (getRing s 15).index.find? (fun p => p.2.seq == 9) = some (7, { seq := 9 }) ∧
       (getRing s 15).index.find? (fun p => p.2.seq == 8) = none ∧ encodesTo s 15 = false) ∧
    (let s := { volState [(15, ring7)] with graphs := [(31, { graph with lines := [{ type := 8 }] })] }
     CdcTakes s false ∧ encodesTo s 15 = true ∧ s.cdc.replay.active = false) ∧
    (let s := { up with cdc := { vol := 1, replay := { active := true } } }
     CdcTakes s false ∧ s.cdc.replay.active = true) := by
  unfold CdcTakes Reaches; decide +kernel

/-- A record-volume header without rings. -/
def headerBody : List Byte := [0x4B, 0x52, 0x56, 0x31, 1, 0] ++ zeros 4086
def headerImage : List Byte := withCrc headerBody

theorem leBytes_length (n v : Nat) : (leBytes n v).length = n := by
  induction n generalizing v with
  | zero => rfl
  | succ n ih => simp [leBytes, ih]

theorem headerBody_length : headerBody.length = 4092 := by
  unfold headerBody zeros
  rw [List.length_append, List.length_replicate]
  rfl

/-- Inside the body, beyond its first six bytes, every field of the header is 0. -/
theorem slice_header {o n : Nat} (h : 6 ≤ o) (hn : o + n ≤ 4092) : slice headerImage o n = zeros n := by
  have : (headerImage.drop o).take n = zeros n := by
    unfold headerImage withCrc
    rw [List.drop_append_of_le_length (by rw [headerBody_length]; omega), List.take_append_of_le_length (by simp [headerBody_length]; omega)]
    unfold headerBody zeros
    rw [List.drop_append]
    have : [0x4B, 0x52, 0x56, 0x31, 1, (0 : Byte)].drop o = [] := List.drop_eq_nil_of_le (by simpa using h)
    rw [this, List.nil_append, List.drop_replicate, List.take_replicate]
    congr 1
    simp
    omega
  unfold slice
  rw [this]
  simp [zeros]

theorem leNat_zeros (n : Nat) : leNat (zeros n) = 0 := by
  induction n with
  | zero => rfl
  | succ n ih =>
    have : leNat (zeros (n + 1)) = 0 + 256 * leNat (zeros n) := rfl
    rw [this, ih]

theorem leAt_header {o n : Nat} (h : 6 ≤ o) (hn : o + n ≤ 4092) : leAt headerImage o n = 0 := by
  rw [leAt, slice_header h hn, leNat_zeros]

theorem rsv_header {o n : Nat} (h : 6 ≤ o) (hn : o + n ≤ 4092) : rsv headerImage o n = true := by
  rw [rsv, slice_header h hn]
  simp [zeros]

theorem leNat_leBytes4 (v : Nat) (h : v < 2 ^ 32) : leNat (leBytes 4 v) = v := by
  simp [leBytes, leNat]
  omega

theorem header_crc : leAt headerImage 4092 4 = crc32c (headerImage.take 4092) := by
  have h1 : headerImage.take 4092 = headerBody := by
    unfold headerImage withCrc
    rw [List.take_append_of_le_length (Nat.le_of_eq headerBody_length.symm), List.take_of_length_le (Nat.le_of_eq headerBody_length)]
  have h2 : slice headerImage 4092 4 = leBytes 4 (crc32c headerBody) := by
    have : (headerImage.drop 4092).take 4 = leBytes 4 (crc32c headerBody) := by
      unfold headerImage withCrc
      rw [List.drop_append_of_le_length (Nat.le_of_eq headerBody_length.symm), List.drop_of_length_le (Nat.le_of_eq headerBody_length), List.nil_append,
        List.take_of_length_le (Nat.le_of_eq (leBytes_length 4 _))]
    unfold slice
    rw [this]
    simp [leBytes_length, zeros]
  rw [leAt, h1, h2, leNat_leBytes4 _ (crc32c_lt _)]

theorem headerRing_none {n : Nat} (h : n < 16) : headerRing headerImage n = none := by
  unfold headerRing
  dsimp only
  rw [leAt_header (by omega) (by omega)]
  rfl

/-- The header is sound on any drive of two blocks or more. -/
theorem wit_RecordCommands_header (h : 2 ≤ Config.nvmeBlocks) : headerOk headerImage = true := by
  have hr : (List.range 16).filterMap (headerRing headerImage) = [] :=
    List.filterMap_eq_nil_iff.mpr fun n hn => headerRing_none (List.mem_range.mp hn)
  have ha : headerAreas headerImage = [(0, 2)] := by unfold headerAreas; rw [hr]; rfl
  have h0 : slice headerImage 0 4 = [0x4B, 0x52, 0x56, 0x31] := rfl
  have h4 : leAt headerImage 4 2 = 1 := rfl
  unfold headerOk
  rw [hr, ha, h0, h4, header_crc, rsv_header (by omega) (by omega), rsv_header (by omega) (by omega), rsv_header (by omega) (by omega)]
  have hz : ((List.range 16).all fun n => decide (leAt headerImage (64 + 32 * n) 1 ≤ 1) && rsv headerImage (64 + 32 * n + 24) 8) = true := by
    refine List.all_eq_true.mpr fun n hn => ?_
    have := List.mem_range.mp hn
    rw [leAt_header (by omega) (by omega), rsv_header (by omega) (by omega)]
    rfl
  rw [hz]
  simp [allOk, disjoint, sumN, h]

theorem wit_RecordCommands_badHeader : headerOk (zeros 4096) = false := by
  have h : (slice (zeros 4096) 0 4 == [0x4B, 0x52, 0x56, 0x31]) = false := by decide +kernel
  unfold headerOk
  rw [h]
  rfl

/-- The state of a FORMAT whose image lies at 2^30: DRAM readable, the volume not mounted, the port up. -/
def formatState : State :=
  { up with fwl := { up.fwl with dram := [(0, { first := 2 ^ 18, last := 2 ^ 18 + 15, flags := 0x80000000 })] },
            hif := { up.hif with nv := { up := true } }, mem := memPutAll [] (2 ^ 30) headerImage }

theorem wit_RecordCommands_format :
    CdcTakes formatState false ∧ formatState.cdc.replay.active = false ∧ (∀ n < 16, encodesTo formatState n = false) ∧
      formatState.hif.nv.up = true ∧ spaceOf (2 ^ 30) = .dram ∧ (access formatState 196 false false (2 ^ 30) 4096).2 = .ok ∧
      tagOf formatState (2 ^ 18) = 0 ∧ formatState.memBad = [] := by
  unfold CdcTakes Reaches; decide +kernel

theorem wit_RecordCommands_formatRead : Readable formatState 196 false (2 ^ 30) 4096 := by
  unfold Readable; decide +kernel

/-- That FORMAT finds the sound header. -/
theorem wit_RecordCommands_image : peek formatState (2 ^ 30) 4096 = headerImage := by
  have hl : headerImage.length = 4096 := by
    unfold headerImage withCrc
    rw [List.length_append, headerBody_length, leBytes_length]
  refine List.ext_getElem (by simp [peek, hl]) fun i h1 h2 => ?_
  have hm : ∀ i, memGet formatState.mem (2 ^ 30 + i) = if i < 4096 then nth 0 headerImage i else memGet [] (2 ^ 30 + i) := by
    intro i
    have := memGet_memPutAll headerImage [] (2 ^ 30) (2 ^ 30 + i) rfl
    rw [hl] at this
    have hf : formatState.mem = memPutAll [] (2 ^ 30) headerImage := by unfold formatState; with_reducible rfl
    rw [hf, this, Nat.add_sub_cancel_left]
    by_cases h : i < 4096
    · rw [if_pos h, if_pos ⟨Nat.le_add_right _ _, Nat.add_lt_add_left h _⟩]
    · rw [if_neg h, if_neg fun x => h (Nat.lt_of_add_lt_add_left x.2)]
  simp only [peek, List.getElem_map, List.getElem_range]
  rw [hm, if_pos (by omega)]
  simp [nth, h2]

/-- A ring whose record-index queue holds a packet, and the segment that it names. -/
def indexState (p : Packet) (r : Ring) (o : Option ReadOp) : State :=
  let s := volState [(15, r)]
  { s with cdc := { s.cdc with replay := { read := o } }, queues := [(4047, { queue with packets := [p], nextNum := 1 })] }
def indexPacket : Packet := { words := [{ data := 9 * 2 ^ 32 + 15 }] }
def spoolRing : Ring := { st := 1, wp := 6, spool := [{ seq := 9 }] }

theorem wit_RecordWriterAndReader_write :
    (let s := indexState indexPacket spoolRing none
     s.cdc.vol = 1 ∧ s.hif.nv.up = true ∧ s.cdc.write = none ∧ nextRing s = some 15 ∧ reading s 15 (nextSlot spoolRing) = false ∧
       (deqPacket s (4032 + 15) 196 0 9).2.2 = false ∧
       ((getRing (deqPacket s (4032 + 15) 196 0 9).1 15).spool.find? (fun g => g.seq == leAt (packetBytes (deqPacket s (4032 + 15) 196 0 9).2.1) 4 4)).isSome = true) ∧
    (let s := indexState { indexPacket with leap := true } spoolRing none
     nextRing s = some 15 ∧ (deqPacket s (4032 + 15) 196 0 9).2.2 = true) ∧
    (let s := indexState indexPacket spoolRing (some { ring := 15, slot := 7, seq := 1, leap := 0 })
     nextRing s = some 15 ∧ reading s 15 (nextSlot spoolRing) = true) ∧
    (let s := indexState indexPacket spoolRing none
     HoldsPacket s (4032 + 15) 0 196 indexPacket ∧ indexPacket.words.length ≤ 9 ∧ indexPacket.leap = false ∧
       ((getRing s 15).spool.find? (fun g => g.seq == leAt (packetBytes indexPacket.words) 4 4)).isSome = true) := by
  unfold HoldsPacket; decide +kernel

theorem wit_RecordWriterAndReader_complete :
    (let s (o : WriteOp) := { State.reset with cdc := { write := some o, rings := [(15, { spoolRing with lostRow := 7 })] } }
     (s { ring := 15, seg := { seq := 9 }, slot := 7 }).cdc.write = some { ring := 15, seg := { seq := 9 }, slot := 7 } ∧
       (getRing (s { ring := 15, seg := { seq := 9 }, slot := 7 }) 15).pinLater.contains 9 = false ∧
       (s { ring := 15, seg := { seq := 9 }, slot := 7, index := true, retried := true }).cdc.write.isSome = true ∧
       7 ≤ (getRing (s { ring := 15, seg := { seq := 9 }, slot := 7 }) 15).lostRow ∧ (getRing State.reset 15).lostRow < 7) ∧
    (let s := { State.reset with cdc := { replay := { active := true, frames := [{}, {}] } } }
     s.cdc.replay.frames = [{}, {}] ∧ (getSeq s 16).acts.length < 4) ∧
    (let s := { State.reset with cdc := { replay := { active := true, frames := [{}] } }, seqs := [(16, { acts := [{}, {}, {}, {}] })] }
     s.cdc.replay.frames = [{}] ∧ 4 ≤ (getSeq s 16).acts.length) ∧
    (let s := volState [(15, ring7)]
     let p : Replay := { active := true, ring := 15, rm := some 7 }
     let s := { s with cdc := { s.cdc with replay := p } }
     s.cdc.replay = p ∧ p.frames = [] ∧ p.read = none ∧ s.cdc.vol = 1 ∧ s.hif.nv.up = true ∧
       (getRing s p.ring).index.find? (fun x => x.1 == 7) = some (7, { seq := 9 })) ∧
    (let o : ReadOp := { ring := 15, slot := 7, seq := 9, leap := 0 }
     let s := { State.reset with cdc := { replay := { active := true, read := some o } } }
     s.cdc.replay.read = some o ∧ o.retried = false ∧ s.cdc.replay.active = true) := by
  decide +kernel

theorem wit_RecordWriterAndReader_port :
    (volState []).hif.nv.up = true ∧
    (let s := { State.reset with hif := { nv := { bring := true } } }
     s.hif.nv.bring = true ∧ s.cdc.vol = 0 ∧ s.hif.nv.fatal = false) ∧
    (let s := { State.reset with hif := { nv := { bring := true, fatal := true } }, cdc := { rings := [(15, ring7)] } }
     s.hif.nv.bring = true ∧ s.hif.nv.fatal = true ∧ (getRing s 15).st ≠ 0) := by
  decide +kernel

theorem wit_RecordWriterAndReader_noVolume (b : Nat) (h : b = 0 ∨ b = 1) :
    headerCopy { State.reset with cdc := { bad := [0, 1] } } b = none := by
  unfold headerCopy
  rw [if_neg]
  rintro ⟨-, hb⟩
  exact hb (by rcases h with rfl | rfl <;> rfl)

theorem wit_RecordWriterAndReader_volume : (headerCopy { State.reset with cdc := { drive := [(0, headerImage)] } } 0).isSome = true := by
  unfold headerCopy
  have : getBlock { State.reset with cdc := { drive := [(0, headerImage)] } } 0 = headerImage := rfl
  rw [this]
  dsimp only
  rw [if_pos ⟨header_crc, by decide +kernel⟩]
  rfl

/-! ### Codec stages -/

/-- An encode block of a picture of 128 by 128 at 2^30 for a ring of 256 blocks a slot. -/
def encodeBlock : List Byte :=
  [9, 0, 0, 0, 0, 51, 0, 0] ++ leBytes 2 128 ++ leBytes 2 128 ++ leBytes 4 0 ++ leBytes 4 65536 ++ zeros 4 ++ leBytes 8 (2 ^ 30) ++ leBytes 4 0 ++
    leBytes 4 128 ++ leBytes 8 (2 ^ 30 + 65472) ++ zeros 16
def encodeTask : Task := { stage 196 encodeBlock with stream := 15, frame := 4 }
def encodeRing : Ring := { st := 1, slotLba := 256, last := some 3 }

theorem wit_CodecStages_encode :
    let s := { workState encodeTask with cdc := { rings := [(15, encodeRing)] } }
    engTask s 196 = some (10751, encodeTask) ∧ getTask s 10751 = some encodeTask ∧ encodeTask.outs = none ∧ encodeTask.stream < 16 ∧ getRing s 15 = encodeRing ∧
      encBlockOk encodeBlock encodeRing = true ∧ (4 + 2 ^ 32 - 3 - 1) % 2 ^ 32 < 2 ^ 31 - 1 ∧
      (∀ p ∈ planeRows (slotAddr encodeBlock 24 32 0) 128 128 128 ++ planeRows (slotAddr encodeBlock 24 32 0 + 128 * 128) 128 64 128,
        Readable s 196 false p.1 p.2) ∧ leAt encodeBlock 40 8 ≠ 0 ∧ Readable s 196 false (slotAddr encodeBlock 40 48 0) 64 := by
  unfold Readable; decide +kernel

/-- A decode block with its surface at 2^30 and its frame info at 2^30 + 32,768, and a replayed frame of 64 by 2. -/
def decodeBlock (info : Nat) : List Byte :=
  [10, 0] ++ zeros 6 ++ leBytes 8 (2 ^ 30) ++ leBytes 4 192 ++ leBytes 4 64 ++ leBytes 8 info ++ zeros 32
def repFrame : RepFrame := { ring := 15, seq := 9, index := 1, w := 64, h := 2 }
def repStage (l : List Byte) : Task := { stage 197 l with src := 16 }
def decodeState (l : List Byte) : State :=
  { workState (repStage l) with seqs := [(16, { slots := [(0, { st := .dated, rep := some repFrame })] })],
                                                 cdc := { replay := { ref := some (15, 9, 0) } } }

theorem wit_CodecStages_decode : ∀ info ∈ [0, 2 ^ 30 + 32768],
    let l := decodeBlock info
    let s := decodeState l
    engTask s 197 = some (10751, repStage l) ∧ getTask s 10751 = some (repStage l) ∧ (repStage l).outs = none ∧ decBlockOk l = true ∧ (getSlot s 16 0).rep = some repFrame ∧
      repFrame.bad = false ∧ 64 ≤ leAt l 20 4 ∧ leAt l 20 4 * 3 * 2 / 2 ≤ leAt l 16 4 ∧
      (∀ y < 2 + 2 / 2, Writable s 197 false (slotAddr l 8 16 0 + y * leAt l 20 4) 64) ∧
      (leAt l 24 8 ≠ 0 → Writable s 197 false (slotAddr l 24 32 0) 64) ∧ Memory.wf s.mem = true ∧ hasRef s repFrame = true := by
  unfold Writable; decide +kernel

theorem wit_CodecStages_close : (getRing { State.reset with cdc := { rings := [(15, { ring7 with cur := some { seq := 9, t0 := 5 } })] } } 15).cur
    = some { seq := 9, t0 := 5 } := by decide +kernel

/-! ### Field block -/

/-- The state of segment 1, up or isolated, with its configuration. -/
def segRegs (cfg state : Reg) : State := upRegs [(segBase 1, cfg), (segBase 1 + 0x10, state)]

/-- A frame from `src` to all stations. -/
def frameFrom (src : List Byte) (n : Nat) : List Byte := List.replicate 6 0xFF ++ src ++ zeros (n - 12)

theorem wit_FieldSegments_frames :
    dieOn (segRegs 0x80000000 0x40000000) = true ∧ segState (segRegs 0x80000000 0x40000000) 1 = 1 ∧
      (zeros 59).length < 60 ∧ 1518 < (zeros 1519).length ∧ 60 ≤ (frameFrom (zeros 6) 60).length ∧ (frameFrom (zeros 6) 1518).length ≤ 1518 ∧
      (frameFrom (zeros 6) 60).take 6 = List.replicate 6 0xFF ∧
      ((1 :: zeros 59).take 6 ≠ macAt (segRegs 0x80000000 0x40000000) (segBase 1 + 0x08) ∧ (1 :: zeros 59).take 6 ≠ List.replicate 6 0xFF) ∧
      (∀ k < 8, flag (segRegs 0x80000000 0x40000000) (segBase 1 + 0x84 + 8 * k) 31 = false) ∧
      (∀ k < 32, flag (segRegs 0x80000000 0x40000000) (segBase 1 + 0x104 + 8 * k) 31 = false) := by
  decide +kernel

theorem wit_FieldSegments_transmit :
    let words := { data := 60 } :: List.replicate 8 ({} : QWord)
    let s := { segRegs 0x80000000 0x40000000 with queues := [(3974, { queue with cfg := { queue.cfg with maxpkt := 256 }, packets := [{ words := words }], nextNum := 1 })] }
    let r := { segRegs 0x80000000 0x40000000 with queues := [(3974, { queue with packets := [{ words := [{ data := 59 }] }], nextNum := 1 })] }
    dieOn s = true ∧ segState s 1 = 1 ∧ (headFor (getQ s 3974) (nth {} (getQ s 3974).recvs 0)).isSome = true ∧
      (deqPacket s 3974 207 0 2048).2.2 = false ∧ (txFrame (deqPacket s 3974 207 0 2048).2.1 1518 0xFFFF).isSome = true ∧
      (headFor (getQ r 3974) (nth {} (getQ r 3974).recvs 0)).isSome = true ∧ (deqPacket r 3974 207 0 2048).2.2 = false ∧
      txFrame (deqPacket r 3974 207 0 2048).2.1 1518 0xFFFF = none ∧
      HoldsPacket s 3974 0 207 { words := words } ∧ words.length ≤ 2048 ∧ (txFrame words 1518 0xFFFF).isSome = true := by
  unfold HoldsPacket; decide +kernel

theorem wit_FieldSegments_beacons :
    (let s := segRegs 0xE0000000 0x40000000
     dieOn s = true ∧ segState s 1 = 1 ∧ flag s (segBase 1) 30 = true ∧ flag s (segBase 1) 29 = true ∧ (getSeg s 1).held = false ∧
       (getSeg s 1).backoff ≤ now s ∧ ((getSeg s 1).conflicts.filter fun t => decide (now s < t + 1000000000)).length < 2) ∧
    (let s := { segRegs 0xE0000000 0x40000000 with fld := { segs := [(1, { conflicts := [0, 0] })] } }
     ((getSeg s 1).conflicts.filter fun t => decide (now s < t + 1000000000)).length = 2) ∧
    (let s := segRegs 0xC0000000 0x60000000
     dieOn s = true ∧ segState s 1 = 1 ∧ flag s (segBase 1) 30 = true ∧ flag s (segBase 1) 29 = false ∧ flag s (segBase 1 + 0x10) 29 = true) ∧
    500 < (501 : BitVec 16).toInt.natAbs ∧ 500 < (0x8000 : BitVec 16).toInt.natAbs ∧ (segRegs 0 0).power.st = .run := by
  decide +kernel

theorem wit_FieldSegments_tests :
    segState (segRegs 0x80000000 0x80000000) 1 = 2 ∧ (300 : BitVec 16).toInt.natAbs ≤ 300 ∧ 300 < (0xFED3 : BitVec 16).toInt.natAbs ∧
    (let s := { upRegs [(fldBase + 0x18, 2), (pwrBase + 0x30, 0x20)] with power := { st := .vigil } }
     s.power.st ≠ .run ∧ s.power.st ≠ .off ∧ segState s 1 ≠ 2 ∧ flag s (fldBase + 0x18) 1 = true ∧ flag s (pwrBase + 0x30) 5 = true) ∧
    Reaches up false (flag up (fwlBase + 0xA0) 3) (segBase 1) ∧ segState up 1 = 0 ∧ segState (segRegs 0x80000000 0x40000000) 1 ≠ 0 ∧
    (let n := (0xA0002008 : Reg).toNat
     bit 31 n = true ∧ bit 29 n = true ∧ bits 23 16 n = 0 ∧ bits 15 8 n = 32 ∧ bits 7 0 n ≠ 0) ∧
    (let n := (0x20FE0208 : Reg).toNat
     bit 31 n = false ∧ bit 29 n = true ∧ bits 23 16 n = 254 ∧ bits 15 8 n = 2) ∧
    (let n := (0x80FF2100 : Reg).toNat
     254 < bits 23 16 n ∧ 32 < bits 15 8 n ∧ bits 7 0 n = 0) := by
  unfold Reaches; decide +kernel

theorem wit_AlarmInputs :
    let s := withRegs [(fldBase + 0x3C, 0xE0000003), (fldBase + 0x7C, 0x11020000)]
    flag s (fldBase + 0x20 + 4 * 7) 31 = true ∧ s.power.st ≠ .off ∧ flag s (fldBase + 0x20 + 4 * 7) 29 = true ∧
      flag s (fldBase + 0x20 + 4 * 7) 30 = true ∧ field s (fldBase + 0x60 + 4 * 7) 31 28 = 1 ∧ field s (fldBase + 0x60 + 4 * 7) 23 16 = 2 := by
  decide +kernel

theorem wit_AlarmInputs_classes :
    sampleSpec 100 200 300 1 true 11 300 299 6 ∧ sampleSpec 100 200 300 1 true 10 300 299 5 ∧ sampleSpec 100 200 300 1 false 10 99 99 3 ∧
    sampleSpec 100 200 300 1 false 10 100 0 1 ∧ sampleSpec 100 200 300 1 false 10 200 0 2 ∧ sampleSpec 100 200 300 1 true 10 300 300 4 := by
  simp [sampleSpec]

/-- Output 3 enabled and commanded, in a state. -/
def outputState (x : Output) : State :=
  { upRegs [(fldBase + 0xAC, 0x80000001), (fldBase + 0xB0, 8)] with fld := { outs := [(3, x)] } }

theorem wit_SupervisedOutputs :
    (let s := outputState { st := 2 }
     Reaches s false (flag s (fwlBase + 0xA0) 3) (fldBase + 0xB0) ∧ outEn s 3 = true ∧ outEn s 0 = false ∧ outOn s 3 = true ∧
       flag s (fldBase + 0xB0) 3 ≠ bit 3 0 ∧ s.fld.vfldBad = false) ∧
    (let s := upRegs [(fldBase + 0xAC, 0x80000001)]
     let h := { s with fld := { outs := [(3, { hot := true })] } }
     outEn s 3 = true ∧ flag s (fldBase + 0xB0) 3 ≠ bit 3 8 ∧ (getOut s 3).hot = false ∧ (getOut h 3).hot = true) ∧
    (let s := outputState { st := 3, retryAt := some 5 }
     (getOut s 3).retryAt = some 5 ∧ (getOut s 3).st = 3 ∧ outEn s 3 = true ∧ outCmd s 3 = true ∧ s.fld.vfldBad = false ∧ timeRuns s = true) ∧
    (let s := upRegs [(fldBase + 0xAC, 0xC0000001)]
     let s := { s with fld := { outs := [(3, { st := 1 })] } }
     outEn s 3 = true ∧ (getOut s 3).st = 1 ∧ flag s (fldBase + 0xA0 + 4 * 3) 30 = true) ∧
    (getOut (outputState { st := 4 }) 3).st = 4 ∧
    (let s := outputState { st := 5 }
     (getOut s 3).st = 5 ∧ outEn s 3 = true ∧ outCmd s 3 = true ∧ s.fld.vfldBad = false) ∧
    (let s := { upRegs [(fldBase + 0xAC, 0x80000001)] with fld := { vfldBad := true } }
     s.power.st ≠ .off ∧ s.fld.vfldBad = true ∧ outEn s 3 = true ∧ outCmd s 3 = false) := by
  unfold Reaches; decide +kernel

/-! ### Host and network -/

theorem wit_FunctionsAndLink :
    dieOn up = true ∧ up.hif.link = .l0 ∧ fnPresent up 1 = true ∧ fnReach up 1 = true ∧
    (let s := { up with hif := { link := .reset } }
     dieOn s = true ∧ s.hif.link = .reset) ∧
    (let s := { up with hif := { link := .training } }
     dieOn s = true ∧ s.pins.perstN = true ∧ s.hif.link ≠ .l0 ∧ s.hif.link ≠ .reset) ∧
    { up with power := { bootStep := 5 } }.power.bootStep < 6 ∧
    (let s := { up with fwl := { up.fwl with fuses := { up.fwl.fuses with pf1en := false } } }
     dieOn s = true ∧ s.hif.link = .l0 ∧ fnPresent s 1 = false) ∧ (3 : Reg).toNat % 4 = 3 ∧
    (let s := upRegs [(fnPage 1 + 0x8000 + 4 * 63, 0x80000000)]
     let s := { s with hif := { s.hif with pf1 := { msixEn := true } } }
     fnReach s 1 = true ∧ (getFn s 1).msixEn = true ∧ (getFn s 1).msixMask = false ∧ flag s (fnPage 1 + 0x8000 + 4 * 63) 31 = true) := by
  decide +kernel

/-- PF0's window at 2^32 and DRAM there open to both functions. -/
def windowState (tags : List (Nat × Nat)) (r : Region) : State :=
  let s := upRegs [(fnPage 0 + 0x1_0004, 1)]
  { s with fwl := { s.fwl with dram := [(0, r)] }, tags := tags, gens := [(1, { st := .live })] }
def openRegion : Region := { first := 2 ^ 20, last := 2 ^ 20 + 15, flags := 0x80000000 }

theorem wit_MemoryWindow :
    (let s := windowState [] openRegion
     let a := 2 ^ 32 * getN s (fnPage 0 + 0x1_0004) + 4095
     fnReach s 0 = true ∧ (access s 202 false true a 2).2 = .ok ∧ (access s 202 false false a 2).2 = .ok ∧ (∀ p ∈ pagesOf a 2, tagOf s p = 0) ∧
       cellBad s a 2 = false ∧ Memory.wf s.mem = true) ∧
    (let s := windowState [(2 ^ 20, 1)] openRegion
     (access s 202 false false (2 ^ 32) 1).2 = .ok ∧ ∃ p ∈ pagesOf (2 ^ 32) 1, tagOf s p ≠ 0) ∧
    spaceOf (2 ^ 32 * getN (upRegs [(fnPage 0 + 0x1_0004, 0x40000000)]) (fnPage 0 + 0x1_0004)) = .none ∧
    (let s := windowState [] { openRegion with first := 0, last := 0 }
     fnReach s 0 = true ∧ (access s 202 false false (2 ^ 32) 1).2 = .denied) := by
  decide +kernel

/-- Ring 31 of PF0 with 128 cells, and a queue of PF0's world that its packets come from, with the given notice. -/
def ringState (ring : List (Nat × Reg)) (q : Queue) : State :=
  let s := upRegs ((fnPage 0 + 12, 0) :: ring.map fun p => (ringBase 0 31 + p.1, p.2))
  { s with queues := [(7, q)], hif := { s.hif with pf0 := { busMaster := true, msixEn := true } } }
def hostQueueOf (kind : Nat) (l : List Packet) : Queue :=
  { cfg := { queue.cfg with sys := true }, recvs := [{ kind := kind }], packets := l, nextNum := l.length }

theorem wit_DeliveryRings_bind :
    (let s := ringState [] (hostQueueOf 0 [])
     fnReach s 0 = true ∧ bindResult s 0 31 (0x07000007 ||| 0x80000000 : Reg).toNat = 0 ∧ bindResult s 0 31 (0x06000007 ||| 0x80000000 : Reg).toNat = 4 ∧
       ringBound s 0 31 = false) ∧
    (let s := ringState [(0x10, 0x87000007), (0x20, 0x80000000), (0x18, 127)] (hostQueueOf 3 [])
     fnReach s 0 = true ∧ ringBound s 0 31 = true ∧ (ringRecv s 0 31).2 < (getQ s (ringRecv s 0 31).1).recvs.length ∧
       (getR s (ringBase 0 31 + 0x18) - 0xFFFFFFFF).toNat ≤ 2 ^ field s (ringBase 0 31 + 0x10) 28 24 ∧
       2 ^ field s (ringBase 0 31 + 0x10) 28 24 < (getR s (ringBase 0 31 + 0x18) - 0xFFFFFFFE).toNat) := by
  decide +kernel

theorem wit_DeliveryRings_deliver :
    let p : Packet := { words := List.replicate 9 {} }
    let s := ringState [(0x10, 0x87000007), (0x20, 0x80000000), (0x18, 127), (0x1C, 127)] (hostQueueOf 3 [p])
    s.power.st = .run ∧ nextRingOf s 0 = some 31 ∧ hostReach s (0 == 1) = true ∧ ringRecv s 0 31 = (7, 0) ∧ (getQ s 7).ptrBad = false ∧
      (nth {} (getQ s 7).recvs 0).markers = [] ∧ headFor (getQ s 7) (nth {} (getQ s 7).recvs 0) = some p ∧ NoSquashWaits s ∧ p.bad = false ∧ p.soft = 0 ∧
      1 + cdiv p.words.length 8 = 3 ∧ ¬ 3 ≤ 128 - 127 % 128 ∧ (getFn s 0).msixEn = true ∧ (getFn s 0).msixMask = false ∧
      flag s (fnPage 0 + 16 * field s (ringBase 0 31 + 0x14) 10 0 + 12) 0 = false := by
  unfold NoSquashWaits; decide +kernel

/-- MAC 1 enabled, its link up at the given rate, with its transmit queue. -/
def macState (state : Reg) (q : Queue) : State := { upRegs [(macBase 1, 0x80000000), (macBase 1 + 4, state)] with queues := [(3979, q)] }

theorem wit_NetworkAndTime_receive :
    let s := macState 0x80000005 queue
    dieOn s = true ∧ flag s (macBase 1) 31 = true ∧ flag s (macBase 1 + 4) 31 = true ∧ (zeros 59).length < 60 ∧
      (frameFrom (zeros 6) 60).length = 60 ∧ macPasses (wakeSource s 6) 1 ((frameFrom (zeros 6) 60).take 6) = true ∧
      macPasses (wakeSource s 6) 1 [1, 0, 0, 0, 0, 0] = false ∧
      isPtp (List.replicate 6 0xFF ++ zeros 6 ++ [0x88, 0xF7] ++ zeros 46) = true ∧ isPtp (frameFrom (zeros 6) 60) = false ∧
      flag (macState 0 queue) (macBase 1 + 4) 31 = false := by
  decide +kernel

theorem wit_NetworkAndTime_transmit :
    let q (n : Nat) (l : List QWord) : Queue :=
      { queue with cfg := { queue.cfg with maxpkt := 256 }, packets := [{ words := { data := BitVec.ofNat 64 n } :: l }], nextNum := 1 }
    let s (st : Reg) := macState st (q 60 (List.replicate 8 {}))
    let r := macState 0x80000005 (q 59 [])
    (∀ st ∈ [(0 : Nat), 0x80000005], dieOn (s (reg st)) = true ∧ flag (s (reg st)) (macBase 1) 31 = true ∧
      (headFor (getQ (s (reg st)) 3979) (nth {} (getQ (s (reg st)) 3979).recvs 0)).isSome = true ∧ (deqPacket (s (reg st)) 3979 206 0 2048).2.2 = false ∧
      (txFrame (deqPacket (s (reg st)) 3979 206 0 2048).2.1 9212 0xFFFF0001FFFF).isSome = true) ∧
    flag (deqPacket (s 0) 3979 206 0 2048).1 (macBase 1 + 4) 31 = false ∧ flag (deqPacket (s 0x80000005) 3979 206 0 2048).1 (macBase 1 + 4) 31 = true ∧
    (headFor (getQ r 3979) (nth {} (getQ r 3979).recvs 0)).isSome = true ∧ (deqPacket r 3979 206 0 2048).2.2 = false ∧
    txFrame (deqPacket r 3979 206 0 2048).2.1 9212 0xFFFF0001FFFF = none ∧
    (let p : Packet := { words := { data := 60 } :: List.replicate 8 {} }
     HoldsPacket (s 0x80000005) 3979 0 206 p ∧ p.words.length ≤ 2048 ∧
       (txFrame p.words 9212 0xFFFF0001FFFF).map (fun x => bit 16 x.1) = some false) := by
  unfold HoldsPacket; decide +kernel

theorem wit_NetworkAndTime_time :
    (Reaches up false (hifWorld up) (hifBase + 0x208) ∧ servo up ≠ 1 ∧ (85899345 : Reg).toInt.natAbs ≤ 85899345 ∧ 85899345 < (85899346 : Reg).toInt.natAbs) ∧
    (Reaches up true (hifWorld up) (hifBase + 0x214) ∧ Reaches up false (hifWorld up) (hifBase + 0x200) ∧ Reaches up false (hifWorld up) (hifBase + 0x1200)) ∧
    (let s := upRegs [(hifBase + 0x20C, 0x00010001)]
     Reaches s false (hifWorld s) (hifBase + 0x208) ∧ servo s = 1 ∧ field s (hifBase + 0x20C) 16 16 = 1) ∧
    (let s := { upRegs [(hifBase + 0x20C, 0x00010001)] with queues := [(3983, fullQueue)] }
     servo s = 1 ∧ dieOn s = true ∧ s.power.st = .run ∧ (headFor (getQ s 3983) (nth {} (getQ s 3983).recvs 0)).isSome = true) ∧
    1000000 < (0x8000000000000000 : BitVec 64).toInt.natAbs ∧ (1000000 : BitVec 64).toInt.natAbs ≤ 1000000 ∧ 1000 < (1001 : BitVec 64).toInt.natAbs ∧
    (1000 : BitVec 64).toInt.natAbs ≤ 1000 := by
  unfold Reaches; decide +kernel

/-! ### Well-formedness: one ill-formed command for each check, which the check refuses -/

theorem ill_registerWrite_width : wf (.registerWrite false false 0 3 (some 0)) = false := by decide
theorem ill_registerWrite_window : wf (.registerWrite false false (2 ^ 28 - 4) 8 none) = false ∧
    wf (.registerWrite false false (2 ^ 28 - 8) 8 (some 0)) = true := by decide
theorem ill_registerWrite_page : wf (.registerWrite false true (2 ^ 20) 1 (some 0)) = false := by decide
theorem ill_tableRegister : wf (.tableRegister false 0 (List.replicate 12 0)) = false := by decide
theorem ill_diaryNote : wf (.diaryNote false 0 (List.replicate 9 0)) = false := by decide
theorem ill_smbusBlockWrite : wf (.smbusBlockWrite 0x58 true 0 0 (List.replicate 17 0)) = false := by decide
theorem ill_scrubComplete : wf (.scrubComplete 0) = false ∧ wf (.scrubComplete 255) = false ∧ wf (.scrubComplete 254) = true := by decide
theorem ill_kick : wf (.kick 0 0 .cs (2 * 64 + 4) 0 false 0) = false ∧ wf (.kick 0 0 .cs (4 * 64 + 8) 0 false 0) = false ∧
    wf (.kick 0 0 .cs (8 * 64 + 63) 0 false 0) = false ∧ wf (.kick 0 0 .cs (9 * 64) 0 false 0) = false ∧
    wf (.kick 0 0 .cs (2 * 64 + 63) 0 false 0) = true ∧ wf (.kick 0 0 .cs (7 * 64 + 63) 0 false 0) = true := by decide
theorem ill_lantern : wf (.lantern 16 0 0 0 0) = false ∧ wf (.lantern 17 0 (5 * 64) 0 0) = false ∧ wf (.lantern 17 0 63 0 0) = false ∧
    wf (.lantern 17 0 (9 * 64) 0 0) = true := by decide
theorem ill_enq : wf (.enq 0 0 .cs false 1 0) = false := by decide
theorem ill_deq : wf (.deq 0 0 false 31 0) = false := by decide
theorem ill_tarm : wf (.tarm 0 0 0 false 0) = false := by decide
theorem ill_trd : wf (.trd 0 0 .cs 1 6) = false ∧ wf (.trd 0 0 .cs 1 5) = true := by decide
theorem ill_seqActivation : wf (.seqActivation 15) = false ∧ wf (.seqActivation 19) = false ∧ wf (.seqActivation 18) = true := by decide
theorem ill_length (l : List Byte) (h : 2 ^ 16 ≤ l.length) : wf (.imageLine 0 0 0x2A .ok true false l) = false ∧
    wf (.embeddedLine 0 0 0x12 .ok true l) = false ∧ wf (.segmentFrameReceive 0 0 true l) = false ∧ wf (.ethFrameReceive 0 true l) = false := by
  have : decide (l.length < 2 ^ 16) = false := by simpa using h
  exact ⟨this, this, this, this⟩
theorem ill_sensorWriteComplete : wf (.sensorWriteComplete 0 33) = false ∧ wf (.sensorWriteComplete 0 32) = true := by decide
theorem ill_scm : wf (.scmWrite false 0 0 0 0 .done) = false ∧ wf (.scmRead false 0 0 0 0 .done 0) = false := by decide
theorem ill_engine : wf (.engineError 127) = false ∧ wf (.engineError 160) = false ∧ wf (.engineError 197) = true ∧
    wf (.engineMemoryTimeout 128 (2 ^ 64)) = false ∧ wf (.engineMemoryTimeout 63 0) = false := by decide
theorem ill_nvmeBringup : wf (.nvmeBringup true 3 1) = false ∧ wf (.nvmeBringup true 4 5) = false ∧ wf (.nvmeBringup true 4 4) = true := by decide
theorem ill_codec : wf (.format false (2 ^ 64)) = false ∧ wf (.pin false (2 ^ 32) 0 0) = false ∧ wf (.unpin false 0 (2 ^ 32) 0) = false ∧
    wf (.replayStart false 0 (2 ^ 32)) = false ∧ wf (.ringClear false (2 ^ 32)) = false := by decide
theorem ill_regionEntryWrite : wf (.regionEntryWrite false true 64 0 0) = false ∧ wf (.regionEntryWrite false false 255 0 0) = true := by decide
theorem ill_sensorSample : wf (.sensorSample .volt 11 0) = false ∧ wf (.sensorSample .curr 10 0) = true := by decide
theorem ill_memoryWindowAccess : wf (.memoryWindowAccess 0 false (2 ^ 32) 1 []) = false ∧ wf (.memoryWindowAccess 0 true (2 ^ 32 - 1) 9 [0]) = true := by decide
theorem ill_ethLinkChange : wf (.ethLinkChange 0 6) = false := by decide
theorem ill_linkReachesL0 : wf (.linkReachesL0 3 1) = false ∧ wf (.linkReachesL0 8 6) = false ∧ wf (.linkReachesL0 8 5) = true := by decide

/-- No row of the opcode table has bits, so no word spells a command and the queue stays as it is. -/
theorem test_decode (s : State) (nbits w : Nat) : decodeTableWord nbits w = none ∧ s.withFetchWord nbits w = s := ⟨rfl, rfl⟩

/-! ### Results that the specification works out -/

/-- spec/01_module_and_frame.md, after the address map: the blocks of SEQ 17 and TC 42. -/
theorem test_block_addresses : seqBase 17 = 0x01110000 ∧ tcBase 42 = 0x08A80000 := by decide

/-- spec/02_number_formats.md, worked example of MX scaling: 13.0, 2.5, −0.3, 0.76 in a block of MXFP4-E2M1 give the scale 0x80, the
codes 7, 2, 8, 1, the bytes 0x27 and 0x18, and no SAT. -/
theorem test_mx_block :
    let r := mxBlock 0xB ([0x41500000, 0x40200000, 0xBE99999A, 0x3F428F5C].map FFmt.fp32.dec ++ List.replicate 28 (FV.ofInt 1))
    r.1 = 0x80 ∧ r.2.1.take 4 = [7, 2, 8, 1] ∧ (packCodes 0xB (r.2.1.take 4)) = [0x27, 0x18] ∧ r.2.2 = 0 := by decide +kernel

/-- spec/02_number_formats.md, worked example of QF16 with the qualifier 0b110101: FP32 and FP16 results, flags and masks. -/
theorem test_qf16 :
    convElem .rne 0xE 0b110101 0x1A3D 0 0xA 0 = (0x4351E800, 0, 1) ∧ convElem .rne 0xE 0b110101 0x1A3D 0 8 0 = (0x5A8F, 0, 1) ∧
    convElem .rne 0xE 0b110101 0x0D2E 0 0xA 0 = (0x42D2E000, 0, 1) ∧ convElem .rne 0xE 0b110101 0x0D2E 0 8 0 = (0x5697, 0, 1) ∧
    convElem .rne 0xE 0b110101 0xFFFE 0 0xA 0 = (0x7FC0FFFE, 8, 0) ∧ convElem .rne 0xE 0b110101 0xFFFE 0 8 0 = (0x7E00, 8, 0) := by
  decide +kernel

/-- spec/03_frame_graphs.md, worked example of flags: NFLAG 24, base 4,096, slot 2, flag 7. -/
theorem test_flag_word : flagAddr { graph with hdr := { nflag := 24 } } 2 7 = 4151 := by decide

/-- R83: CRC-32C is the Castagnoli code; its published check value over the digits 1 to 9. -/
theorem test_crc32c : crc32c [0x31, 0x32, 0x33, 0x34, 0x35, 0x36, 0x37, 0x38, 0x39] = 0xE3069283 := by decide +kernel

/-- spec/13_warp_and_pyramid_engines.md, worked example: the layout of a pyramid of four levels on 960 by 540. -/
theorem test_pyramid_layout :
    (List.range 4).map (fun l => (pyrSize 960 l, pyrSize 540 l, pyrStride 960 1 l, pyrOff 960 540 1 l))
      = [(960, 540, 960, 0), (480, 270, 512, 518400), (240, 135, 256, 656640), (120, 68, 128, 691200)] ∧
    pyrOff 960 540 1 4 = 699904 := by decide +kernel

/-- spec/16_gather_engine.md, after R476: an INT8RS row with E 60, scale 0.046875 and element −37. -/
theorem test_int8rs :
    let row := BitVec.ofInt 8 (-37) :: zeros 59 ++ leBytes 4 0x3D400000
    rowElem { gthTableOf [] with rfmt := 2, elems := 60 } row 0 = 0xBFDE0000 ∧ f32to16 0xBFDE0000 = 0xBEF0 := by decide +kernel

/-- A write to host memory as its address, its length, and its first two fields of two bytes. -/
def written : Out → List Nat
  | .hostWrite _ a l => [a, l.length, leAt l 0 2, leAt l 2 2]
  | _ => []

/-- spec/23_host_and_network.md, worked example of a ring: PI 120, CI 90, SIZE 7, 232 words: a pad at cell 120, the image at cell 0
with WORDS 232 and side field 0, PI 158 and one packet. -/
theorem test_ring_delivery :
    after (.ringDelivery 0) (ringState [(0x10, 0x87000007), (0x20, 0x80000000), (0x18, 120), (0x1C, 90)]
        (hostQueueOf 3 [{ words := List.replicate 232 {} }])) (fun t => (getN t (ringBase 0 31 + 0x18), t.out.map written))
      = some (158, [[64 * 120, 64, 0, 0xFFFF], [0, 1920, 232, 0], [0, 8, 158, 0], []]) := by decide +kernel

/-! ### Single steps, worked out by hand -/

/-- R98: an addition wraps, an arithmetic shift by 31 keeps the sign, and MIN compares as signed numbers. -/
theorem test_alu :
    let s (w : Word) := seqState 19 1 { running with g := [(1, (0xFFFFFFFF, 0)), (3, (0x80000000, 0))] } {} w
    after (.alu 19 1 .add 1 1 (.imm 2)) (s (wordAlu .add 1 1 (.imm 2))) (fun t => (getG (getCtx t 19 1) 1).1) = some 1 ∧
    after (.alu 19 1 .sra 2 3 (.imm 31)) (s (wordAlu .sra 2 3 (.imm 31))) (fun t => (getG (getCtx t 19 1) 2).1) = some 0xFFFFFFFF ∧
    after (.alu 19 1 .min 2 3 (.imm 1)) (s (wordAlu .min 2 3 (.imm 1))) (fun t => (getG (getCtx t 19 1) 2).1) = some 0x80000000 ∧
    after (.alu 19 1 .minu 2 3 (.imm 1)) (s (wordAlu .minu 2 3 (.imm 1))) (fun t => (getG (getCtx t 19 1) 2).1) = some 1 ∧
    after (.alu 19 1 .add 0 1 (.imm 2)) (s (wordAlu .add 0 1 (.imm 2))) (fun t => (getG (getCtx t 19 1) 0).1) = some 0 := by decide +kernel

/-- R447: a tensor multiply keeps the low 32 bits; R434: a write to s0 is discarded. -/
theorem test_salu :
    let w (sd : Nat) := tcWord 3 (12 * 2 ^ 112 + sd * 2 ^ 91 + 2 ^ 86 + 2 ^ 80 + 0x10001)
    let s (sd : Nat) := coreState { prog := [w sd], exec := { s := [(1, 0x10001)] } }
    after (.salu 63 true) (s 2) (fun t => (getTc t 63).core.exec.gs 2) = some 0x20001 ∧
    after (.salu 63 true) (s 0) (fun t => (getTc t 63).core.exec.gs 0) = some 0 := by decide +kernel

/-- The front command runs, with the rest of the queue left waiting. -/
theorem test_step :
    let s := { seqState 0 0 running {} with pending := [.nop 0 0, .nop 0 1] }
    (match step s with
     | .next t => (t.pending == [.nop 0 1]) && (getCtx t 0 0).pc == 1
     | _ => false) = true := by decide +kernel

/-- R17: both worlds write a register of a non-secure block; a non-secure write of the firewall leaves its register at 0. -/
theorem test_registerWrite :
    after (.registerWrite false false (ispBase 3 + 0x31008) 4 (some 7)) up (fun t => getN t (ispBase 3 + 0x31008)) = some 7 ∧
    after (.registerWrite true false (ispBase 3 + 0x31008) 4 (some 9)) up (fun t => getN t (ispBase 3 + 0x31008)) = some 9 ∧
    after (.registerWrite false false (fwlBase + 0xA0) 4 (some 8)) up (fun t => getN t (fwlBase + 0xA0)) = some 0 ∧
    after (.registerWrite true false (fwlBase + 0xA0) 4 (some 8)) up (fun t => getN t (fwlBase + 0xA0)) = some 8 := by decide +kernel

end Sys2Proof.Tests
end

section
/-!
PROOF. The register and branch instructions of a sequencer (R97 to R101): what an issued instruction gives, and the results of
`ALU` on the unsigned and the signed reading of its operands.
-/
namespace Sys2Proof.Machine

/-! ### Issue (R92, R94, R97) -/

/-- A context that issues the word `w` gives an instruction that accepts `w` the state with the issue counted. -/
theorem issue_of_accepts {s : State} {n c : Nat} {g : Graph} {w : Word} (h : Issues s n c g w) {is : Word → Bool}
    (hw : is w = true) (f : State → Ctx → Graph → State) :
    issue n c is s f = .next (f (inc s (seqBase n + 0x20)) (getCtx s n c) g) := by
  obtain ⟨hgraph, hrun, hword, hsound⟩ := h
  simp only [issue, hgraph, hrun, hword, hsound, hw, ne_eq, not_true_eq_false, Bool.false_eq_true, if_false, if_true]

/-- The same for an instruction that accepts one word alone. -/
theorem issue_of_issues {s : State} {n c : Nat} {g : Graph} {w : Word} (h : Issues s n c g w)
    (f : State → Ctx → Graph → State) :
    issue n c (· == w) s f = .next (f (inc s (seqBase n + 0x20)) (getCtx s n c) g) :=
  issue_of_accepts h (is := (· == w)) (beq_self_eq_true w) f

/-! ### The results of FN (R98) -/

/-- Every FN gives the result that R98 asks for. -/
theorem aluFn_meets_aluSpec (fn : AluFn) (a b : Reg) : aluSpec fn a b (aluFn fn a b) := by
  cases fn with
  | add => exact BitVec.toNat_add a b
  | sub => simp only [aluSpec, aluFn, BitVec.toNat_sub]; omega
  | and => exact fun _ => BitVec.getLsbD_and
  | or => exact fun _ => BitVec.getLsbD_or
  | xor => exact fun _ => BitVec.getLsbD_xor
  | shl => simp only [aluSpec, aluFn, BitVec.toNat_shiftLeft, Nat.shiftLeft_eq]
  | shr => simp only [aluSpec, aluFn, BitVec.toNat_ushiftRight, Nat.shiftRight_eq_div_pow]
  | sra => simp only [aluSpec, aluFn, BitVec.toInt_sshiftRight, Int.shiftRight_eq_div_pow]; norm_cast
  | min | max | minu | maxu => simp only [aluSpec, aluFn]; split <;> omega

/-! ### Each instruction, once issued (R97 to R101) -/

/-- A register write leaves the program counter (R91). -/
@[simp] theorem setG_pc (x : Ctx) (r : Nat) (v : Reg) (tag : Nat) : (setG x r v tag).pc = x.pc := by
  unfold setG; split <;> rfl

section
variable {s : State} {n c : Nat} {g : Graph}

theorem execSeqNop_of_issues (h : Issues s n c g wordNop) :
    execSeqNop n c s = .next (done (inc s (seqBase n + 0x20)) n c (getCtx s n c)) :=
  issue_of_issues h _

theorem execSeqAlu_of_issues {fn : AluFn} {gd ga : Nat} {b : RegImm 32} (h : Issues s n c g (wordAlu fn gd ga b)) :
    let x := getCtx s n c
    let m := mergeGen (inc s (seqBase n + 0x20)) (getG x ga).2 (operand x b).2
    execSeqAlu n c fn gd ga b s = .next (setCtx m.1 n c
      { setG x gd (aluFn fn (getG x ga).1 (operand x b).1) m.2 with pc := x.pc + 1, rst := .run, wait := none }) := by
  simp only [execSeqAlu, issue_of_issues h, done, setG_pc]

/-- A branch that names a slot where it asks for one either jumps or goes on. -/
theorem execSeqBr_of_issues {k : SSel} {cond : BrCond} {ga : Nat} {b : RegImm 16} {target : Nat}
    (h : Issues s n c g (wordBr k cond ga b target)) (hslot : (getCtx s n c).cs.isSome ∨ (cond ≠ .sq ∧ cond ≠ .nsq)) :
    let x := getCtx s n c
    let s1 := inc s (seqBase n + 0x20)
    execSeqBr n c k cond ga b target s = .next (
      if brHolds s1 n x cond k (getG x ga).1 (operand x b).1 then setCtx s1 n c { x with pc := target } else done s1 n c x) := by
  have hnofault : ¬ ((cond = .sq ∨ cond = .nsq) ∧ (selIndex (getCtx s n c) k).isNone = true) := by
    rintro ⟨hcond, hnone⟩
    obtain hcs | ⟨hsq, hnsq⟩ := hslot
    · obtain ⟨i, hi⟩ := Option.isSome_iff_exists.mp hcs
      simp [selIndex, hi] at hnone
    · exact hcond.elim hsq hnsq
  simp only [execSeqBr, issue_of_issues h, if_neg hnofault]

theorem execJr_of_issues {ga : Nat} (h : Issues s n c g (wordJr ga))
    (hprog : (getG (getCtx s n c) ga).1.toNat < g.pl.prog.length) (hpc : (getG (getCtx s n c) ga).1.toNat < 2048) :
    execJr n c ga s = .next (setCtx (inc s (seqBase n + 0x20)) n c
      { getCtx s n c with pc := (getG (getCtx s n c) ga).1.toNat }) := by
  simp only [execJr, issue_of_issues h, if_pos (And.intro hprog hpc)]

theorem execHalt_of_issues {code : Nat} (h : Issues s n c g (wordHalt code)) :
    execHalt n c code s = .next (raise (drainGraph (stopSlots (setCtx (inc s (seqBase n + 0x20)) n c
      { getCtx s n c with rst := .halted, haltCode := code, wait := none }) n c 0) n c) (seqBase n + 0x14) 0) :=
  issue_of_issues h _

end

/-- Settles O7: each instruction is issued once (`issue_of_issues`), and `ALU` computes what R98 says (`aluFn_meets_aluSpec`). -/
theorem seqPlainInstructions : Obligations.SeqPlainInstructions := by
  unfold Obligations.SeqPlainInstructions
  intro s n c g x s1
  refine ⟨?nop, ?alu, ?br, ?jr, ?halt⟩
  case nop => exact fun h => execSeqNop_of_issues h
  case alu => exact fun fn gd ga b h => ⟨_, aluFn_meets_aluSpec fn _ _, execSeqAlu_of_issues h⟩
  case br => exact fun k cond ga b target h hslot => execSeqBr_of_issues h hslot
  case jr => exact fun ga h hprog hpc => execJr_of_issues h hprog hpc
  case halt => exact fun code h => execHalt_of_issues h

end Sys2Proof.Machine
end

section
/-!
PROOF. The control instructions of a tensor core (R447 to R450): what a unit that issues an instruction does with its work, the
result of each operation, and each instruction once issued.
-/
namespace Sys2Proof.Machine

/-! ### The units of a core -/

@[simp] theorem TCore.setUnit_unit (k : TCore) (x : Bool) : k.setUnit x (k.unit x) = k := by cases x <;> rfl

@[simp] theorem TCore.unit_setUnit (k : TCore) (x : Bool) (u : TcUnit) : (k.setUnit x u).unit x = u := by cases x <;> rfl

/-- A register write leaves a unit's program counter (R435). -/
@[simp] theorem TcUnit.setS_pc (u : TcUnit) (i : Nat) (v : Reg) : (u.setS i v).pc = u.pc := by unfold setS; split <;> rfl

@[simp] theorem TcUnit.setA_pc (u : TcUnit) (i : Nat) (v : Word) : (u.setA i v).pc = u.pc := rfl

@[simp] theorem TcUnit.setTd_pc (u : TcUnit) (i : Nat) (v : BitVec 128) : (u.setTd i v).pc = u.pc := rfl

/-! ### Tokens and encodings (R407, R442, R446) -/

/-- A unit stands where it stood when its instruction takes its token. -/
theorem tcToken_pc {k0 k : TCore} {x : Bool} {w : BitVec 128} (h : tcToken k0 x w = some k) :
    (k.unit x).pc = (k0.unit x).pc := by
  unfold tcToken at h
  split at h
  · obtain ⟨k', -, rfl⟩ := Option.map_eq_some_iff.mp h
    rw [TCore.unit_setUnit]
  · cases h
    rfl

theorem opFields_of_encOk {w : BitVec 128} (h : encOk w = true) : (opFields (wOp w)).isNone = false := by
  unfold encOk at h
  split at h
  · exact nomatch h
  · next hfields => simp [hfields]

theorem encResv_of_encOk {w : BitVec 128} (h : encOk w = true) : encResv w = false := by
  unfold encOk at h
  split at h
  · exact nomatch h
  · simpa using (Bool.and_eq_true_iff.mp h).2

/-! ### Issue (R407, R435, R443) -/

section
variable {s : State} {c op e : Nat} {x : Bool} {t : Task} {k : TCore} {w : BitVec 128}

/-- An instruction that issues does its work on the core as it issues. -/
theorem tcIssue_of_issues (h : TcIssues s c x op e t k w)
    (f : State → Nat → Task → TCore → BitVec 128 → TcRes TCore) :
    tcIssue c x op f s = tcCommit s c e t k (k.unit x).pc (f s e t k w) := by
  obtain ⟨⟨htask, hprog, hop, hended, hdelivered, hroom⟩, henc, htoken⟩ := h
  have hready : ¬ (wOp w ≠ op ∨ (getTc s c).core.ended ∨ ¬ tcDelivered (getTc s c).core x ∨
      (pushesToken w x ∧ ¬ tokenRoom (getTc s c).core x)) := by
    simpa [hop, hended, hdelivered] using hroom
  rw [tcToken_pc htoken]
  simp only [tcIssue, htask, hprog, if_neg hready, henc, not_true_eq_false, if_false]
  unfold tcToken at htoken
  split at htoken
  · next hneeds =>
    obtain ⟨k', hpop, rfl⟩ := Option.map_eq_some_iff.mp htoken
    simp [hneeds, hpop]
  · next hneeds =>
    cases htoken
    simpa using fun hn hg => absurd ⟨hn, hg⟩ hneeds

theorem tcIssue_completes {s1 : State} {k' : TCore} {f : State → Nat → Task → TCore → BitVec 128 → TcRes TCore}
    (h : TcIssues s c x op e t k w) (hf : f s e t k w = (s1, .ok k')) : tcIssue c x op f s = withCore s1 c k' := by
  rw [tcIssue_of_issues h, hf]
  rfl

theorem tcIssue_faults {s1 : State} {code a : Nat} {f : State → Nat → Task → TCore → BitVec 128 → TcRes TCore}
    (h : TcIssues s c x op e t k w) (hf : f s e t k w = (s1, .error (.fault code a))) :
    tcIssue c x op f s = tcFault s1 c e t k.d code (k.unit x).pc a := by
  rw [tcIssue_of_issues h, hf]
  rfl

/-- The machine once unit `x` has done `w`, with `v` for its registers and `pc` for its next place. -/
def unitDone (s : State) (c : Nat) (x : Bool) (k : TCore) (w : BitVec 128) (v : TcUnit) (pc : Nat) : State :=
  withCore s c (tcDone (k.setUnit x v) x w pc)

/-- An instruction that writes no register leaves the core as it issues. -/
theorem unitDone_same (pc : Nat) : unitDone s c x k w (k.unit x) pc = withCore s c (tcDone k x w pc) := by
  rw [unitDone, TCore.setUnit_unit]

/-- An instruction that only computes writes the unit's registers and goes on. -/
theorem tcCtl_ok {g : TcUnit → BitVec 128 → Except TcStop TcUnit} {v : TcUnit} (hg : g (k.unit x) w = .ok v)
    (hpc : v.pc = (k.unit x).pc) :
    tcCtl x g s e t k w = (s, .ok (tcDone (k.setUnit x v) x w ((k.unit x).pc + 1))) := by
  simp only [tcCtl, hg, hpc]

theorem tcCtl_error {g : TcUnit → BitVec 128 → Except TcStop TcUnit} {z : TcStop} (hg : g (k.unit x) w = .error z) :
    tcCtl x g s e t k w = (s, .error z) := by
  simp only [tcCtl, hg]

theorem tcCtl_completes {g : TcUnit → BitVec 128 → Except TcStop TcUnit} {v : TcUnit} (h : TcIssues s c x op e t k w)
    (hg : g (k.unit x) w = .ok v) (hpc : v.pc = (k.unit x).pc) :
    tcIssue c x op (tcCtl x g) s = unitDone s c x k w v ((k.unit x).pc + 1) :=
  tcIssue_completes h (tcCtl_ok hg hpc)

theorem tcCtl_faults {g : TcUnit → BitVec 128 → Except TcStop TcUnit} {code a : Nat} (h : TcIssues s c x op e t k w)
    (hg : g (k.unit x) w = .error (.fault code a)) :
    tcIssue c x op (tcCtl x g) s = tcFault s c e t k.d code (k.unit x).pc a :=
  tcIssue_faults h (tcCtl_error hg)

/-! ### The encodings of COND and FN (R447, R448) -/

/-- An instruction that issues uses no reserved encoding, and has the opcode asked for. -/
theorem encResv_of_issues (h : TcIssues s c x op e t k w) : encResv w = false ∧ wOp w = op := by
  obtain ⟨⟨-, -, hop, -⟩, henc, -⟩ := h
  exact ⟨encResv_of_encOk henc, hop⟩

theorem br_cond_lt (h : TcIssues s c x 0x02 e t k w) : wf w 115 112 < 6 := by
  obtain ⟨hresv, hop⟩ := encResv_of_issues h
  simpa [encResv, hop] using hresv

theorem salu_fn_lt (h : TcIssues s c x 0x03 e t k w) : wf w 115 112 < 13 := by
  obtain ⟨hresv, hop⟩ := encResv_of_issues h
  simpa [encResv, hop] using hresv

/-! ### `NOP` and `BR` (R446, R448) -/

/-- COND holds where R448 says so. -/
theorem tcCond_iff_tcCondSpec {cond : Nat} (h : cond < 6) (a b : Reg) : tcCond cond a b = true ↔ tcCondSpec cond a b := by
  obtain rfl | rfl | rfl | rfl | rfl | rfl : cond = 0 ∨ cond = 1 ∨ cond = 2 ∨ cond = 3 ∨ cond = 4 ∨ cond = 5 := by omega
  all_goals simp [tcCond, tcCondSpec]

theorem execTcNop_of_issues (h : TcIssues s c x 0x00 e t k w) :
    execTcNop c x s = .next (unitDone s c x k w (k.unit x) ((k.unit x).pc + 1)) := by
  have hdone := tcCtl_completes h (g := fun u _ => .ok u) rfl rfl
  obtain ⟨⟨htask, hprog, -⟩, henc, -⟩ := h
  simp only [execTcNop, htask, hprog, opFields_of_encOk henc, Bool.false_eq_true, if_false, hdone]

/-- A unit that stands at an instruction is not past the last one. -/
theorem execTcBr_of_comes (h : TcComes s c x op e t w) : execTcBr c x s = .next (tcIssue c x 0x02 (tcBrWork x) s) := by
  obtain ⟨htask, hprog, -⟩ := h
  simp [execTcBr, htask, hprog]

/-- The second operand of `BR` (R448). -/
def tcBrOperand (u : TcUnit) (w : BitVec 128) : Reg := if wf w 80 80 = 1 then reg (wf w 31 0) else u.gs (wf w 90 86)

/-- Whether `BR` jumps (R448). -/
def tcBrTaken (u : TcUnit) (w : BitVec 128) : Prop :=
  tcCondSpec (wf w 115 112) (u.gs (wf w 95 91)) (tcBrOperand u w)

theorem tcCond_br (h : TcIssues s c x 0x02 e t k w) :
    tcCond (wf w 115 112) ((k.unit x).gs (wf w 95 91)) (tcBrOperand (k.unit x) w) = true ↔ tcBrTaken (k.unit x) w :=
  tcCond_iff_tcCondSpec (br_cond_lt h) _ _

theorem execTcBr_notTaken (h : TcIssues s c x 0x02 e t k w) (hcond : ¬ tcBrTaken (k.unit x) w) :
    execTcBr c x s = .next (unitDone s c x k w (k.unit x) ((k.unit x).pc + 1)) := by
  have hwork : tcBrWork x s e t k w = (s, .ok (tcDone k x w ((k.unit x).pc + 1))) :=
    if_pos (mt (tcCond_br h).mp hcond)
  rw [execTcBr_of_comes h.1, unitDone_same, tcIssue_completes h hwork]

theorem execTcBr_taken (h : TcIssues s c x 0x02 e t k w) (hcond : tcBrTaken (k.unit x) w)
    (htarget : wf w 79 64 < k.prog.length) :
    execTcBr c x s = .next (unitDone s c x k w (k.unit x) (wf w 79 64)) := by
  have hwork : tcBrWork x s e t k w = (s, .ok (tcDone k x w (wf w 79 64))) :=
    (if_neg (not_not_intro ((tcCond_br h).mpr hcond))).trans (if_neg (Nat.not_le.mpr htarget))
  rw [execTcBr_of_comes h.1, unitDone_same, tcIssue_completes h hwork]

theorem execTcBr_pastEnd (h : TcIssues s c x 0x02 e t k w) (hcond : tcBrTaken (k.unit x) w)
    (htarget : k.prog.length ≤ wf w 79 64) :
    execTcBr c x s = .next (tcFault s c e t k.d 0x02 (k.unit x).pc 0) := by
  have hwork : tcBrWork x s e t k w = (s, .error (.fault 0x02 0)) :=
    (if_neg (not_not_intro ((tcCond_br h).mpr hcond))).trans (if_pos htarget)
  rw [execTcBr_of_comes h.1, tcIssue_faults h hwork]

/-! ### `SALU`, `AALU` and `MOVA` (R447) -/

/-- Every FN gives the result that R98 and R447 ask for. -/
theorem scalarAlu_meets_saluSpec {fn : Nat} (h : fn < 13) (a b : Reg) : saluSpec fn a b (scalarAlu fn a b) :=
  match fn, h with
  | 0, _ => aluFn_meets_aluSpec .add a b
  | 1, _ => aluFn_meets_aluSpec .sub a b
  | 2, _ => aluFn_meets_aluSpec .and a b
  | 3, _ => aluFn_meets_aluSpec .or a b
  | 4, _ => aluFn_meets_aluSpec .xor a b
  | 5, _ => aluFn_meets_aluSpec .shl a b
  | 6, _ => aluFn_meets_aluSpec .shr a b
  | 7, _ => aluFn_meets_aluSpec .sra a b
  | 8, _ => (apply_ite BitVec.toInt _ a b).trans (Int.min_def a.toInt b.toInt).symm
  | 9, _ => (apply_ite BitVec.toInt _ b a).trans (Int.max_def a.toInt b.toInt).symm
  | 10, _ => (apply_ite BitVec.toNat _ a b).trans Nat.min_def.symm
  | 11, _ => (apply_ite BitVec.toNat _ b a).trans Nat.max_def.symm
  | 12, _ => BitVec.toNat_mul a b

theorem execSalu_of_issues (h : TcIssues s c x 0x03 e t k w) :
    let u := k.unit x
    let b := if wf w 80 80 = 1 then reg (wf w 31 0) else u.gs (wf w 85 81)
    execSalu c x s = .next (unitDone s c x k w
      (u.setS (wf w 95 91) (scalarAlu (wf w 115 112) (u.gs (wf w 90 86)) b)) (u.pc + 1)) := by
  rw [execSalu, tcCtl_completes h (g := saluWork) rfl (TcUnit.setS_pc ..)]

/-- What `AALU` adds to its address register. -/
def aaluAddend (u : TcUnit) (w : BitVec 128) : Int :=
  if wf w 115 112 = 0 then s32 (wf w 31 0)
  else if wf w 115 112 = 1 then (u.gs (wf w 95 91)).toInt else (u.gs (wf w 95 91)).toInt * s32 (wf w 31 0)

theorem execAalu_of_issues (h : TcIssues s c x 0x04 e t k w) :
    let u := k.unit x
    execAalu c x s = .next (unitDone s c x k w
      (u.setA (wf w 99 96) (u.ga (wf w 103 100) + BitVec.ofInt 64 (aaluAddend u w))) (u.pc + 1)) := by
  rw [execAalu, tcCtl_completes h (g := aaluWork) rfl (TcUnit.setA_pc ..)]
  rfl

/-- An address plus a signed number is their sum modulo 2^64. -/
theorem toNat_add_ofInt (a : Word) (i : Int) : ((a + BitVec.ofInt 64 i).toNat : Int) = (a.toNat + i) % 2 ^ 64 := by
  rw [BitVec.toNat_add, BitVec.toNat_ofInt]
  omega

theorem execMova_of_issues (h : TcIssues s c x 0x05 e t k w) :
    let u := k.unit x
    execMova c x s = .next (unitDone s c x k w
      (u.setA (wf w 99 96) (BitVec.ofNat 64 (wf w 63 0))) (u.pc + 1)) := by
  rw [execMova, tcCtl_completes h (g := movaWork) rfl (TcUnit.setA_pc ..)]

/-- IMM64 of an instruction word. -/
theorem wf_imm64 (w : BitVec 128) : wf w 63 0 = w.toNat % 2 ^ 64 := by simp [wf, bits]

/-! ### `TDSET` and `TDOFF` (R449) -/

/-- What `TDSET` makes of a descriptor: the half that HI names is IMM64. -/
def tdsetValue (old w : BitVec 128) : BitVec 128 :=
  BitVec.ofNat 128 (if wf w 80 80 = 1 then wf w 63 0 * 2 ^ 64 + old.toNat % 2 ^ 64
    else old.toNat / 2 ^ 64 * 2 ^ 64 + wf w 63 0)

theorem tdsetValue_low (old w : BitVec 128) (h : wf w 80 80 = 0) :
    (tdsetValue old w).toNat % 2 ^ 64 = w.toNat % 2 ^ 64 ∧ (tdsetValue old w).toNat / 2 ^ 64 = old.toNat / 2 ^ 64 := by
  simp only [tdsetValue, BitVec.toNat_ofNat, h, Nat.zero_ne_one, if_false, wf_imm64]
  omega

theorem tdsetValue_high (old w : BitVec 128) (h : wf w 80 80 = 1) :
    (tdsetValue old w).toNat % 2 ^ 64 = old.toNat % 2 ^ 64 ∧ (tdsetValue old w).toNat / 2 ^ 64 = w.toNat % 2 ^ 64 := by
  simp only [tdsetValue, BitVec.toNat_ofNat, h, if_true, wf_imm64]
  omega

theorem execTdset_of_issues (h : TcIssues s c x 0x06 e t k w) :
    let u := k.unit x
    execTdset c x s = .next (unitDone s c x k w
      (u.setTd (wf w 115 112) (tdsetValue (u.gtd (wf w 115 112)) w)) (u.pc + 1)) := by
  rw [execTdset, tcCtl_completes h (g := tdsetWork) rfl (TcUnit.setTd_pc ..)]
  rfl

/-- A descriptor with the 21-bit address field at bit `lo` set to `y`. -/
def tdWithAddr (old : BitVec 128) (lo y : Nat) : BitVec 128 :=
  BitVec.ofNat 128 (old.toNat - bits (lo + 20) lo old.toNat * 2 ^ lo + y * 2 ^ lo)

/-- The field of BASE or AUXBASE takes the address, and every other bit stays as it was. -/
theorem tdWithAddr_fields (old : BitVec 128) {lo y : Nat} (hlo : lo = 0 ∨ lo = 96) (hy : y < 2 ^ 21) :
    bits (lo + 20) lo (tdWithAddr old lo y).toNat = y ∧ (tdWithAddr old lo y).toNat % 2 ^ lo = old.toNat % 2 ^ lo ∧
      (tdWithAddr old lo y).toNat / 2 ^ (lo + 21) = old.toNat / 2 ^ (lo + 21) := by
  have hold := old.isLt
  obtain rfl | rfl := hlo
  all_goals
    simp only [tdWithAddr, bits, BitVec.toNat_ofNat, Nat.reduceAdd, Nat.reduceSub, Nat.reducePow] at *
    omega

/-- Where the address field stands that `TDOFF` moves. -/
def tdoffLow (w : BitVec 128) : Nat := if wf w 81 81 = 1 then 96 else 0

theorem tdoffLow_eq (w : BitVec 128) : tdoffLow w = 0 ∨ tdoffLow w = 96 := by
  unfold tdoffLow
  split <;> simp

/-- The address that `TDOFF` gives, before its range is judged. -/
def tdoffAddr (u : TcUnit) (w : BitVec 128) : Int :=
  (bits (tdoffLow w + 20) (tdoffLow w) (u.gtd (wf w 115 112)).toNat : Int) + (u.gs (wf w 95 91)).toInt + s32 (wf w 31 0)

theorem execTdoff_inRange (h : TcIssues s c x 0x07 e t k w) (h0 : 0 ≤ tdoffAddr (k.unit x) w)
    (h1 : tdoffAddr (k.unit x) w < 2 ^ 21) :
    let u := k.unit x
    execTdoff c x s = .next (unitDone s c x k w
      (u.setTd (wf w 115 112) (tdWithAddr (u.gtd (wf w 115 112)) (tdoffLow w) (tdoffAddr u w).toNat)) (u.pc + 1)) := by
  have hrange : ¬ (tdoffAddr (k.unit x) w < 0 ∨ 0x1FFFFF < tdoffAddr (k.unit x) w) := by omega
  rw [execTdoff, tcCtl_completes h (g := tdoffWork) (if_neg hrange) (TcUnit.setTd_pc ..)]
  rfl

theorem execTdoff_outOfRange (h : TcIssues s c x 0x07 e t k w)
    (hy : tdoffAddr (k.unit x) w < 0 ∨ 2 ^ 21 ≤ tdoffAddr (k.unit x) w) :
    execTdoff c x s = .next (tcFault s c e t k.d 0x0A (k.unit x).pc 0) := by
  have hrange : tdoffAddr (k.unit x) w < 0 ∨ 0x1FFFFF < tdoffAddr (k.unit x) w := by omega
  rw [execTdoff, tcCtl_faults h (g := tdoffWork) (if_pos hrange)]

/-! ### `PLD` (R450) -/

/-- The bytes that `PLD` reads. -/
def pldWidth (w : BitVec 128) : Nat := if wf w 80 80 = 1 then 8 else 4

/-- The registers after `PLD` has read the parameter buffer. -/
def pldLoaded (param : List Byte) (u : TcUnit) (w : BitVec 128) : TcUnit :=
  if wf w 80 80 = 1 then u.setA (wf w 99 96) (BitVec.ofNat 64 (leAt param (wf w 15 0) 8))
  else u.setS (wf w 95 91) (reg (leAt param (wf w 15 0) 4))

theorem pldLoaded_pc (param : List Byte) (u : TcUnit) (w : BitVec 128) : (pldLoaded param u w).pc = u.pc := by
  unfold pldLoaded
  split
  · exact TcUnit.setA_pc ..
  · exact TcUnit.setS_pc ..

theorem execPld_inside (h : TcIssues s c x 0x08 e t k w) (halign : wf w 15 0 % pldWidth w = 0)
    (hlen : wf w 15 0 + pldWidth w ≤ k.param.length) :
    execPld c x s = .next (unitDone s c x k w (pldLoaded k.param (k.unit x) w) ((k.unit x).pc + 1)) := by
  have hrange : ¬ (wf w 15 0 % pldWidth w ≠ 0 ∨ k.param.length < wf w 15 0 + pldWidth w) := by omega
  have hwork : pldWork x s e t k w =
      (s, .ok (tcDone (k.setUnit x (pldLoaded k.param (k.unit x) w)) x w ((k.unit x).pc + 1))) := by
    refine tcCtl_ok ((if_neg hrange).trans ?_) (pldLoaded_pc ..)
    by_cases hwide : wf w 80 80 = 1 <;> simp [pldLoaded, hwide]
  rw [execPld, tcIssue_completes h hwork, unitDone]

theorem execPld_outside (h : TcIssues s c x 0x08 e t k w)
    (hout : wf w 15 0 % pldWidth w ≠ 0 ∨ k.param.length < wf w 15 0 + pldWidth w) :
    execPld c x s = .next (tcFault s c e t k.d 0x0E (k.unit x).pc 0) := by
  have hwork : pldWork x s e t k w = (s, .error (.fault 0x0E 0)) := tcCtl_error (if_pos hout)
  rw [execPld, tcIssue_faults h hwork]

end

/-- Settles O47: the instruction that issues does its work once (`tcIssue_of_issues`), and each work gives the registers that
R447 to R450 ask for. -/
theorem tcControlInstructions : Obligations.TcControlInstructions := by
  unfold Obligations.TcControlInstructions
  intro s c x op e t k w h u go b
  refine ⟨?nop, ?br, ?salu, ?aalu, ?mova, ?tdset, ?tdoff, ?pld⟩
  case nop => rintro rfl; exact execTcNop_of_issues h
  case br =>
    rintro rfl a r rfl rfl
    exact ⟨execTcBr_notTaken h, execTcBr_taken h, execTcBr_pastEnd h⟩
  case salu => rintro rfl; exact ⟨_, scalarAlu_meets_saluSpec (salu_fn_lt h) _ _, execSalu_of_issues h⟩
  case aalu => rintro rfl; exact ⟨_, toNat_add_ofInt _ (aaluAddend u w), execAalu_of_issues h⟩
  case mova =>
    rintro rfl
    refine ⟨_, ?_, execMova_of_issues h⟩
    rw [wf_imm64, BitVec.toNat_ofNat, Nat.mod_mod]
  case tdset =>
    rintro rfl
    exact ⟨_, tdsetValue_low _ w, tdsetValue_high _ w, execTdset_of_issues h⟩
  case tdoff =>
    rintro rfl lo y (rfl : lo = tdoffLow w) (rfl : y = tdoffAddr u w)
    refine ⟨fun h0 h1 => ?_, execTdoff_outOfRange h⟩
    obtain ⟨hfield, hbelow, habove⟩ := tdWithAddr_fields (u.gtd (wf w 115 112)) (tdoffLow_eq w)
      (y := (tdoffAddr u w).toNat) (by omega)
    exact ⟨_, by omega, hbelow, habove, execTdoff_inRange h h0 h1⟩
  case pld =>
    rintro rfl off n rfl rfl
    exact ⟨execPld_inside h, execPld_outside h⟩

end Sys2Proof.Machine
end

section
/-!
PROOF. The delivery rings (R643 to R646): the fields of a register after a write, the registers of a ring under what else moves,
and each of binding, unbinding, doorbell and delivery.
-/
namespace Sys2Proof.Machine

/-! ### Fields of a register (R7) -/

theorem bits_lt (hi lo n : Nat) : bits hi lo n < 2 ^ (hi + 1 - lo) := Nat.mod_lt _ (Nat.two_pow_pos _)

theorem testBit_bits (hi lo n i : Nat) : (bits hi lo n).testBit i = (decide (i < hi + 1 - lo) && n.testBit (lo + i)) := by
  rw [bits, Nat.testBit_mod_two_pow, Nat.testBit_div_two_pow, Nat.add_comm i lo]

theorem bit_toNat (x : Reg) (i : Nat) : bit i x.toNat = x.getLsbD i := by
  rw [BitVec.getLsbD, Nat.testBit_eq_decide_div_mod_eq]
  rfl

/-- Two registers that agree on `[hi:lo]` have the same field there. -/
theorem bits_congr {hi lo : Nat} {x y : Reg} (h : ∀ i ≤ hi, lo ≤ i → x.getLsbD i = y.getLsbD i) :
    bits hi lo x.toNat = bits hi lo y.toNat := by
  refine Nat.eq_of_testBit_eq fun i => ?_
  rw [testBit_bits, testBit_bits]
  by_cases hi' : i < hi + 1 - lo
  · have hagree := h (lo + i) (by omega) (by omega)
    rw [BitVec.getLsbD, BitVec.getLsbD] at hagree
    rw [hagree]
  · simp only [hi', decide_false, Bool.false_and]

theorem bits_and_mask {hi lo : Nat} (x : Reg) {m : Reg} (h : ∀ i ≤ hi, lo ≤ i → m.getLsbD i = true) :
    bits hi lo (x &&& m).toNat = bits hi lo x.toNat :=
  bits_congr fun i hhi hlo => by rw [BitVec.getLsbD_and, h i hhi hlo, Bool.and_true]

theorem bits_or_mask {hi lo : Nat} (x : Reg) {m : Reg} (h : ∀ i ≤ hi, lo ≤ i → m.getLsbD i = false) :
    bits hi lo (x ||| m).toNat = bits hi lo x.toNat :=
  bits_congr fun i hhi hlo => by rw [BitVec.getLsbD_or, h i hhi hlo, Bool.or_false]

/-- The mask of the bits `[hi:lo]`. -/
theorem getLsbD_fieldMask (hi lo : Nat) {i : Nat} (hi32 : i < 32) :
    (reg ((2 ^ (hi + 1 - lo) - 1) * 2 ^ lo)).getLsbD i = decide (lo ≤ i ∧ i ≤ hi) := by
  rw [reg, BitVec.getLsbD_ofNat, Nat.testBit_mul_two_pow, Nat.testBit_two_pow_sub_one, Bool.eq_iff_iff]
  simp only [hi32, decide_true, Bool.true_and, Bool.and_eq_true, decide_eq_true_eq]
  omega

section
variable (s : State)

theorem getR_setField_of_ne {a b : Nat} (hi lo v : Nat) (h : a ≠ b) : getR (setField s a hi lo v) b = getR s b := by
  rw [setField, getR_setR, if_neg h]

/-- A replaced field gives its own bits, and leaves the others of its register. -/
theorem flag_setField (a hi lo v : Nat) {i : Nat} (hi32 : i < 32) :
    flag (setField s a hi lo v) a i = if lo ≤ i ∧ i ≤ hi then v.testBit (i - lo) else flag s a i := by
  simp only [flag, getN, bit_toNat, setField, getR_setR_same, BitVec.getLsbD_or, BitVec.getLsbD_and, BitVec.getLsbD_not,
    getLsbD_fieldMask hi lo hi32]
  by_cases h : lo ≤ i ∧ i ≤ hi
  · simp only [h, reg, BitVec.getLsbD_ofNat, Nat.testBit_mul_two_pow, hi32, and_self, decide_true, Bool.not_true, Bool.and_false,
      Bool.false_or, Bool.true_and, Bool.and_true, if_true]
  · simp [h, hi32]

theorem field_setField_same (a : Nat) {hi lo v : Nat} (hhi : hi < 32) (hv : v < 2 ^ (hi + 1 - lo)) :
    field (setField s a hi lo v) a hi lo = v := by
  refine Nat.eq_of_testBit_eq fun i => ?_
  rw [field, testBit_bits]
  by_cases hi' : i < hi + 1 - lo
  · have hbit := flag_setField s a hi lo v (i := lo + i) (by omega)
    rw [flag, getN, bit_toNat, BitVec.getLsbD, if_pos (by omega), Nat.add_sub_cancel_left] at hbit
    simp only [hi', decide_true, Bool.true_and, getN, hbit]
  · have hpow : 2 ^ (hi + 1 - lo) ≤ 2 ^ i := Nat.pow_le_pow_right (by decide) (by omega)
    simp only [hi', decide_false, Bool.false_and, Nat.testBit_lt_two_pow (Nat.lt_of_lt_of_le hv hpow)]

/-! ### The registers of a function page from 0x1_0000 on: no interrupt moves them (R641, R642) -/

theorem getR_msix_ring (f : Nat) {vec b : Nat} (hvec : vec < 2048) (hb : 0x1_0000 ≤ b % 0x1000_0000) :
    getR (msix s f vec) b = getR s b := by
  unfold msix
  simp only
  split
  · rfl
  · split
    · rw [getR_setR, if_neg]
      unfold fnPage
      omega
    · rfl

theorem getR_lineMessage_ring (l : Nat) {b : Nat} (hpage : 0x1000_0000 ≤ b) (hb : 0x1_0000 ≤ b % 0x1000_0000) :
    getR (lineMessage s l) b = getR s b := by
  unfold lineMessage
  simp only
  split
  · rw [getR_inc, if_neg]
    unfold hifBase
    omega
  · exact getR_msix_ring _ _ (bits_lt 10 0 _) hb

theorem getR_raise_ring {a : Nat} (i : Nat) {b : Nat} (ha : a < 0x1000_0000) (hpage : 0x1000_0000 ≤ b)
    (hb : 0x1_0000 ≤ b % 0x1000_0000) : getR (raise s a i) b = getR s b := by
  have hset : getR (setR s a (setBit i (getR s a))) b = getR s b := by rw [getR_setR, if_neg (by omega)]
  unfold raise lineCheck
  split
  · exact hset
  · split
    · rw [getR_lineMessage_ring _ _ hpage hb, hset]
    · exact hset

theorem getR_diary_of_ne (kind sev : Nat) (secure : Bool) (d : DData) {b : Nat} (h : mgcBase + 0x50 ≠ b) :
    getR (diary s kind sev secure d) b = getR s b := by
  unfold diary diaryRaw
  split
  · rfl
  · exact (getR_inc s _ b).trans (if_neg h)

/-- The way back to RUN (R586) leaves a function page's registers from 0x1_0000 on. -/
theorem getR_toRun_ring {b : Nat} (hpage : 0x1000_0000 ≤ b) (hb : 0x1_0000 ≤ b % 0x1000_0000) :
    getR (toRun s) b = getR s b := by
  unfold toRun
  rw [getR_diary_of_ne _ _ _ _ _ (by unfold mgcBase; omega), getR_raise_ring _ _ (by decide) hpage hb]
  rfl

end

/-- Every register of a ring stands on its function page, from 0x1_0000 on. -/
theorem ringReg_mem {f r o : Nat} (hf : f < 2) (hr : r < 32) (ho : o < 64) :
    0x1000_0000 ≤ ringBase f r + o ∧ 0x1_0000 ≤ (ringBase f r + o) % 0x1000_0000 := by
  unfold ringBase fnPage
  omega

/-- The vectors of a function page stand below its rings. -/
theorem ringReg_ne_vector {f r o vec : Nat} (hvec : vec < 2048) : ringBase f r + o ≠ fnPage f + 16 * vec + 12 := by
  unfold ringBase
  omega

/-! ### Notices (R191) -/

theorem nth_set_same {α : Type} (d : α) (l : List α) (i : Nat) (v : α) (h : i < l.length) : nth d (l.set i v) i = v := by
  rw [nth, List.getElem?_set_self h, Option.getD_some]

section
variable (s : State)

@[simp] theorem getR_setNotice (q k kind target b : Nat) : getR (setNotice s q k kind target) b = getR s b := rfl

@[simp] theorem getR_setQ (q : Nat) (x : Queue) (b : Nat) : getR (setQ s q x) b = getR s b := rfl

@[simp] theorem getR_emit (o : Out) (b : Nat) : getR (emit s o) b = getR s b := rfl

@[simp] theorem getQ_setR (a : Nat) (v : Reg) (q : Nat) : getQ (setR s a v) q = getQ s q := rfl

@[simp] theorem getQ_setField (a hi lo v q : Nat) : getQ (setField s a hi lo v) q = getQ s q := rfl

/-- The receiver takes the notice that is set. -/
theorem recv_setNotice {q k : Nat} (kind target : Nat) (h : k < (getQ s q).recvs.length) :
    nth {} (getQ (setNotice s q k kind target) q).recvs k
      = { nth {} (getQ s q).recvs k with kind := kind, target := target } := by
  rw [setNotice, getQ_setQ_same]
  exact nth_set_same _ _ _ _ h

/-! ### Binding and unbinding (R643) -/

variable {s} {f r : Nat}

theorem bindResult_lt (s : State) (f r v : Nat) : bindResult s f r v < 6 := by
  unfold bindResult
  simp only
  repeat' split
  all_goals decide

/-- A binding that is accepted names a receiver of the queue. -/
theorem recv_lt_of_bindResult {v : Nat} (h : bindResult s f r v = 0) :
    bits 23 21 v < (getQ s (bits 15 0 v)).recvs.length := by
  unfold bindResult at h
  simp only at h
  split at h
  · cases h
  · split at h
    · cases h
    · split at h
      · cases h
      · next hfree => exact Nat.lt_of_not_le fun hle => hfree (.inl hle)

/-- EN is 0 in what a refused write or an unbinding leaves in RING_CFG. -/
theorem bit31_cleared (v : Reg) : bit 31 (v &&& 0x7FE0FFFF).toNat = false := by
  rw [bit_toNat, BitVec.getLsbD_and, show (0x7FE0FFFF : Reg).getLsbD 31 = false by decide, Bool.and_false]

theorem ringBind_refused {v : Reg} (hres : bindResult s f r v.toNat ≠ 0) (hb : ringBound s f r = false) :
    ringBind f r v s
      = setField (setR s (ringBase f r + 0x10) (v &&& 0x7FE0FFFF)) (ringBase f r + 0x20) 7 0 (bindResult s f r v.toNat) := by
  simp only [ringBind, hres, hb, ne_eq, not_false_eq_true, if_true, Bool.false_eq_true, if_false]

/-- A refused binding leaves its RESULT and EN 0. -/
theorem ringBind_refused_regs {v : Reg} (hres : bindResult s f r v.toNat ≠ 0) (hb : ringBound s f r = false) :
    let t := ringBind f r v s
    ringBound t f r = false ∧ field t (ringBase f r + 0x20) 7 0 = bindResult s f r v.toNat ∧
      flag t (ringBase f r + 0x10) 31 = false ∧ t = { s with regs := t.regs } := by
  rw [ringBind_refused hres hb]
  refine ⟨?bound, ?result, ?en, rfl⟩
  case bound =>
    rw [ringBound, flag_setField _ _ _ _ _ (by decide), if_neg (by decide), flag, getN, getR_setR, if_neg (by omega)]
    exact hb
  case result => exact field_setField_same _ _ (by decide) (Nat.lt_trans (bindResult_lt s f r v.toNat) (by decide))
  case en =>
    rw [flag, getN, getR_setField_of_ne _ _ _ _ (by omega), getR_setR_same]
    exact bit31_cleared v

/-- The machine once ring `r` is bound to the receiver that `v` names. -/
theorem ringBind_accepted {v : Reg} (hres : bindResult s f r v.toNat = 0) :
    ringBind f r v s =
      let b := ringBase f r
      let s1 := setR (unbindRing s f r) (b + 0x10) (v &&& 0xFFE0FFFF)
      let s2 := setNotice s1 (bits 15 0 v.toNat) (bits 23 21 v.toNat) 3 (getN s1 (b + 0x14))
      setR (setR (setR s2 (b + 0x18) 0) (b + 0x1C) 0) (b + 0x20) (reg (2 ^ 31)) := by
  simp only [ringBind, hres, ne_eq, not_true_eq_false, if_false]

/-- Unbinding a ring that is not bound only writes BOUND and EN. -/
theorem unbindRing_of_not_bound (hb : ringBound s f r = false) :
    unbindRing s f r = setField (setField s (ringBase f r + 0x20) 31 31 0) (ringBase f r + 0x10) 31 31 0 := by
  simp only [unbindRing, hb, Bool.false_eq_true, if_false]

theorem unbindRing_of_bound (hb : ringBound s f r = true) :
    unbindRing s f r = setField (setField (setNotice s (ringRecv s f r).1 (ringRecv s f r).2 0 0)
      (ringBase f r + 0x20) 31 31 0) (ringBase f r + 0x10) 31 31 0 := by
  simp only [unbindRing, hb, if_true]

/-- The registers of a ring that has just been bound: BOUND with RESULT 0, PI and CI 0, and the receiver in RING_CFG. -/
theorem ringBind_accepted_regs {v : Reg} (hres : bindResult s f r v.toNat = 0) :
    let t := ringBind f r v s
    ringBound t f r = true ∧ field t (ringBase f r + 0x20) 7 0 = 0 ∧ getR t (ringBase f r + 0x18) = 0 ∧
      getR t (ringBase f r + 0x1C) = 0 ∧ ringRecv t f r = (bits 15 0 v.toNat, bits 23 21 v.toNat) := by
  rw [ringBind_accepted hres]
  refine ⟨?bound, ?result, ?pi, ?ci, ?recv⟩
  case bound =>
    rw [ringBound, flag, getN, getR_setR_same]
    decide
  case result =>
    rw [field, getN, getR_setR_same]
    decide
  case pi => simp [getR_setR]
  case ci => simp [getR_setR]
  case recv =>
    simp only [ringRecv, field, getN, getR_setR, getR_setNotice, Nat.add_left_cancel_iff, Nat.reduceEqDiff, if_false, if_true]
    rw [bits_and_mask v (by decide), bits_and_mask v (by decide)]

/-- The receiver of a ring that has just been bound reports to the ring's vector. -/
theorem ringBind_accepted_recv {v : Reg} (hres : bindResult s f r v.toNat = 0) (hb : ringBound s f r = false) :
    let x := nth {} (getQ (ringBind f r v s) (bits 15 0 v.toNat)).recvs (bits 23 21 v.toNat)
    x.kind = 3 ∧ x.target = getN s (ringBase f r + 0x14) := by
  have hlen := recv_lt_of_bindResult hres
  rw [ringBind_accepted hres, unbindRing_of_not_bound hb]
  simp only [getQ_setR, getN, getR_setR, Nat.add_left_cancel_iff, Nat.reduceEqDiff, if_false]
  rw [getR_setField_of_ne _ _ _ _ (by omega), getR_setField_of_ne _ _ _ _ (by omega), recv_setNotice]
  · exact ⟨rfl, rfl⟩
  · exact hlen

/-- A ring that is unbound: BOUND and EN are 0 and its receiver has KIND 0. -/
theorem ringUnbind_of_bound (v : Reg) (hb : ringBound s f r = true)
    (hlen : (ringRecv s f r).2 < (getQ s (ringRecv s f r).1).recvs.length) :
    let t := ringUnbind f r v s
    ringBound t f r = false ∧ flag t (ringBase f r + 0x10) 31 = false ∧
      (nth {} (getQ t (ringRecv s f r).1).recvs (ringRecv s f r).2).kind = 0 := by
  rw [ringUnbind, unbindRing_of_bound hb]
  refine ⟨?bound, ?en, ?recv⟩
  case bound =>
    rw [ringBound, flag, getN, getR_setR, if_neg (by omega), getR_setField_of_ne _ _ _ _ (by omega)]
    exact flag_setField _ _ _ _ _ (by decide)
  case en =>
    rw [flag, getN, getR_setR_same]
    exact bit31_cleared v
  case recv =>
    rw [getQ_setR, getQ_setField, getQ_setField, recv_setNotice _ _ _ hlen]

/-! ### Doorbells (R646) -/

/-- The way back to RUN from DOZE leaves a ring's registers, so that the doorbell is judged by them as they stood. -/
theorem ringDoorbell_eq (ci : Reg) (hf : f < 2) (hr : r < 32) :
    ringDoorbell f r ci s =
      let s1 := if s.power.st = .doze then toRun s else s
      if (getR s (ringBase f r + 0x18) - ci).toNat ≤ 2 ^ field s (ringBase f r + 0x10) 28 24
        then setR s1 (ringBase f r + 0x1C) ci
        else raise (setField s1 (ringBase f r + 0x20) 7 0 6) (hifBase + 0x10) 6 := by
  have hreg (o : Nat) (ho : o < 64) :
      getR (if s.power.st = .doze then toRun s else s) (ringBase f r + o) = getR s (ringBase f r + o) := by
    obtain ⟨hpage, hoff⟩ := ringReg_mem hf hr ho
    split
    · exact getR_toRun_ring s hpage hoff
    · rfl
  have hsize : field (if s.power.st = .doze then toRun s else s) (ringBase f r + 0x10) 28 24
      = field s (ringBase f r + 0x10) 28 24 := by rw [field, getN, hreg 0x10 (by decide), field, getN]
  simp only [ringDoorbell]
  rw [hreg 0x18 (by decide), hsize]

/-! ### Delivery (R644, R645) -/

/-- Use of a queue whose pointer copies agree leaves it. -/
theorem usePtr_of_sound {q : Nat} (h : (getQ s q).ptrBad = false) : usePtr s q = s := by
  simp only [usePtr, h, Bool.false_eq_true, if_false]

/-- A packet without an error passes the check. -/
theorem eccCheck_of_sound {q k : Nat} {p : Packet} (hhead : headFor (getQ s q) (nth {} (getQ s q).recvs k) = some p)
    (hbad : p.bad = false) (hsoft : p.soft = 0) : eccCheck s q k = s := by
  simp only [eccCheck, hhead, hbad, hsoft, Bool.false_eq_true, if_false, if_true]

theorem foldl_eq_self {α β : Type} {g : α → β → α} {a : α} {l : List β} (h : ∀ x ∈ l, g a x = a) : l.foldl g a = a := by
  induction l with
  | nil => rfl
  | cons x l ih => rw [List.foldl_cons, h x (by simp), ih fun y hy => h y (by simp [hy])]

theorem squashPackets_of_none {n : Nat} (h : (getSlot s n (getSeq s n).nextOut).notice = none) : squashPackets s n = s := by
  have hone : squashPacket s n (getSeq s n).nextOut = s := by simp only [squashPacket, h]
  exact foldl_eq_self fun _ _ => hone

/-- With no squash packet waiting, none is sent. -/
theorem retrySquash_of_noSquashWaits (h : NoSquashWaits s) : retrySquash s = s :=
  foldl_eq_self fun n hn => squashPackets_of_none (h n (List.mem_range.mp hn))

theorem nextRingOf_lt (h : nextRingOf s f = some r) : r < 32 := by
  obtain ⟨i, -, rfl⟩ := List.mem_map.mp (List.mem_of_find?_eq_some h)
  exact Nat.mod_lt _ (by decide)

end

section
variable (s : State) (f r : Nat) (ws : List QWord) (leap : Bool)

/-- Cells of ring `r` (R644). -/
def ringCells : Nat := 2 ^ field s (ringBase f r + 0x10) 28 24

/-- Cells of the image of a packet (R644). -/
def imageCells : Nat := 1 + cdiv ws.length 8

/-- Cells of the pad before the image of a packet (R644). -/
def padCells : Nat :=
  let left := ringCells s f r - getN s (ringBase f r + 0x18) % ringCells s f r
  if imageCells ws ≤ left then 0 else left

/-- Where cell `c` of ring `r` lies in host memory (R644). -/
def cellAddr (c : Nat) : Nat :=
  getN s (ringBase f r) + 2 ^ 32 * getN s (ringBase f r + 4) + 64 * (c % ringCells s f r)

/-- The pad image as it goes out (R644). -/
def padWrite : Out :=
  .hostWrite f (cellAddr s f r (getN s (ringBase f r + 0x18))) (leBytes 2 0 ++ leBytes 2 0xFFFF ++ zeros 60)

/-- The packet's image as it goes out (R644). -/
def imageWrite : Out :=
  .hostWrite f (cellAddr s f r (getN s (ringBase f r + 0x18) + padCells s f r ws)) (packetImage ws leap)

/-- The pad image written, where there is one (R645 step 2). -/
def padWritten : State := if padCells s f r ws = 0 then s else emit s (padWrite s f r)

/-- The packet's image written (R645 step 2). -/
def imageWritten : State := emit (padWritten s f r ws) (imageWrite s f r ws leap)

/-- PI and the packet count advanced past the image (R645 step 3). -/
def indicesAdvanced : State :=
  inc (setR (imageWritten s f r ws leap) (ringBase f r + 0x18)
    (reg (getN s (ringBase f r + 0x18) + padCells s f r ws + imageCells ws))) (ringBase f r + 0x24)

/-- The indices written as the registers of `s` hold them (R645 step 3). -/
def indexWrite : Out :=
  .hostWrite f (getN s (ringBase f r + 8) + 2 ^ 32 * getN s (ringBase f r + 0xC))
    (leBytes 4 (getN s (ringBase f r + 0x18)) ++ leBytes 4 (getN s (ringBase f r + 0x24)))

/-- The machine once a packet and the indices stand in host memory, and before the packet leaves its queue. -/
def packetWritten : State :=
  let t := indicesAdvanced s f r ws leap
  emit t (indexWrite t f r)

/-- A queue without what stood at receiver `k`'s head, its own marker first (R645 step 4). -/
def headTaken (x : Queue) (k : Nat) : Queue :=
  match (nth {} x.recvs k).markers with
  | _ :: l => setRecv x k { nth {} x.recvs k with markers := l }
  | [] => takePacket x k

variable {s f r ws leap} {q k : Nat}

theorem headTaken_of_noMarkers {x : Queue} (h : (nth {} x.recvs k).markers = []) : headTaken x k = takePacket x k := by
  simp only [headTaken, h]

/-- `deliver` writes the packet at the ring's head, takes it from its queue and sends the message (R645). -/
theorem deliver_of_ringHead (hrecv : ringRecv s f r = (q, k)) (hsound : eccCheck (usePtr s q) q k = s)
    (hhead : ringHead s f r = some (ws, leap)) :
    deliver s f r =
      let t := packetWritten s f r ws leap
      let t1 := setQ t q (headTaken (getQ t q) k)
      msix (retrySquash t1) f (field t1 (ringBase f r + 0x14) 10 0) := by
  simp only [deliver, hrecv, hsound, hhead]
  rfl

/-! ### What the writes of a packet leave in the state -/

theorem imageWritten_fields :
    imageWritten s f r ws leap = { s with out := (imageWritten s f r ws leap).out } := by
  unfold imageWritten padWritten
  split <;> rfl

theorem packetWritten_fields : packetWritten s f r ws leap =
    { s with regs := (packetWritten s f r ws leap).regs, out := (packetWritten s f r ws leap).out } := by
  unfold packetWritten indicesAdvanced
  rw [imageWritten_fields]
  rfl

/-- The writes of a packet move PI and the packet count alone. -/
theorem getR_packetWritten (b : Nat) : getR (packetWritten s f r ws leap) b =
    if ringBase f r + 0x24 = b then getR s b + 1
    else if ringBase f r + 0x18 = b then reg (getN s (ringBase f r + 0x18) + padCells s f r ws + imageCells ws)
    else getR s b := by
  have himage (a : Nat) : getR (imageWritten s f r ws leap) a = getR s a := by rw [imageWritten_fields]; rfl
  rw [packetWritten, getR_emit, indicesAdvanced, getR_inc, getR_setR, getR_setR, himage, himage]
  split
  · next hcount => rw [if_neg (by omega), hcount]
  · rfl

theorem getR_packetWritten_of_ne {b : Nat} (hpi : ringBase f r + 0x18 ≠ b) (hcount : ringBase f r + 0x24 ≠ b) :
    getR (packetWritten s f r ws leap) b = getR s b := by
  rw [getR_packetWritten, if_neg hcount, if_neg hpi]

theorem padWritten_out :
    (padWritten s f r ws).out = s.out ++ if padCells s f r ws = 0 then [] else [padWrite s f r] := by
  unfold padWritten
  split
  · exact (List.append_nil _).symm
  · rfl

theorem packetWritten_out : (packetWritten s f r ws leap).out = (padWritten s f r ws).out ++
    [imageWrite s f r ws leap, indexWrite (packetWritten s f r ws leap) f r] := by
  simp only [packetWritten, indicesAdvanced, imageWritten, emit, inc_out, setR_out, List.append_assoc, List.cons_append,
    List.nil_append]
  rfl

/-! ### The message, and the packet delivered -/

theorem msix_out (s : State) (f vec : Nat) : ∃ rest, (msix s f vec).out = s.out ++ rest ∧
    ((getFn s f).msixEn = true → (getFn s f).msixMask = false → flag s (fnPage f + 16 * vec + 12) 0 = false →
      rest = [.msix f vec]) := by
  unfold msix
  simp only
  split
  · next hoff => exact ⟨[], (List.append_nil _).symm, fun hen => absurd hen hoff⟩
  · split
    · next hmask =>
      refine ⟨[], (List.append_nil _).symm, fun _ hfn hvec => ?_⟩
      simp only [hfn, hvec, Bool.or_self, Bool.false_eq_true] at hmask
    · exact ⟨_, rfl, fun _ _ _ => rfl⟩

variable (s f r ws leap q k) in
/-- The machine once a packet is delivered: written, taken from its queue, and the message sent. -/
def packetDelivered : State :=
  msix (setQ (packetWritten s f r ws leap) q (takePacket (getQ s q) k)) f (field s (ringBase f r + 0x14) 10 0)

/-- A sound packet at its receiver's head is delivered. -/
theorem deliver_of_head {p : Packet} (hrecv : ringRecv s f r = (q, k)) (hptr : (getQ s q).ptrBad = false)
    (hwaits : NoSquashWaits s) (hmark : (nth {} (getQ s q).recvs k).markers = [])
    (hhead : headFor (getQ s q) (nth {} (getQ s q).recvs k) = some p) (hbad : p.bad = false) (hsoft : p.soft = 0) :
    deliver s f r = packetDelivered s f r p.words p.leap q k := by
  have hring : ringHead s f r = some (p.words, p.leap) := by simp only [ringHead, hrecv, hmark, hhead, Option.map_some]
  have hsound : eccCheck (usePtr s q) q k = s := by rw [usePtr_of_sound hptr, eccCheck_of_sound hhead hbad hsoft]
  have hqueue : getQ (packetWritten s f r p.words p.leap) q = getQ s q := by rw [packetWritten_fields]; rfl
  have hnone (x : Queue) : NoSquashWaits (setQ (packetWritten s f r p.words p.leap) q x) := by
    rw [packetWritten_fields]
    exact hwaits
  have hvec (x : Queue) : field (setQ (packetWritten s f r p.words p.leap) q x) (ringBase f r + 0x14) 10 0
      = field s (ringBase f r + 0x14) 10 0 := by
    rw [field, getN, getR_setQ, getR_packetWritten_of_ne (by omega) (by omega), field, getN]
  rw [deliver_of_ringHead hrecv hsound hring]
  simp only [hqueue, headTaken_of_noMarkers hmark, retrySquash_of_noSquashWaits (hnone _), hvec, packetDelivered]

theorem getR_packetDelivered {o : Nat} (hf : f < 2) (hr : r < 32) (ho : o < 64) :
    getR (packetDelivered s f r ws leap q k) (ringBase f r + o) = getR (packetWritten s f r ws leap) (ringBase f r + o) :=
  getR_msix_ring _ _ (bits_lt 10 0 _) (ringReg_mem hf hr ho).2

theorem packetDelivered_pi (hf : f < 2) (hr : r < 32) : getN (packetDelivered s f r ws leap q k) (ringBase f r + 0x18)
    = (getN s (ringBase f r + 0x18) + padCells s f r ws + imageCells ws) % 2 ^ 32 := by
  rw [getN, getR_packetDelivered hf hr (by decide), getR_packetWritten, if_neg (by omega), if_pos rfl, reg, BitVec.toNat_ofNat]

theorem packetDelivered_count (hf : f < 2) (hr : r < 32) :
    getR (packetDelivered s f r ws leap q k) (ringBase f r + 0x24) = getR s (ringBase f r + 0x24) + 1 := by
  rw [getR_packetDelivered hf hr (by decide), getR_packetWritten, if_pos rfl]

/-- The indices in host memory are those that the registers hold when the packet is delivered. -/
theorem indexWrite_packetWritten (hf : f < 2) (hr : r < 32) :
    indexWrite (packetWritten s f r ws leap) f r =
      let t := packetDelivered s f r ws leap q k
      .hostWrite f (getN s (ringBase f r + 8) + 2 ^ 32 * getN s (ringBase f r + 0xC))
        (leBytes 4 (getN t (ringBase f r + 0x18)) ++ leBytes 4 (getN t (ringBase f r + 0x24))) := by
  have hsame {o : Nat} (hpi : 0x18 ≠ o) (hcount : 0x24 ≠ o) :
      getN (packetWritten s f r ws leap) (ringBase f r + o) = getN s (ringBase f r + o) :=
    congrArg BitVec.toNat (getR_packetWritten_of_ne (by omega) (by omega))
  have hring {o : Nat} (ho : o < 64) : getN (packetDelivered s f r ws leap q k) (ringBase f r + o)
      = getN (packetWritten s f r ws leap) (ringBase f r + o) := congrArg BitVec.toNat (getR_packetDelivered hf hr ho)
  rw [indexWrite, hsame (by decide) (by decide), hsame (by decide) (by decide)]
  simp only [hring (o := 0x18) (by decide), hring (o := 0x24) (by decide)]

theorem packetDelivered_queue : getQ (packetDelivered s f r ws leap q k) q = takePacket (getQ s q) k := by
  unfold packetDelivered
  rw [msix_fields]
  exact getQ_setQ_same ..

theorem packetDelivered_hif : (packetDelivered s f r ws leap q k).hif = s.hif := by
  unfold packetDelivered
  rw [msix_fields, packetWritten_fields]
  rfl

/-- What goes out: the packet's writes in their order, then the message where the vector is not masked. -/
theorem packetDelivered_out (hf : f < 2) (hr : r < 32) :
    let t := packetDelivered s f r ws leap q k
    ∃ rest, t.out = s.out ++ (if padCells s f r ws = 0 then [] else [padWrite s f r]) ++
      [imageWrite s f r ws leap, .hostWrite f (getN s (ringBase f r + 8) + 2 ^ 32 * getN s (ringBase f r + 0xC))
        (leBytes 4 (getN t (ringBase f r + 0x18)) ++ leBytes 4 (getN t (ringBase f r + 0x24)))] ++ rest ∧
      ((getFn s f).msixEn = true → (getFn s f).msixMask = false →
        flag s (fnPage f + 16 * field s (ringBase f r + 0x14) 10 0 + 12) 0 = false →
        rest = [.msix f (field s (ringBase f r + 0x14) 10 0)]) := by
  obtain ⟨rest, hout, hsent⟩ := msix_out (setQ (packetWritten s f r ws leap) q (takePacket (getQ s q) k)) f
    (field s (ringBase f r + 0x14) 10 0)
  have hfn : getFn (setQ (packetWritten s f r ws leap) q (takePacket (getQ s q) k)) f = getFn s f := by
    rw [packetWritten_fields]
    rfl
  have hmask : flag (setQ (packetWritten s f r ws leap) q (takePacket (getQ s q) k))
      (fnPage f + 16 * field s (ringBase f r + 0x14) 10 0 + 12) 0
        = flag s (fnPage f + 16 * field s (ringBase f r + 0x14) 10 0 + 12) 0 := by
    have hvec : field s (ringBase f r + 0x14) 10 0 < 2048 := bits_lt 10 0 _
    rw [flag, getN, getR_setQ, getR_packetWritten_of_ne (ringReg_ne_vector hvec) (ringReg_ne_vector hvec), flag, getN]
  rw [hfn, hmask] at hsent
  have hwritten : (packetDelivered s f r ws leap q k).out = (packetWritten s f r ws leap).out ++ rest := hout
  rw [packetWritten_out, padWritten_out, indexWrite_packetWritten (q := q) (k := k) hf hr] at hwritten
  exact ⟨rest, hwritten, hsent⟩

/-! ### The engine's choice (R645) -/

variable (s f r) in
/-- Function `f`'s engine has chosen ring `r` (R645). -/
def ringServed : State := setFn s f { getFn s f with lastRing := r }

@[simp] theorem getR_ringServed (b : Nat) : getR (ringServed s f r) b = getR s b := getR_of_regs (setFn_regs ..) b

@[simp] theorem getN_ringServed (b : Nat) : getN (ringServed s f r) b = getN s b := congrArg BitVec.toNat (getR_ringServed b)

@[simp] theorem field_ringServed (b hi lo : Nat) : field (ringServed s f r) b hi lo = field s b hi lo :=
  congrArg (bits hi lo) (getN_ringServed b)

@[simp] theorem flag_ringServed (b i : Nat) : flag (ringServed s f r) b i = flag s b i := congrArg (bit i) (getN_ringServed b)

@[simp] theorem getQ_ringServed (x : Nat) : getQ (ringServed s f r) x = getQ s x := by
  rw [getQ, ringServed, setFn_queues, getQ]

@[simp] theorem ringServed_out : (ringServed s f r).out = s.out := setFn_out ..

theorem noSquashWaits_ringServed (h : NoSquashWaits s) : NoSquashWaits (ringServed s f r) := by
  simpa only [NoSquashWaits, getSlot, getSeq, ringServed, setFn_seqs] using h

@[simp] theorem getFn_ringServed : getFn (ringServed s f r) f = { getFn s f with lastRing := r } := by
  rw [ringServed]
  generalize { getFn s f with lastRing := r } = p
  unfold setFn getFn
  split <;> rfl

theorem qmRuns_of_fnReach (hreach : fnReach s f = true) (hrun : s.power.st = .run) : qmRuns s = true := by
  simp only [fnReach, Bool.and_eq_true] at hreach
  obtain ⟨⟨⟨hdie, -⟩, -⟩, -⟩ := hreach
  simp [qmRuns, hdie, hrun]

/-- A function that reaches the host delivers the sound packet of the ring that it serves next. -/
theorem execRingDelivery_of_next {p : Packet} (hruns : qmRuns s = true) (hnext : nextRingOf s f = some r)
    (hhost : hostReach s (f == 1) = true) (hrecv : ringRecv s f r = (q, k)) (hptr : (getQ s q).ptrBad = false)
    (hwaits : NoSquashWaits s) (hmark : (nth {} (getQ s q).recvs k).markers = [])
    (hhead : headFor (getQ s q) (nth {} (getQ s q).recvs k) = some p) (hbad : p.bad = false) (hsoft : p.soft = 0) :
    execRingDelivery f s = .next (packetDelivered (ringServed s f r) f r p.words p.leap q k) := by
  have hdeliver : deliver (ringServed s f r) f r = packetDelivered (ringServed s f r) f r p.words p.leap q k := by
    refine deliver_of_head ?_ ?_ (noSquashWaits_ringServed hwaits) ?_ ?_ hbad hsoft
    · simpa only [ringRecv, field_ringServed] using hrecv
    all_goals simpa only [getQ_ringServed]
  rw [← hdeliver]
  simp only [execRingDelivery, hruns, hnext, hhost, not_true_eq_false, if_false, ringServed]

end

/-- Settles O59: a binding is judged once (`ringBind_refused_regs`, `ringBind_accepted_regs`), a doorbell by the ring's registers as
they stood (`ringDoorbell_eq`), and a sound packet is delivered whole (`deliver_of_head`). -/
theorem deliveryRings : Obligations.DeliveryRings := by
  unfold Obligations.DeliveryRings
  intro s f hreach
  refine ⟨?bind, ?unbind, ?doorbell, ?deliver⟩
  case bind =>
    rintro r v res rfl
    have hexec : exec (.ringBind f r v) s = .next (ringBind f r (v ||| 0x80000000) s) := congrArg Host.Outcome.next (if_pos hreach)
    refine ⟨fun hres hb => ⟨_, hexec, ringBind_refused_regs hres hb⟩, fun hres hb => ⟨_, hexec, ?_⟩⟩
    obtain ⟨hbound, hresult, hpi, hci, hrecv⟩ := ringBind_accepted_regs hres
    have hnotice := ringBind_accepted_recv hres hb
    have hq : bits 15 0 (v ||| 0x80000000).toNat = bits 15 0 v.toNat := bits_or_mask v (by decide)
    have hk : bits 23 21 (v ||| 0x80000000).toNat = bits 23 21 v.toNat := bits_or_mask v (by decide)
    rw [hq, hk] at hrecv hnotice
    exact ⟨hbound, hresult, hpi, hci, hrecv, hnotice⟩
  case unbind =>
    intro r v hb hlen
    exact ⟨_, congrArg Host.Outcome.next (if_pos hreach), ringUnbind_of_bound v hb hlen⟩
  case doorbell =>
    rintro r ci s1 rfl
    have hexec : exec (.ringDb f r ci) s = .next (ringDoorbell f r ci s) := congrArg Host.Outcome.next (if_pos hreach)
    rw [hexec, ringDoorbell_eq ci f.isLt r.isLt]
    exact ⟨fun hle => congrArg Host.Outcome.next (if_pos hle), fun hlt => congrArg Host.Outcome.next (if_neg (Nat.not_le.mpr hlt))⟩
  case deliver =>
    rintro r q k p b n pi cells pad hrun hnext hhost hrecv hptr hwaits hmark hhead hbad hsoft rfl rfl rfl rfl rfl
    have hworld : ∀ f : Fin 2, (f == 1) = (f.val == 1) := by decide
    rw [hworld] at hhost
    have hexec := execRingDelivery_of_next (qmRuns_of_fnReach hreach hrun) hnext hhost hrecv.symm hptr hwaits hmark hhead hbad hsoft
    have hr := nextRingOf_lt hnext
    obtain ⟨rest, hout, hsent⟩ := packetDelivered_out (s := ringServed s f r) (ws := p.words) (leap := p.leap) (q := q) (k := k)
      f.isLt hr
    simp only [getFn_ringServed, field_ringServed, flag_ringServed] at hsent
    refine ⟨_, rest, hexec, ?pi, ?count, ?queue, ?last, ?out, hsent⟩
    case pi =>
      rw [packetDelivered_pi f.isLt hr]
      simp only [padCells, ringCells, imageCells, getN_ringServed, field_ringServed]
    case count => rw [packetDelivered_count f.isLt hr, getR_ringServed]
    case queue => rw [packetDelivered_queue, getQ_ringServed]
    case last => rw [getFn, packetDelivered_hif, ← getFn, getFn_ringServed]
    case out =>
      rw [hout]
      simp only [padWrite, imageWrite, padCells, ringCells, imageCells, cellAddr, getN_ringServed, field_ringServed, ringServed_out]

end Sys2Proof.Machine
end
